-- ==== Sys2Proof/Word.lean ====
section
/-! DEFINITION. The word types of the machine (spec/03_numbers.md R48, spec/00_scope.md R4, R5): bytes, the 64-bit words
of the scalar unit, the 128-bit status records and lane predicates, the 1,024-bit vector registers, and the sparse
tables in which units are kept by their rank or number. -/

namespace Sys2Proof

/-- A byte. -/
abbrev Byte := BitVec 8

/-- A scalar word (i64 of R48). -/
abbrev Word := BitVec 64

/-- A status record or a lane predicate (Table 1.1). -/
abbrev Quad := BitVec 128

/-- A vector register (Table 1.1). -/
abbrev VReg := BitVec 1024

/-- A sparse table: values by number, in rising order of the numbers. -/
abbrev NMap (α : Type) := List (Nat × α)

/-- The entry of a table under k. -/
def nget {α : Type} : NMap α → Nat → Option α
  | [], _ => none
  | (a, v) :: r, k => if a = k then some v else nget r k

/-- The entry of a table under k, or d where it lists none. -/
def ngetD {α : Type} (m : NMap α) (k : Nat) (d : α) : α := (nget m k).getD d

/-- The table with v under k. -/
def nset {α : Type} : NMap α → Nat → α → NMap α
  | [], k, v => [(k, v)]
  | (a, w) :: r, k, v => if a = k then (k, v) :: r else if k < a then (k, v) :: (a, w) :: r else (a, w) :: nset r k v

/-- The table without an entry under k. -/
def ndel {α : Type} : NMap α → Nat → NMap α
  | [], _ => []
  | (a, w) :: r, k => if a = k then ndel r k else (a, w) :: ndel r k

end Sys2Proof
end

