-- ==== Sys2Proof/Syntax.lean ====
section
/-! DEFINITION. The instruction set of the SK2-1024 as syntax: one constructor of Instr per row of
spec/opcode_table.json. A row with words carries the word's fields and the bits a header lends it
(spec/08_encoding.md); a row without words, a step of an engine, vault, scheduler or of the host, carries the packet
or the operands of that step. -/

namespace Sys2Proof

/-- An immediate or offset (R157, R161): lent says that a header lends it its high bits, and raw is the field as a
number, at the width it then has. -/
structure Imm where
  lent : Bool
  raw : Nat
  deriving DecidableEq, Repr, Inhabited

/-- SR layout with three registers (Table 8.3): guard, rd, ra, rb and the last-use marks. The field g is the guard. -/
structure R3 where
  g : Nat
  rd : Nat
  ra : Nat
  rb : Nat
  la : Bool
  lb : Bool
  deriving DecidableEq, Repr, Inhabited

/-- SR layout with one source (R179 CLZ, POPC). The field g is the guard. -/
structure R2 where
  g : Nat
  rd : Nat
  ra : Nat
  la : Bool
  deriving DecidableEq, Repr, Inhabited

/-- SEL (R180): SR layout with the predicate pa in sub[2:0]. The field g is the guard. -/
structure RSel where
  g : Nat
  rd : Nat
  ra : Nat
  rb : Nat
  la : Bool
  lb : Bool
  pa : Nat
  deriving DecidableEq, Repr, Inhabited

/-- SR layout reading ra alone (BRI, CTXSAVE, CTXLOAD, DIVERT, RESUME; R185, Table 9.10). The field g is the guard. -/
structure RA where
  g : Nat
  ra : Nat
  la : Bool
  deriving DecidableEq, Repr, Inhabited

/-- SR layout reading ra and rb (TLBINV, Table 9.10). The field g is the guard. -/
structure RAB where
  g : Nat
  ra : Nat
  rb : Nat
  la : Bool
  lb : Bool
  deriving DecidableEq, Repr, Inhabited

/-- A word whose every field but the guard is zero. The field g is the guard. -/
structure G0 where
  g : Nat
  deriving DecidableEq, Repr, Inhabited

/-- SI layout with rd, ra and an immediate (Table 8.3). The field g is the guard. -/
structure I3 where
  g : Nat
  rd : Nat
  ra : Nat
  la : Bool
  imm : Imm
  deriving DecidableEq, Repr, Inhabited

/-- SI layout with rd and an immediate; ra and la are 0. The field g is the guard. -/
structure ID where
  g : Nat
  rd : Nat
  imm : Imm
  deriving DecidableEq, Repr, Inhabited

/-- SI layout with an immediate alone; rd, ra and la are 0. The field g is the guard. -/
structure IU where
  g : Nat
  imm : Imm
  deriving DecidableEq, Repr, Inhabited

/-- IXSET and IXADD (R184): SI with rd = n and a signed immediate from -128 to 127. The field g is the guard. -/
structure IX where
  g : Nat
  rd : Nat
  imm : Imm
  deriving DecidableEq, Repr, Inhabited

/-- IXGET (R184): SR with rd = xd and ra = n. The field g is the guard. -/
structure IXG where
  g : Nat
  rd : Nat
  ra : Nat
  deriving DecidableEq, Repr, Inhabited

/-- Predicate operations (R183): SR with rd = pd, ra = pa, rb = pb. The field g is the guard. -/
structure P3 where
  g : Nat
  rd : Nat
  ra : Nat
  rb : Nat
  deriving DecidableEq, Repr, Inhabited

/-- PMOV (R183): SR with rd = pd and ra = pa. The field g is the guard. -/
structure P2 where
  g : Nat
  rd : Nat
  ra : Nat
  deriving DecidableEq, Repr, Inhabited

/-- SB layout (Table 8.3): a word offset of 21 bits, 30 with a header. The field g is the guard. -/
structure SB where
  g : Nat
  imm : Imm
  deriving DecidableEq, Repr, Inhabited

/-- ARRIVE and WAIT (R191): the group in sub[1:0]. The field g is the guard. -/
structure GB where
  g : Nat
  n : Nat
  deriving DecidableEq, Repr, Inhabited

/-- WAITF (R192): the flag in imm[5:0]. The field g is the guard. -/
structure GF where
  g : Nat
  fn : Nat
  deriving DecidableEq, Repr, Inhabited

/-- CSRR (R193): rd = xd, the CSR number in the immediate. The field g is the guard. -/
structure CR where
  g : Nat
  rd : Nat
  csr : Nat
  deriving DecidableEq, Repr, Inhabited

/-- CSRW (R193): ra = xa, the CSR number in the immediate. The field g is the guard. -/
structure CW where
  g : Nat
  ra : Nat
  la : Bool
  csr : Nat
  deriving DecidableEq, Repr, Inhabited

/-- V word with vd, va and vb (Table 8.4); lv is LENDV (Table 8.5), 0 without a header. The field g is the guard. -/
structure V3 where
  g : Nat
  ty : Nat
  vd : Nat
  va : Nat
  vb : Nat
  la : Bool
  lb : Bool
  lv : Nat
  deriving DecidableEq, Repr, Inhabited

/-- Vector compare (R209): the vd field holds 2, 4 or 6. The field g is the guard. -/
structure VC where
  g : Nat
  ty : Nat
  vd : Nat
  va : Nat
  vb : Nat
  la : Bool
  lb : Bool
  lv : Nat
  deriving DecidableEq, Repr, Inhabited

/-- V word with vd and va; vb and lb are 0. The field g is the guard. -/
structure V2 where
  g : Nat
  ty : Nat
  vd : Nat
  va : Nat
  la : Bool
  lv : Nat
  deriving DecidableEq, Repr, Inhabited

/-- VCVT (R211): DT in [6:4], SAT in [3], ALT in [2]. The field g is the guard. -/
structure VCv where
  g : Nat
  ty : Nat
  vd : Nat
  va : Nat
  dt : Nat
  sat : Bool
  alt : Bool
  la : Bool
  lv : Nat
  deriving DecidableEq, Repr, Inhabited

/-- V word whose va field is an x register (VBCAST, VIDX). The field g is the guard. -/
structure VX where
  g : Nat
  ty : Nat
  vd : Nat
  xa : Nat
  lv : Nat
  deriving DecidableEq, Repr, Inhabited

/-- VINS (R213): va and vb fields are x registers. The field g is the guard. -/
structure VXX where
  g : Nat
  ty : Nat
  vd : Nat
  xa : Nat
  xb : Nat
  lv : Nat
  deriving DecidableEq, Repr, Inhabited

/-- VEXT (R213): the vd field is xd, the vb field xb. The field g is the guard. -/
structure VE where
  g : Nat
  ty : Nat
  xd : Nat
  va : Nat
  xb : Nat
  la : Bool
  lv : Nat
  deriving DecidableEq, Repr, Inhabited

/-- VROT and VSLIDE (R213): the vb field is an x register. The field g is the guard. -/
structure VAX where
  g : Nat
  ty : Nat
  vd : Nat
  va : Nat
  xb : Nat
  la : Bool
  lv : Nat
  deriving DecidableEq, Repr, Inhabited

/-- VLIMM (R216): a signed immediate of 10 bits in [11:2]. The field g is the guard. -/
structure VL where
  g : Nat
  ty : Nat
  vd : Nat
  imm : Nat
  lv : Nat
  deriving DecidableEq, Repr, Inhabited

/-- LD and ST (R221): width W and an offset of 8 bits, 16 with a header. The field g is the guard. -/
structure ML where
  g : Nat
  rd : Nat
  xa : Nat
  w : Nat
  off : Imm
  deriving DecidableEq, Repr, Inhabited

/-- VLD, VST, VLDS, VSTS, VGATH, VSCAT: vd of 6 bits and an offset of 11 bits, 18 with a header (R161). The field g is the guard. -/
structure MV where
  g : Nat
  vd : Nat
  xa : Nat
  off : Imm
  deriving DecidableEq, Repr, Inhabited

/-- Copy words (R226): rd, the base xa, the block offset of 5 bits, 13 with a header, and fn. The field g is the guard. -/
structure MC where
  g : Nat
  rd : Nat
  xa : Nat
  fn : Nat
  off : Imm
  deriving DecidableEq, Repr, Inhabited

/-- Message and request words: rd, xa, a length register xl, fn; n is the routing register of SENDR and RECVF (LENDM[1:0]). The
field g is the guard. -/
structure MS where
  g : Nat
  rd : Nat
  xa : Nat
  xl : Nat
  fn : Nat
  n : Nat
  deriving DecidableEq, Repr, Inhabited

/-- Words that name a flag alone. The field g is the guard. -/
structure MF where
  g : Nat
  fn : Nat
  deriving DecidableEq, Repr, Inhabited

/-- Words with one x register and a flag. The field g is the guard. -/
structure MXF where
  g : Nat
  rd : Nat
  fn : Nat
  deriving DecidableEq, Repr, Inhabited

/-- UNLEASE: one x register. The field g is the guard. -/
structure MX where
  g : Nat
  rd : Nat
  deriving DecidableEq, Repr, Inhabited

/-- MSTAT (R235): xd, the half h and the flag. The field g is the guard. -/
structure MSt where
  g : Nat
  rd : Nat
  h : Bool
  fn : Nat
  deriving DecidableEq, Repr, Inhabited

/-- ATOM and RED (R238, R239): rd = xv, xa (operand block or xs), operation, width bit, flag. The field g is the guard. -/
structure MA where
  g : Nat
  rd : Nat
  xa : Nat
  op : Nat
  w : Bool
  fn : Nat
  deriving DecidableEq, Repr, Inhabited

/-- FSHIP (R241): rd = xv, xa, fn and the routine r in LENDM[5:0]. The field g is the guard. -/
structure MFs where
  g : Nat
  rd : Nat
  xa : Nat
  fn : Nat
  r : Nat
  deriving DecidableEq, Repr, Inhabited

/-- QUERY: xa and fn. The field g is the guard. -/
structure MAF where
  g : Nat
  xa : Nat
  fn : Nat
  deriving DecidableEq, Repr, Inhabited

/-- TDSET (R253): N, xa, ER, EC and an offset of 9 bits, 17 with a header, in units of 32 bytes. The field g is the guard. -/
structure MTd where
  g : Nat
  n : Nat
  xa : Nat
  er : Bool
  ec : Bool
  off : Imm
  deriving DecidableEq, Repr, Inhabited

/-- MMA (Table 12.1). The field g is the guard. -/
structure MMm where
  g : Nat
  xc : Nat
  acc : Nat
  p : Nat
  q : Nat
  fn : Nat
  deriving DecidableEq, Repr, Inhabited

/-- MZERO (Table 12.1). The field g is the guard. -/
structure MZ where
  g : Nat
  acc : Nat
  mode : Bool
  deriving DecidableEq, Repr, Inhabited

/-- MLDACC and MSTACC (Table 12.1). The field g is the guard. -/
structure MTa where
  g : Nat
  xc : Nat
  acc : Nat
  t : Nat
  sat : Bool
  fn : Nat
  deriving DecidableEq, Repr, Inhabited

/-- MSEND (Table 12.1). The field g is the guard. -/
structure MMs where
  g : Nat
  xt : Nat
  acc : Nat
  n : Nat
  ty : Nat
  sat : Bool
  fn : Nat
  deriving DecidableEq, Repr, Inhabited

/-- FENCE.P (Table 5.2): TO mask in [7:4], FROM mask in [3:0]. The field g is the guard. -/
structure MFp where
  g : Nat
  tom : Nat
  frm : Nat
  deriving DecidableEq, Repr, Inhabited

/-- FENCE.S (Table 5.2): SCOPE in [2:0], at most 4. The field g is the guard. -/
structure MFs2 where
  g : Nat
  scope : Nat
  deriving DecidableEq, Repr, Inhabited

/-- A message on its way (Table 4.1). sid names the send at its sender, payload is there when the message is eager,
query marks the result message of a QUERY (R129), and retry counts the retries made (R80). -/
structure Msg where
  src : Nat
  dst : Nat
  group : Nat
  tag : Nat
  len : Nat
  seq : Nat
  proto : Nat
  mv : Nat
  pv : Nat
  job : Nat
  sid : Nat
  query : Bool
  retry : Nat
  payload : List Byte
  deriving DecidableEq, Repr, Inhabited

/-- An answer to a send (R79, R80): to the rank and job that sent it, about its operation sid and the copy for dst.
fin is false where the answer only settles the send. -/
structure Ack where
  rank : Nat
  job : Nat
  sid : Nat
  dst : Nat
  fin : Bool
  status : Nat
  fcode : Nat
  deriving DecidableEq, Repr, Inhabited

/-- A pull request (R77): the receiver (by, job, delivery did) asks the sender (rank, send sid) for want bytes, of which the sender's
engine has read those before done. -/
structure Pull where
  rank : Nat
  job : Nat
  sid : Nat
  dst : Nat
  want : Nat
  did : Nat
  done : Nat := 0
  deriving DecidableEq, Repr, Inhabited

/-- A release flit (R42, R124, R282). -/
structure Flit where
  vault : Nat
  rank : Nat
  plane : Nat
  number : Nat
  deriving DecidableEq, Repr, Inhabited

/-- The kind of a vault request (Table 6.1). Operation codes are those of Table 6.2; wide selects 16 bytes for an
ATOM and 8 bytes for a RED. -/
inductive VOp where
  | get
  | put
  | atom (op : Nat) (wide : Bool)
  | red (op : Nat) (wide : Bool)
  | redf (slot : Nat)
  | fship (r : Nat)
  | query
  deriving DecidableEq, Repr, Inhabited

/-- A vault request (Table 6.1) of the tile rank. flag is its flag, dst the tile-store address of its result, mv and pv the
vectors of R38, spec and number the mark of R123 and R282 with the awaited group and phase, mon a request of the
monitor (R288); part is the partition it is issued under; pkg, dpa, host and sysatom are its translation (R315 to
R321), vault the vault it visits and tries its RNR answers (R325); done counts the bytes of a GET or PUT that have been read or
written (R97). dpa is the place of byte base, and the translation holds for the bytes before upto: a GET or PUT that crosses a leaf
goes part by part (R315). -/
structure Req where
  id : Nat
  rank : Nat
  plane : Nat
  job : Nat
  part : Nat
  flag : Nat
  op : VOp
  va : Nat
  len : Nat
  a : Nat
  b : Nat
  data : List Byte
  dst : Nat
  mv : Nat
  pv : Nat
  spec : Bool
  number : Nat
  sgroup : Nat
  sphase : Nat
  mon : Bool
  pkg : Nat
  dpa : Nat
  host : Bool
  sysatom : Bool
  vault : Nat
  tries : Nat
  done : Nat := 0
  base : Nat := 0
  upto : Nat := 0
  deriving DecidableEq, Repr, Inhabited

/-- A reply or acknowledgement to a request: its status and fault code (Tables 4.4, 18.5), the bytes it carries, how
many bytes were written at the target, and the rank of the vault or host window that answered (R323). -/
structure Reply where
  req : Req
  status : Nat
  fcode : Nat
  data : List Byte
  done : Nat
  home : Nat
  deriving DecidableEq, Repr, Inhabited

/-- A hop or distance request of a graph search (R285): query qid of the home vault asks vault about node, or about
the nodes ids; an answer names home as its vault, and in src the vault that gave it. -/
structure QStep where
  home : Nat
  qid : Nat
  vault : Nat
  node : Nat
  ids : List Nat
  src : Nat := 0
  deriving DecidableEq, Repr, Inhabited

/-- A host AtomicOp to vault memory (R109): FetchAdd, Swap and CAS are op 0x0, 0x8 and 0x9 of Table 6.2, w is the
width in bytes. -/
structure HostAtom where
  pkg : Nat
  part : Nat
  va : Nat
  op : Nat
  w : Nat
  a : Nat
  b : Nat
  deriving DecidableEq, Repr, Inhabited

/-- A command of the command channel (R331): its package, TAG and operands A to D; old marks one fetched before the
rings were last re-initialised. -/
structure Cmd where
  pkg : Nat
  tag : Nat
  a : Nat
  b : Nat
  c : Nat
  d : Nat
  old : Bool
  deriving DecidableEq, Repr, Inhabited

/-- A LEASEQ or SLOTQ question (R245, R246): operation id on flag fn of a plane; slot is true for SLOTQ, and what is the
lease number or the peer package. -/
structure LmAsk where
  rank : Nat
  plane : Nat
  fn : Nat
  id : Nat
  slot : Bool
  what : Nat
  deriving DecidableEq, Repr, Inhabited

/-- The lend header (Table 8.1). -/
structure Lend where
  hs : Bool
  hv : Bool
  hm : Bool
  y : Bool
  ls : Nat
  lv : Nat
  lm : Nat
  deriving DecidableEq, Repr, Inhabited

/-- The instructions and steps: one constructor per row of spec/opcode_table.json, in the order of the table but for a few
steps that come from outside alone, which stand last. -/
inductive Instr where
  /-- ADD (R179). Writes the 64-bit sum of xa and xb, modulo 2^64, to xd. -/
  | add (f : R3)
  /-- SUB (R179). Writes xa minus xb, modulo 2^64, to xd. -/
  | sub (f : R3)
  /-- AND (R179). Writes the bitwise AND of xa and xb to xd. -/
  | and (f : R3)
  /-- OR (R179). Writes the bitwise OR of xa and xb to xd. -/
  | or (f : R3)
  /-- XOR (R179). Writes the bitwise XOR of xa and xb to xd. -/
  | xor (f : R3)
  /-- SHL (R179). Shifts xa left by xb[5:0] and writes the result to xd. -/
  | shl (f : R3)
  /-- SHR (R179). Shifts xa right by xb[5:0] with zero fill and writes the result to xd. -/
  | shr (f : R3)
  /-- SRA (R179). Shifts xa right by xb[5:0] with sign fill and writes the result to xd. -/
  | sra (f : R3)
  /-- MUL (R179). Writes the low 64 bits of the signed product of xa and xb to xd. -/
  | mul (f : R3)
  /-- MULH (R179). Writes the high 64 bits of the signed 128-bit product to xd. -/
  | mulh (f : R3)
  /-- MULHN (R179). Writes the high 64 bits of the unsigned 128-bit product to xd. -/
  | mulhn (f : R3)
  /-- DIV (R179). Writes the signed quotient of xa and xb, rounded towards zero, to xd, with the division by
    zero cases of R60. -/
  | div (f : R3)
  /-- DIVN (R179). Writes the unsigned quotient of xa and xb to xd. -/
  | divn (f : R3)
  /-- REM (R179). Writes the signed remainder of xa and xb to xd. -/
  | rem (f : R3)
  /-- REMN (R179). Writes the unsigned remainder of xa and xb to xd. -/
  | remn (f : R3)
  /-- MIN (R179). Writes the signed minimum of xa and xb to xd. -/
  | min (f : R3)
  /-- MAX (R179). Writes the signed maximum of xa and xb to xd. -/
  | max (f : R3)
  /-- MINN (R179). Writes the unsigned minimum of xa and xb to xd. -/
  | minn (f : R3)
  /-- MAXN (R179). Writes the unsigned maximum of xa and xb to xd. -/
  | maxn (f : R3)
  /-- CLZ (R179). Writes the count of leading zero bits of xa to xd. -/
  | clz (f : R2)
  /-- POPC (R179). Writes the count of one bits of xa to xd. -/
  | popc (f : R2)
  /-- SEL (R180). Writes xa to xd when predicate pa is true and xb otherwise, reading both sources. -/
  | sel (f : RSel)
  /-- YIELD (R188). Waits until every earlier word has completed, declares the clk count until the next YIELD
    or EXIT, and lets the arbiter switch planes. -/
  | yield (f : IU)
  /-- ADDI (R181). Writes xa plus the sign-extended immediate to xd. -/
  | addi (f : I3)
  /-- ANDI (R181). Writes xa AND the sign-extended immediate to xd. -/
  | andi (f : I3)
  /-- ORI (R181). Writes xa OR the sign-extended immediate to xd. -/
  | ori (f : I3)
  /-- XORI (R181). Writes xa XOR the sign-extended immediate to xd. -/
  | xori (f : I3)
  /-- SHLI (R181). Shifts xa left by an immediate count from 0 to 63. -/
  | shli (f : I3)
  /-- SHRI (R181). Shifts xa right with zero fill by an immediate count. -/
  | shri (f : I3)
  /-- SRAI (R181). Shifts xa right with sign fill by an immediate count. -/
  | srai (f : I3)
  /-- LIMM (R181). Writes the zero-extended immediate to xd. -/
  | limm (f : ID)
  /-- LIMMS (R181). Writes xa shifted left by 16 and ORed with a 16-bit immediate to xd. -/
  | limms (f : I3)
  /-- CMP_EQ (R182). Writes xa = xb to the even predicate pd and its complement to pd + 1. -/
  | cmpEq (f : R3)
  /-- CMP_LT (R182). Writes the signed compare xa < xb to a predicate pair. -/
  | cmpLt (f : R3)
  /-- CMP_LTN (R182). Writes the unsigned compare xa < xb to a predicate pair. -/
  | cmpLtn (f : R3)
  /-- CMP_LE (R182). Writes the signed compare xa <= xb to a predicate pair. -/
  | cmpLe (f : R3)
  /-- CMP_LEN (R182). Writes the unsigned compare xa <= xb to a predicate pair. -/
  | cmpLen (f : R3)
  /-- CMPI_EQ (R182). Writes xa equal to the sign-extended immediate to a predicate pair. -/
  | cmpiEq (f : I3)
  /-- CMPI_LT (R182). Writes the signed compare of xa below the immediate to a predicate pair. -/
  | cmpiLt (f : I3)
  /-- CMPI_LE (R182). Writes the signed compare of xa at most the immediate to a predicate pair. -/
  | cmpiLe (f : I3)
  /-- PAND (R183). Writes pa AND pb to pd alone. -/
  | pand (f : P3)
  /-- POR (R183). Writes pa OR pb to pd alone. -/
  | por (f : P3)
  /-- PXOR (R183). Writes pa XOR pb to pd alone. -/
  | pxor (f : P3)
  /-- PMOV (R183). Copies pa to pd. -/
  | pmov (f : P2)
  /-- IXSET (R184). Sets index register in to a signed 8-bit immediate. -/
  | ixset (f : IX)
  /-- IXADD (R184). Adds a signed immediate to index register in, wrapping modulo 2^8. -/
  | ixadd (f : IX)
  /-- IXGET (R184). Writes the sign-extended index register to xd. -/
  | ixget (f : IXG)
  /-- BR (R185). Branches to the bundle at a signed word offset from the branch bundle, trapping FETCHEND for
    a target outside the plane. -/
  | br (f : SB)
  /-- BRI (R185). Branches to the plane offset held in xa. -/
  | bri (f : RA)
  /-- CALL (R187). Pushes the return address, spilling the oldest hardware entry when 16 are held, and
    branches. -/
  | call (f : SB)
  /-- RET (R187). Pops the return address, refilling from the spill region when the hardware stack is empty,
    and branches to it. -/
  | ret (f : G0)
  /-- LOOP (R186). Decrements xd and branches when the result is nonzero. -/
  | loop (f : ID)
  /-- EXIT (R189). Ends the task; its bundle completes only when the conditions of R30 hold. -/
  | exit (f : G0)
  /-- ARRIVE (R191). Signals arrival at the current phase of barrier group bn and inverts the phase bit; the
    signal leaves when R37 allows. -/
  | arrive (f : GB)
  /-- WAIT (R191). Stalls until the tree completes the phase of the latest ARRIVE, or opens a speculation when
    SPEC is on. -/
  | wait (f : GB)
  /-- WAITF (R192). Stalls until flag fn is set, acts as an acquire, and traps on a faulted engine, vault or
    matrix record. -/
  | waitf (f : GF)
  /-- HBEAT (R190). Resets the plane's heartbeat counter to zero. -/
  | hbeat (f : G0)
  /-- CSRR (R193). Reads a CSR into xd, trapping ILLEGAL or PRIV for unassigned or privileged numbers. -/
  | csrr (f : CR)
  /-- CSRW (R193). Writes xa to a CSR field by field, for every later word in program order. -/
  | csrw (f : CW)
  /-- TRAP (R196). Traps TRAPI with the immediate, going to the user handler or the monitor. -/
  | trap (f : IU)
  /-- MONCALL (R196). Traps MONCALL to the monitor, which services the call number of R295. -/
  | moncall (f : IU)
  /-- TRET (R296). Leaves the monitor according to MEND.ACT: resumes at MTPC, ends the task, or suspends it.
    -/
  | tret (f : G0)
  /-- PLANESW (R296). Exchanges the current MTPC with the other plane's resume point when that plane is
    resident or holds a swap token. -/
  | planesw (f : G0)
  /-- CTXSAVE (R297). Waits as FENCEALL, then writes the context, engine and matching records and optionally
    the tile-store image to the spill area. -/
  | ctxsave (f : RA)
  /-- CTXLOAD (R296). Restores the saved records and image into the plane and re-queues unstarted entries, or
    reports BADCTX on a size mismatch. -/
  | ctxload (f : RA)
  /-- TLBINV (R327). Drops tile and die translation entries covering a virtual range of the partition and
    waits for requests they translated. -/
  | tlbinv (f : RAB)
  /-- FENCEALL (R296). Stalls until every started engine command, pull, vault request and eager read of the
    plane has completed. -/
  | fenceall (f : G0)
  /-- DIVERT (R296). Diverts every later arrival for the plane's task to the spill queue. -/
  | divert (f : RA)
  /-- RESUME (R299). Redelivers the spill queue in arrival order and ends diversion when the queue empties. -/
  | resume (f : RA)
  /-- LEND_HEADER (R154). Frames a bundle, lending bits to its slot words and carrying the Y bit; with an
    empty mask it is one empty bundle. -/
  | lendHeader (h : Lend)
  /-- IDLE_HEADER (R155). Stands for N + 1 empty bundles taking N + 1 dispatch clk, cut short by a due trap,
    pre-emption or plane switch. -/
  | idleHeader (y : Bool) (n : Nat)
  /-- VADD (R204). Adds va and vb element by element under the lane predicate. -/
  | vadd (f : V3)
  /-- VSUB (R204). Subtracts vb from va element by element. -/
  | vsub (f : V3)
  /-- VMUL (R204). Multiplies va by vb element by element. -/
  | vmul (f : V3)
  /-- VFMA (R204). Computes a × b + d with one rounding per element. -/
  | vfma (f : V3)
  /-- VFMS (R204). Computes d − a × b with one rounding per element. -/
  | vfms (f : V3)
  /-- VMIN (R205). Writes the element-wise minimum, with the NaN and signed-zero rules of R205. -/
  | vmin (f : V3)
  /-- VMAX (R205). Writes the element-wise maximum, with the NaN and signed-zero rules of R205. -/
  | vmax (f : V3)
  /-- VMINN (R204). Writes the unsigned element-wise minimum. -/
  | vminn (f : V3)
  /-- VMAXN (R204). Writes the unsigned element-wise maximum. -/
  | vmaxn (f : V3)
  /-- VABS (R204). Writes the absolute value of each element, clearing the sign bit for floating types. -/
  | vabs (f : V2)
  /-- VNEG (R204). Negates each element, inverting the sign bit for floating types. -/
  | vneg (f : V2)
  /-- VDIV (R206). Divides va by vb, correctly rounded. -/
  | vdiv (f : V3)
  /-- VSQRT (R206). Writes the correctly rounded square root of each element. -/
  | vsqrt (f : V2)
  /-- VRCP (R206). Writes the correctly rounded reciprocal of each element. -/
  | vrcp (f : V2)
  /-- VRSQ (R206). Writes the correctly rounded reciprocal square root of each element. -/
  | vrsq (f : V2)
  /-- VEXP2 (R207). Computes 2^x of each element by the algorithm of R64. -/
  | vexp2 (f : V2)
  /-- VAND (R208). Writes the bitwise AND of each element. -/
  | vand (f : V3)
  /-- VOR (R208). Writes the bitwise OR of each element. -/
  | vor (f : V3)
  /-- VXOR (R208). Writes the bitwise XOR of each element. -/
  | vxor (f : V3)
  /-- VSHL (R208). Shifts each integer element left by the count in vb. -/
  | vshl (f : V3)
  /-- VSHR (R208). Shifts each integer element right with zero fill. -/
  | vshr (f : V3)
  /-- VSRA (R208). Shifts each integer element right with sign fill. -/
  | vsra (f : V3)
  /-- VCMP_EQ (R209). Writes element equality to a lane predicate pair, clearing inactive elements. -/
  | vcmpEq (f : VC)
  /-- VCMP_LT (R209). Writes the element compare a < b to a lane predicate pair. -/
  | vcmpLt (f : VC)
  /-- VCMP_LE (R209). Writes the element compare a <= b to a lane predicate pair. -/
  | vcmpLe (f : VC)
  /-- VCMP_LTN (R209). Writes the unsigned element compare a < b to a lane predicate pair. -/
  | vcmpLtn (f : VC)
  /-- VCMP_UN (R209). Writes whether either element is NaN to a lane predicate pair. -/
  | vcmpUn (f : VC)
  /-- VSEL (R210). Selects each element from va or vb by lane predicate qs, writing every element. -/
  | vsel (f : V3)
  /-- VCVT (R211). Converts elements to the destination type under R61, with optional saturation and
    stochastic or unsigned options. -/
  | vcvt (f : VCv)
  /-- VMOV (R213). Copies the active elements of va to vd. -/
  | vmov (f : V2)
  /-- VBCAST (R213). Writes the low bits of scalar xa to every active element. -/
  | vbcast (f : VX)
  /-- VINS (R213). Inserts xa into element xb mod N of vd. -/
  | vins (f : VXX)
  /-- VEXT (R213). Extracts element xb mod N of va into scalar xd. -/
  | vext (f : VE)
  /-- VPERM (R213). Permutes va by the indices in vb. -/
  | vperm (f : V3)
  /-- VSHUF2 (R213). Selects from va or vb by the indices held in the old vd. -/
  | vshuf2 (f : V3)
  /-- VROT (R213). Rotates the elements of va by scalar xb. -/
  | vrot (f : VAX)
  /-- VSLIDE (R213). Slides the elements of va by a signed scalar distance, filling with zero. -/
  | vslide (f : VAX)
  /-- VREDADD (R214). Sums the contributing lanes in the fixed tree of R65 into bytes 0 to 3 of vd. -/
  | vredadd (f : V2)
  /-- VREDMAX (R214). Reduces the contributing lanes by maximum in the fixed tree. -/
  | vredmax (f : V2)
  /-- VREDMIN (R214). Reduces the contributing lanes by minimum in the fixed tree. -/
  | vredmin (f : V2)
  /-- VDOT4 (R215). Accumulates four-element dot products of va and vb into 32 four-byte elements of vd. -/
  | vdot4 (f : V3)
  /-- VIDX (R216). Writes xa + j to each active element j. -/
  | vidx (f : VX)
  /-- VCLASS (R216). Writes the class code of each floating element. -/
  | vclass (f : V2)
  /-- VPOPC (R216). Writes the count of one bits of each element. -/
  | vpopc (f : V2)
  /-- VLIMM (R216). Writes a signed 10-bit immediate, in the element type, to each active element. -/
  | vlimm (f : VL)
  /-- LD (R221). Loads 1 to 8 bytes of tile store into xd, zero- or sign-extended. -/
  | ld (f : ML)
  /-- ST (R221). Stores 1 to 8 bytes of xs into tile store. -/
  | st (f : ML)
  /-- VLD (R222). Loads 128 bytes of tile store into a vector register. -/
  | vld (f : MV)
  /-- VST (R222). Stores a vector register to 128 bytes of tile store. -/
  | vst (f : MV)
  /-- VLDS (R223). Loads eight 16-byte granules spaced by a stride into a vector register. -/
  | vlds (f : MV)
  /-- VSTS (R223). Stores eight 16-byte granules of a vector register at a stride. -/
  | vsts (f : MV)
  /-- VGATH (R224). Gathers 32 four-byte elements at the addresses indexed by v(vd+1). -/
  | vgath (f : MV)
  /-- VSCAT (R224). Scatters 32 four-byte elements to the addresses indexed by v(vs+1). -/
  | vscat (f : MV)
  /-- COPY (R226). Submits a copy into tile store described by a 64-byte parameter block to a copy channel. -/
  | copy (f : MC)
  /-- COPYM (R227). Submits a copy with a follow-on MMA that issues when the copy completes. -/
  | copym (f : MC)
  /-- COPYQ (R228). Submits a copy that starts only once flag fk is set. -/
  | copyq (f : MC)
  /-- COPYX (R226). Submits a copy whose destination is vault or host memory. -/
  | copyx (f : MC)
  /-- SEND (R231). Sends a message from a tile-store buffer to the rank, group and tag of an envelope. -/
  | send (f : MS)
  /-- SENDR (R231). Sends a message to the rank and group in ROUTEn with the tag in xt. -/
  | sendr (f : MS)
  /-- SENDM (R85). Sends one eager message to every member of a group except the sender. -/
  | sendm (f : MS)
  /-- RECV (R232). Posts a receive with a match filter, matching the unexpected queue first. -/
  | recv (f : MS)
  /-- RECVF (R86). Posts a receive that also forwards each landed line to the rank in ROUTEn. -/
  | recvf (f : MS)
  /-- RCANCEL (R83). Cancels the receive bound to fn when it is still posted. -/
  | rcancel (f : MF)
  /-- PROBE (R234). Reports the first admitted unexpected message that fits a filter without changing any
    queue. -/
  | probe (f : MXF)
  /-- MSTAT (R235). Reads half of a flag's status record into xd, stalling while the flag is bound. -/
  | mstat (f : MSt)
  /-- GET (R237). Reads 1 to 256 bytes of vault or host memory into tile store. -/
  | get (f : MS)
  /-- PUT (R237). Writes 1 to 256 bytes of tile store to vault or host memory. -/
  | put (f : MS)
  /-- ATOM (R238). Performs an atomic operation of Table 6.2 at a vault address and returns the old value to
    the operand block. -/
  | atom (f : MA)
  /-- RED (R239). Applies an integer reduction operation at a vault address without returning a value. -/
  | red (f : MA)
  /-- REDF (R240). Writes an f32 value to one slot of a reduction object. -/
  | redf (f : MS)
  /-- FSHIP (R241). Calls a vault routine on a 64-byte line with two operands and receives a 16-byte reply. -/
  | fship (f : MFs)
  /-- QUERY (R242). Starts a graph search described by a query block at the home vault of its first shard. -/
  | query (f : MAF)
  /-- TDSET (R257). Loads and validates a tensor descriptor, clipping to edge masks and copying a CB2 lattice
    table. -/
  | tdset (f : MTd)
  /-- MMA (R259). Queues 1 to 16 matrix steps on an accumulator from two descriptors. -/
  | mma (f : MMm)
  /-- MZERO (R258). Zeroes an accumulator and sets its mode in matrix order. -/
  | mzero (f : MZ)
  /-- MLDACC (R262). Queues a load of a 32 × 32 block of a tensor into an accumulator. -/
  | mldacc (f : MTa)
  /-- MSTACC (R263). Queues a store of an accumulator into a tensor block with RNE conversion. -/
  | mstacc (f : MTa)
  /-- MSEND (R264). Queues a send of an accumulator's converted snapshot as a message to ROUTEn. -/
  | msend (f : MMs)
  /-- FENCE_P (R94). Stalls the M queue until the accesses of the FROM paths are done, ordering them before
    the TO paths. -/
  | fenceP (f : MFp)
  /-- FENCE_S (R103). Stalls the M queue until every earlier operation to a target within the scope is
    performed. -/
  | fenceS (f : MFs2)
  /-- LEASE (R243). Sends a lease request for lanes to a peer to the package's lane manager. -/
  | lease (f : MXF)
  /-- UNLEASE (R244). Ends a lease of the task's job, returning its lanes. -/
  | unlease (f : MX)
  /-- LEASEQ (R245). Asks the lane manager for a lease's lanes and remaining time. -/
  | leaseq (f : MXF)
  /-- SLOTQ (R246). Asks the lane manager about the slots or lanes serving a peer package. -/
  | slotq (f : MXF)
  /-- FLCLR (R247). Clears a flag without changing its status record. -/
  | flclr (f : MF)
  /-- FLSET (R247). Sets a flag without changing its status record, releasing waiters. -/
  | flset (f : MF)
  /-- MONITOR_WATCHDOG_EXPIRY (R289). The monitor watchdog reaching 2^22 clk is a monitor fault. -/
  | monitorWatchdogExpiry (rank : Nat)
  /-- HBMISS (R35). The heartbeat counter reaching HBIV fences the tile, traps the running task and ends its
    companion. -/
  | hbmiss (rank : Nat)
  /-- DUAL_TIMEOUT (R46). One tile of a DUAL pair not issuing its partner's operation within 4,096 clk traps
    DUALMISMATCH in both. -/
  | dualTimeout (rank plane : Nat)
  /-- MESSAGE_ARRIVAL (R76). An arriving message header is stored, admitted in stream order and matched,
    tilled, stubbed or refused. -/
  | messageArrival (m : Msg)
  /-- REFUSAL_ARRIVAL (R80). A refusal reaching the sender schedules the next retry with back-off. -/
  | refusalArrival (a : Ack)
  /-- SEND_RETRY (R80). A back-off expiry resends a refused message, or after RETRYLIM retries completes
    OVERRUN and sends an abandon. -/
  | sendRetry (a : Ack)
  /-- ABANDON (R80). An abandon header marks a sequence number abandoned so later messages of the stream are
    admitted. -/
  | abandon (m : Msg)
  /-- PULL_REQUEST (R77). A receiver's pull request makes the sender read and transmit a stubbed or rendezvous
    payload. -/
  | pullRequest (p : Pull)
  /-- DELIVERY_COMPLETE (R77). The last delivered byte of a matched message landing completes the receive and
    writes its record. -/
  | deliveryComplete (rank plane did : Nat)
  /-- SEND_ACKNOWLEDGEMENT (R79). A placement acknowledgement reaching the sender settles the send and sets
    its flag per Table 4.2. -/
  | sendAcknowledgement (a : Ack)
  /-- DISCARD_NOTICE (R79). A discard notice completes a stubbed or rendezvous send CANCELLED with DLEN 0. -/
  | discardNotice (a : Ack)
  /-- FENCE_NOTICE (R84). A fence notice completes sends and receives naming the fenced tile PEERDOWN and
    releases its barrier groups. -/
  | fenceNotice (fenced tile : Nat)
  /-- ARRIVE_SIGNAL_RELEASE (R37). An ARRIVE's signal leaves the tile once its earlier sends settle and
    acknowledgements return. -/
  | arriveSignalRelease (rank plane : Nat)
  /-- BARRIER_PHASE_COMPLETE (R36). The barrier tree completes a phase when every member has signalled,
    releasing WAITs. -/
  | barrierPhaseComplete (launch group : Nat)
  /-- CONFLICT_NOTICE (R42). A conflict notice or old-phase delivery into a tracked granule rolls back the
    open speculation. -/
  | conflictNotice (rank plane number : Nat)
  /-- ESCROW_DRAIN_END (R44). After the drain ends, shadows become accumulators, held sends are released and
    release flits go out. -/
  | escrowDrainEnd (rank plane : Nat)
  /-- RELEASE_FLIT (R124). A release flit frees a reader's filter entries of its speculation number and
    releases withheld acknowledgements. -/
  | releaseFlit (f : Flit)
  /-- RELEASE_FLIT_ACK (R282). A vault's acknowledgement of a release flit ends the use of a speculation
    number. -/
  | releaseFlitAck (f : Flit)
  /-- VAULT_GET (R112). A vault reads the requested bytes in vault order and replies, entering marked reads in
    its filter. -/
  | vaultGet (r : Req)
  /-- VAULT_PUT (R112). A vault writes the bytes and acknowledges, sending a conflict notice for old-phase
    writes. -/
  | vaultPut (r : Req)
  /-- VAULT_ATOM (R114). A vault's atomics unit reads, updates and writes a location as one step and returns
    the old value. -/
  | vaultAtom (r : Req)
  /-- VAULT_RED (R116). A vault applies an integer reduction and acknowledges. -/
  | vaultRed (r : Req)
  /-- VAULT_REDF (R117). A vault writes a reduction slot, sets its WRITTEN bit and marks the object dirty. -/
  | vaultRedf (r : Req)
  /-- VAULT_FSHIP (R119). A vault runs a routine against a line as one indivisible step and replies with old
    and T. -/
  | vaultFship (r : Req)
  /-- VAULT_QUERY (R125). A home vault accepts a query, reads shard headers and pulls the query vector, or
    answers RNR when full. -/
  | vaultQuery (r : Req)
  /-- HOP_REQUEST (R285). A vault returns the degree and neighbour ids of a node it holds. -/
  | hopRequest (q : QStep)
  /-- DISTANCE_REQUEST (R285). A vault computes the distances of listed nodes it holds and returns them. -/
  | distanceRequest (q : QStep)
  /-- QUERY_SEARCH_END (R129). The home vault merges shard results and sends one eager result message to the
    issuing task. -/
  | querySearchEnd (home qid : Nat)
  /-- VAULT_REPLY (R237). A vault reply or acknowledgement reaching the tile writes any data and completes the
    request's flag. -/
  | vaultReply (p : Reply)
  /-- RNR_RETRY (R325). After an RNR answer the message engine retries the request after an exponential back-
    off. -/
  | rnrRetry (r : Req)
  /-- HOST_ATOMIC (R109). A host PCIe AtomicOp to vault memory is performed as one step in the vault order. -/
  | hostAtomic (h : HostAtom)
  /-- HOST_COMPLETION_TIMEOUT (R321). A PCIe completion error or timeout faults the host request with HOSTERR.
    -/
  | hostCompletionTimeout (r : Req)
  /-- PAGE_WALK_END (R318). A page walk installs its leaf in the TLB or faults the request with NOMAP or
    WALKERR. -/
  | pageWalkEnd (r : Req)
  /-- COPY_START (R122). A channel starts its next accepted command once the previous completes or its fk is
    set, opening the window. -/
  | copyStart (rank plane ch : Nat)
  /-- COPY_COMPLETE (R226). A copy completes, sets its flag, issues any follow-on MMA and performs any ARRIVE.
    -/
  | copyComplete (rank plane ch : Nat)
  /-- MMA_STEP (R68). One matrix step is computed and residue-checked, repeated once on mismatch or ending the
    MMA with MRES. -/
  | mmaStep (rank plane bad : Nat)
  /-- MATRIX_OP_COMPLETE (R261). A matrix instruction finishes, ORs its flags into FFLAGS, writes its record
    and sets its flag. -/
  | matrixOpComplete (rank plane : Nat)
  /-- MSEND_SNAPSHOT (R264). An MSEND converts the accumulator into its send stage, after which the message is
    sent. -/
  | msendSnapshot (rank plane : Nat)
  /-- PREEMPT_INTERRUPT (R298). An interrupt message from the scheduler marks a pre-emption pending, forcing
    rollback of an open speculation. -/
  | preemptInterrupt (rank plane : Nat)
  /-- PREEMPT (R298). The tile takes PREEMPT at the next bundle boundary and enters the monitor for the named
    plane. -/
  | preempt (rank : Nat)
  /-- CANCEL_INTERRUPT (R313). A cancel interrupt halts the launch's task at the next bundle boundary and ends
    it with END 0x2. -/
  | cancelInterrupt (rank plane launch : Nat)
  /-- SPILL_HEAD_READMIT (R299). The head spill-queue entry is admitted again when till lines or a stub free
    or a receive is posted. -/
  | spillHeadReadmit (rank plane : Nat)
  /-- TASK_END (R30). When EXIT's conditions hold the task ends, discarding till and stubs and writing its
    status record. -/
  | taskEnd (rank plane : Nat)
  /-- PLANE_FREE (R296). A draining plane is freed once its started commands and pending pulls have ended. -/
  | planeFree (rank plane : Nat)
  /-- PLACEMENT_DECISION (R307). A free plane and a waiting launch cause a placement decision by rank, round
    robin or lottery. -/
  | placementDecision (pkg die : Nat)
  /-- LOAD_COMPLETE (R301). The loader finishes writing a plane and sets its swap token, making it ready. -/
  | loadComplete (rank plane : Nat)
  /-- WINDOW_START (R310). WREM reaching zero starts a new window and ages passed-over planes. -/
  | windowStart (rank : Nat)
  /-- GRAPH_NODE_EVAL (R304). The walker evaluates a ready node, enqueuing a launch or reading a condition and
    signalling successors. -/
  | graphNodeEval (pkg graph : Nat)
  /-- LEASE_SERVE (R142). The lane manager serves a lease request in turn, retuning donor lanes to the target
    position. -/
  | leaseServe (pkg : Nat)
  /-- LEASE_RETUNE_END (R142). The last retune of a lease ending sets the lease's flag. -/
  | leaseRetuneEnd (pkg lease : Nat)
  /-- LEASE_EXPIRY (R144). At the end of its duration a lease's lanes return to their default positions. -/
  | leaseExpiry (pkg lease : Nat)
  /-- LEASE_REVOCATION (R144). A donor queue at or above LTHRESH for 50 µs takes back the lanes of the newest
    lease holding them. -/
  | leaseRevocation (pkg donor : Nat)
  /-- SLOT_START (R146). At a slot's start its lanes retune during the guard and then carry the destination's
    queue. -/
  | slotStart (pkg slot : Nat)
  /-- MODE_SWITCH (R148). At a rotation boundary with PEND set the lane manager enters or leaves slotted mode.
    -/
  | modeSwitch (pkg : Nat)
  /-- POD_TIME_BEACON (R148). Sideband beacons every 1 µs keep the lane managers' pod time aligned within 20
    ns. -/
  | podTimeBeacon (pkg ns : Nat)
  /-- CRC_REPLAY (R136). A flit failing its CRC is replayed from the sender's buffer, and a threshold may
    fence the lane. -/
  | crcReplay (pkg lane : Nat)
  /-- TRANSPORT_ABANDON (R150). The Ultra Ethernet transport abandoning a packet completes the transfer FAULT
    LINKERR at both ends. -/
  | transportAbandon (a : Ack)
  /-- REFRESH_TAKEOVER (R132). Four missed core heartbeats switch the channel controllers to autonomous
    refresh and raise SMCDOWN. -/
  | refreshTakeover (pkg stack : Nat)
  /-- SMC_RESTART (R334). The SCP restarts a stopped stack management core from its image within 10 ms. -/
  | smcRestart (pkg stack : Nat) (ok : Bool)
  /-- SMCUP (R334). After 16 consecutive beats refresh returns to the core and SMCDOWN clears. -/
  | smcup (pkg stack : Nat)
  /-- REFRESH_SPLIT (R133). A postponement count of 8 splits the burst to issue a refresh, then resumes the
    burst. -/
  | refreshSplit (vault : Nat)
  /-- PAGE_MOVE (R324). The stack management core starts exchanging a hot and a cold page, setting MOVING. -/
  | pageMove (pkg hot cold : Nat)
  /-- PAGE_MOVE_END (R324). The exchange rewrites the slice entries and frame tags and clears MOVING. -/
  | pageMoveEnd (pkg hot cold : Nat)
  /-- FIELD_TEST (R338). An idle unit is tested, resetting TESTAGE or fencing it on failure. -/
  | fieldTest (pkg entry : Nat) (pass : Bool)
  /-- SPARE_REPAIR (R341). At the column's launch boundary a fenced tile's column shifts onto the spare. -/
  | spareRepair (pkg entry : Nat)
  /-- POWER_ON (R333). Power-on runs the bring-up steps to READY or records the failing step. -/
  | powerOn (pkg failStep code : Nat)
  /-- SCANCEL_WRITE (R313). A monitor write of SCANCEL cancels the named level of its own task, or records
    BADCANCEL. value holds the word written and, from bit 64 on, the number of that task's launch. -/
  | scancelWrite (rank value : Nat)
  /-- TXVAL_WRITE (R290). A monitor write of TXVAL writes the scalar register named by TXIDX in the task's
    plane. -/
  | txvalWrite (rank value : Nat)
  /-- WATERMARK_ADVANCE (R96). A running copy delivers its next bytes in ascending order and advances WMARKk,
    releasing accesses stalled behind the watermark. -/
  | watermarkAdvance (rank plane ch : Nat)
  /-- PAYLOAD_LINE_LANDS (R77). A line of a matched message's payload lands in the receive buffer, becoming
    visible per granule and being forwarded onward by a RECVF. -/
  | payloadLineLands (rank plane did : Nat)
  /-- HOST_WINDOW_REQUEST (R321). A device request reaching a host window endpoint is issued by the Dwesum
    adapter as a PCIe read, write or AtomicOp. -/
  | hostWindowRequest (r : Req)
  /-- PCIE_COMPLETION (R107). A successful PCIe completion lets the adapter return the read data or the
    acknowledgement of a globally visible write to the tile. -/
  | pcieCompletion (r : Req)
  /-- LANE_MANAGER_ANSWER (R245). The lane manager's answer to a LEASEQ or SLOTQ reaches the tile, writes the
    flag's record and sets the flag. -/
  | laneManagerAnswer (l : LmAsk)
  /-- LIMIT_WINDOW_END (R339). At each whole hour or second of pod time, the per-window counts checked against
    RESLIM, MEMLIM and CRCLIM restart. -/
  | limitWindowEnd (pkg : Nat) (hour : Bool)
  /-- JOBRUN (R303). Starts a job from its record on a partition, answering OK, BADJOB, BUSY or NOPART. -/
  | jobrun (c : Cmd)
  /-- COUNTQ (R312). Returns the count and status of a launch, graph, phase or job counter. -/
  | countq (c : Cmd)
  /-- CANCEL (R313). Cancels a launch, graph, phase or job from the host. -/
  | cancel (c : Cmd)
  /-- RESYNC (R335). Writes a 4 KiB snapshot summary of the package to host memory. -/
  | resync (c : Cmd)
  /-- TLBINV_COMMAND (R327). Starts the TLBINV invalidation for a partition and range from the host. -/
  | tlbinvCommand (c : Cmd)
  /-- PARTSET (R328). Writes a PARTn register, refused with BADPART or BUSY under R328. -/
  | partset (c : Cmd)
  /-- CFGRD (R330). Returns the 64-bit value of a configuration register address. -/
  | cfgrd (c : Cmd)
  /-- CFGWR (R330). Writes a configuration register field by field, subject to the refusals of R328 and R329.
    -/
  | cfgwr (c : Cmd)
  /-- HEALTHRD (R337). Writes a range of health-table entries to host memory. -/
  | healthrd (c : Cmd)
  /-- BBREAD (R336). Writes a range of black-box records to host memory. -/
  | bbread (c : Cmd)
  /-- TESTNOW (R338). Queues a field test of a unit at once. -/
  | testnow (c : Cmd)
  /-- FENCE (R339). Fences a unit with reason HOST. -/
  | fence (c : Cmd)
  /-- RESET (R333). Restarts the package at step 1 of bring-up. -/
  | reset (c : Cmd)
  /-- SLOTTED_SET (R148). A write setting LMCTL.SLOTTED sets PEND for entry into slotted mode at SLOTSTART or
    the next boundary, or is refused with BADSLOT. -/
  | slottedSet (pkg value : Nat)
  /-- SLOTTED_CLEAR (R148). A write clearing LMCTL.SLOTTED sets PEND for a return to default mode, or cancels
    a pending entry. -/
  | slottedClear (pkg value : Nat)
  /-- SLOT_TABLE_WRITE (R149). A write to the slot table or GUARD takes effect at the next rotation boundary,
    or is ignored with BADSLOT. -/
  | slotTableWrite (pkg n value : Nat)
  /-- RANGE_ENTRY_WRITE (R316). A write of a range entry's low half invalidates overlapping tile and TLB
    entries and takes effect. -/
  | rangeEntryWrite (pkg p n value : Nat)
  /-- ROUTINE_ENTRY_WRITE (R118). A write of a routine header word checks the entry and stores it with VALID 0
    if it is bad. -/
  | routineEntryWrite (pkg vault word value : Nat)
  /-- PTROOT_WRITE (R329). A write to PTROOTp is refused BUSY while the partition has an active job. -/
  | ptrootWrite (pkg p value : Nat)
  /-- REPLACE_CLEAR (R333). A CFGWR of 1 to DEVST bit 1 clears REPLACE_REQUESTED when no condition of R343
    holds. -/
  | replaceClear (pkg : Nat)
  /-- PLIMIT_WRITE (R344). A write to PLIMIT stores the value clamped to 1,200 to 2,300 W. -/
  | plimitWrite (pkg value : Nat)
  /-- LSEED_WRITE (R307). A write to LSEED stores the value, storing 1 for zero. -/
  | lseedWrite (pkg die value : Nat)
  /-- SRSEED_WRITE (R63). A CSRW of SRSEED loads the generator state, with zero loading 1. -/
  | srseedWrite (rank plane value : Nat)
  /-- REGISTER_WRITE (R6). A write to a register with no behaviour of its own updates its RW fields under R6
    and R7. -/
  | registerWrite (pkg addr value : Nat)
  /-- DOORBELL (R331). A doorbell write of the ring tail makes the SCP fetch the new commands in ring order.
    -/
  | doorbell (pkg tail : Nat)
  /-- RING_REINIT (R331). New ring addresses written to the adapter re-initialise the rings; old commands
    complete with OLD set. -/
  | ringReinit (pkg cmdAddr cmdSize compAddr compSize : Nat)
  /-- POWER_LOSS (R336). On power loss the waiting black-box records are committed with hold-up energy. -/
  | powerLoss (pkg : Nat)
  /-- THERMTRIP (R344). A junction at 115 °C makes the SCP record THERMTRIP and remove compute-die power. -/
  | thermtrip (pkg temp : Nat)
  /-- THROTTLE (R344). Every 10 µs over the power limit or at 95 °C lowers clk by 100 MHz, and raises it again
    when clear. -/
  | throttle (pkg trigger : Nat) (lower : Bool)
  deriving DecidableEq, Repr, Inhabited

end Sys2Proof
end

