-- ==== Sys2Proof/Machine/State.lean ====
section
/-! DEFINITION. The state of the machine: everything the spec gives a pod of SK2-1024 packages, as plain data. Tiles and
vaults stand under their 24-bit ranks (R8), packages under their numbers; a table that does not list a unit holds it at
its reset value. State.reset is the pod right after power-on, with no task anywhere. -/

namespace Sys2Proof.Machine

/-- Why the machine stops. -/
inductive Fault where
  /-- An event step names a rank, plane, flag, lane or other unit that the pod does not have, or a packet with a field
  out of range (Instr.wf is false). No unit of the spec sends such a packet. Safe. -/
  | noSuchUnit
  deriving DecidableEq, Repr

/-- Why an instruction has no meaning here. -/
inductive Refusal where
  /-- Raised by exec for an instruction that has no meaning yet, under its mnemonic. Safe. -/
  | notModelled (mnemonic : String)
  deriving DecidableEq, Repr

/-- Who moves next: a tile with a bundle, a step that is due, or the world outside the pod. -/
inductive Turn where
  | tile (rank : Nat)
  | event (n : Nat)
  | outside
  deriving DecidableEq, Repr, Inhabited

/-- A trap: its cause, DETAIL, the trapping slot (3 for none) and MTINFO or UTINFO (Tables 9.7, 9.8, 16.2), and the
accumulator whose loss mark an MRES trap clears (R68). -/
structure TrapInfo where
  cause : Nat := 0
  detail : Nat := 0
  slot : Nat := 3
  info : Word := 0
  acc : Option Nat := none
  deriving DecidableEq, Repr, Inhabited

/-- What has become of the bundle in progress: held is a stall whose word has begun its work on units other than the
bundle's own registers. -/
inductive BStatus where
  | running
  | stalled
  | held
  | overflow
  | trapped (t : TrapInfo)
  deriving DecidableEq, Repr, Inhabited

/-- The bundle in progress at the current tile: its address, the address after it, the target of a taken transfer, the
registers marked for death at its end (R163), what became of it, a YIELD's declaration (R188), and whether it entered or
left the monitor, so that the PC stands already (R292, R296), and its lend header (R154). -/
structure Bundle where
  start : Nat := 0
  next : Nat := 0
  jump : Option Nat := none
  killX : List Nat := []
  killV : List Nat := []
  status : BStatus := .running
  yielding : Option Nat := none
  moved : Bool := false
  hdr : Option Lend := none
  deriving DecidableEq, Repr, Inhabited

/-- The scalar bank: x0 to x31 with their dead marks, p0 to p7, i0 to i3 and the hardware return stack, newest entry
first (Table 1.1). The monitor has a bank of its own (R288). -/
structure Bank where
  x : Vector Word 32 := Vector.replicate 32 0
  dead : BitVec 32 := 0
  p : Vector Bool 8 := Vector.replicate 8 false
  ix : Vector (BitVec 8) 4 := Vector.replicate 4 0
  ret : List Nat := []
  deriving DecidableEq, Repr, Inhabited

/-- An accumulator (R256): its mode, its elements under 32 i + j (0 where none is listed) and its loss mark (R68), which
names the flag of the MMA that failed. -/
structure Acc where
  int32 : Bool := false
  el : NMap (BitVec 32) := []
  lost : Option Nat := none
  deriving DecidableEq, Repr, Inhabited

/-- A tensor descriptor (Table 3.3) with the lattice table installed with it (R52). -/
structure TDesc where
  raw : BitVec 256 := 0
  lat : List (BitVec 32) := []
  deriving DecidableEq, Repr, Inhabited

/-- A completion flag: its bit, its status record (Table 4.5), the operation bound to it (R17), and the operation whose
completion set it last (0 for none), which a WAITF acquires (R95); soft is true after an FLSET, whose place among the
plane's stores is then last (R228). -/
structure Flag where
  on : Bool := false
  status : Quad := 0
  bound : Option Nat := none
  last : Nat := 0
  soft : Bool := false
  deriving DecidableEq, Repr, Inhabited

/-- The register context of a plane (Table 1.1) and its user CSRs (Table 9.5); launch-supplied ones hold the defaults of
Table 2.2 until a launch gives them. A speculation checkpoint is one of these (R41). -/
structure Regs where
  bank : Bank := {}
  v : Vector VReg 64 := Vector.replicate 64 0
  vdead : BitVec 64 := 0
  q : Vector Quad 8 := Vector.replicate 8 0
  acc : Vector Acc 4 := Vector.replicate 4 {}
  t : Vector TDesc 16 := Vector.replicate 16 {}
  flag : Vector Flag 64 := Vector.replicate 64 {}
  wmark : Vector Nat 4 := Vector.replicate 4 0
  route : Vector Nat 4 := Vector.replicate 4 0
  rsdepth : Nat := 0
  pc : Nat := 0
  frm : Nat := 0
  fflags : BitVec 6 := 0
  srseed : Word := 1
  retrylim : Nat := 8
  boff : Nat := 8
  specst : Word := 0
  ph : Vector Bool 4 := Vector.replicate 4 false
  deadchk : Bool := false
  valloc : Nat := 64
  hbiv : Nat := 1048576
  utvec : Nat := 0
  utpc : Nat := 0
  utcause : Word := 0
  utinfo : Word := 0
  myrank : Nat := 0
  gridpos : Nat := 0
  geom : Word := 0
  tsbase : Nat := 0
  tslen : Nat := 262144
  tillsz : Nat := 32768
  plen : Nat := 0
  cycle : Nat := 0
  hbcnt : Nat := 0
  deriving DecidableEq, Repr, Inhabited

/-- What a launch gives a task beside its registers (Table 2.2, Table 17.2): job and launch numbers, task index, EAGER,
BGROUPS and SPEC masks, SPECMAX, whether it is one of a DUAL pair and its partner's rank, its partition, SPILLVA,
LSTATVA, and the arbiter's rank TRANK (R311). -/
structure Task where
  job : Nat := 0
  launch : Nat := 0
  index : Nat := 0
  eager : Nat := 1024
  bgroups : Nat := 0
  specs : Nat := 0
  specmax : Nat := 2
  dual : Bool := false
  partner : Nat := 0
  part : Nat := 0
  spillva : Nat := 0
  lstatva : Nat := 0
  trank : Nat := 0
  deriving DecidableEq, Repr, Inhabited

/-- One destination's copy of a send: its sequence number, and the status it ended with. -/
structure SendCopy where
  dst : Nat
  seq : Nat
  left : Bool := false
  settled : Bool := false
  stub : Bool := false
  fin : Option (Nat × Nat) := none
  retry : Nat := 0
  deriving DecidableEq, Repr, Inhabited

/-- A send that has not completed (R75 to R80): operation number, KIND (4 for a RECVF's forward), flag, header fields,
the requested length and the bytes sent (R73), the payload that the engine holds, the buffer that
R75 protects, and its copies. held says that the payload is whole. ready is false while the send is held by
a residue of the matrix order or a RECVF's data, spec while a speculation holds it, and paired is false until a DUAL pair's
comparison releases it. numbered says that its copies hold their stream numbers. twin is the number of the even tile's
operation, at the odd tile of a DUAL pair. -/
structure Send where
  id : Nat
  kind : Nat
  flag : Option Nat
  group : Nat
  tag : Nat
  len : Nat
  bytes : Nat
  addr : Nat
  payload : List Byte := []
  held : Bool := false
  copies : List SendCopy := []
  eager : Bool
  ready : Bool := true
  paired : Bool := true
  numbered : Bool := false
  spec : Bool := false
  mv : Nat := 0
  pv : Nat := 0
  acc : Nat := 0
  twin : Nat := 0
  deriving DecidableEq, Repr, Inhabited

/-- A posted receive (R76): fwd is the ROUTEn value a RECVF forwards to, and mv and pv the vectors at its issue (R38). -/
structure Recv where
  id : Nat
  flag : Nat
  src : Nat
  tag : Nat
  group : Nat
  addr : Nat
  cap : Nat
  fwd : Option Nat := none
  mv : Nat := 0
  pv : Nat := 0
  deriving DecidableEq, Repr, Inhabited

/-- An entry of the unexpected queue: a till entry with its lines (lines > 0) or a stub (R76, R78). kept marks a stub whose
eager payload came through the spill queue, so that its sender has completed (R298, R299). -/
structure Uq where
  hdr : Msg
  line : Nat := 0
  lines : Nat := 0
  admitted : Bool := true
  kept : Bool := false
  deriving DecidableEq, Repr, Inhabited

/-- A message being delivered (R77): data holds the bytes on hand that have not landed, got those that have landed of
want; pulling until the sender's engine serves the pull, and piped when the bytes come by a pull, a line at a time; ack says that
the sender waits for the placement; lines are the till lines from line on that a copy out of the till still holds; fwd is the
forwarding send's number (R86), fwdSt its status. -/
structure Delivery where
  did : Nat
  recv : Recv
  hdr : Msg
  want : Nat
  got : Nat := 0
  data : List Byte := []
  pulling : Bool := false
  piped : Bool := false
  stubbed : Bool := false
  ack : Bool := false
  line : Nat := 0
  lines : Nat := 0
  fwd : Option Nat := none
  fwdSt : Nat := 15
  fin : Option (Nat × Nat) := none
  deriving DecidableEq, Repr, Inhabited

/-- What a DUAL partner's pull of a send has brought before this tile's own delivery asks for it (R46): the sender and its send, the
bytes, and whether the last of them is there. -/
structure TwinPull where
  src : Nat
  sid : Nat
  data : List Byte
  whole : Bool
  deriving DecidableEq, Repr, Inhabited

/-- An arrival whose signal has not left (R37): its group and phase and the operations it still waits for. -/
structure Held where
  group : Nat
  phase : Bool
  waits : List Nat
  deriving DecidableEq, Repr, Inhabited

/-- Whom a vault request answers to. -/
inductive Owner where
  | flag
  | copy (ch : Nat)
  deriving DecidableEq, Repr, Inhabited

/-- A request of a tile that has not completed (R101): sent is false while it waits behind another request to one of
its granules or for its first transmission; the bytes from addr, len long, are protected until sent (R75); full is
true for a marked read that met a full filter (R123); under marks one that the open speculation issued, and dropped one whose
answer a rollback discards (R250). -/
structure ReqSt where
  req : Req
  owner : Owner := .flag
  sent : Bool := false
  addr : Nat := 0
  len : Nat := 0
  full : Bool := false
  under : Bool := false
  dropped : Bool := false
  ready : Bool := true
  twin : Nat := 0
  deriving DecidableEq, Repr, Inhabited

/-- The window of a copy channel (R96): its lowest and last physical address, and the physical address of the watermark's
address 0. -/
structure Win where
  lo : Nat
  hi : Nat
  base : Nat
  deriving DecidableEq, Repr, Inhabited

/-- An accepted copy command (R120 to R122, R226 to R229): its block, flag, the flag it waits for (COPYQ) with that flag as it
stood when it started the command, its follow-on (word fields, coordinate value and MV and PV), the place it has reached (piece
number, bytes moved), the unit buffer, and its fault. mon marks a command of the monitor, whose addresses are physical (R122,
R288); word and xs are its word and the x values that it read, which CTXSAVE records (R297). -/
structure CopyCmd where
  id : Nat
  kind : Nat := 1
  flag : Nat
  blk : BitVec 512
  fk : Option Nat := none
  fired : Option Flag := none
  follow : Option (MMm × Word) := none
  followCancel : Bool := false
  spec : Bool := false
  started : Bool := false
  piece : Nat := 0
  moved : Nat := 0
  unit : List (Nat × Byte) := []
  waiting : Bool := false
  fault : Option Nat := none
  fin : Bool := false
  mon : Bool := false
  word : Nat := 0
  xs : List Word := []
  deriving DecidableEq, Repr, Inhabited

/-- A matrix instruction in the engine's queue (R255): its kind by constructor fields kept as the word's, the value of
its coordinate or tag register, the steps done and the retries of the step, its send's number (MSEND), the flags raised. -/
inductive MxOp where
  | mma (f : MMm)
  | mzero (f : MZ)
  | mldacc (f : MTa)
  | mstacc (f : MTa)
  | msend (f : MMs) (sid : Nat)
  deriving DecidableEq, Repr, Inhabited

/-- An entry of the matrix queue; mon marks an instruction of the monitor, whose addresses are physical (R288), and follow the
follow-on of a COPYM (R227, R297). -/
structure Mx where
  id : Nat
  op : MxOp
  xv : Word := 0
  mon : Bool := false
  spec : Bool := false
  started : Bool := false
  step : Nat := 0
  again : Bool := false
  flags : BitVec 6 := 0
  done : Bool := false
  cancel : Bool := false
  fault : Bool := false
  follow : Bool := false
  deriving DecidableEq, Repr, Inhabited

/-- An open speculation (R41, R282): checkpoint, number, awaited group and phase with the number of completed phases that the
WAIT waits for, the WAIT's address, escrow lines in order of first write (line number and its bytes by offset), tracked 64-byte
lines, shadow accumulators, vaults touched, operations issued before it whose flags completed during it (R250) and the FFLAGS
bits they raised (R58), the channels on which a copy of its own has started (R110), whether it is committing (R44), and whether
the overflow stall that the bundle, or an engine, stands in has been counted (R44). -/
structure Spec where
  ckpt : Regs
  number : Nat
  group : Nat
  phase : Bool
  awaits : Nat := 0
  pc : Nat
  escrow : List (Nat × NMap Byte) := []
  tracked : List Nat := []
  shadow : NMap Acc := []
  vaults : List Nat := []
  doneFlags : List (Nat × Nat × Quad) := []
  firstOp : Nat := 0
  chans : List Nat := []
  early : BitVec 6 := 0
  committing : Bool := false
  counted : Bool := false
  engCounted : Bool := false
  deriving DecidableEq, Repr, Inhabited

/-- A speculation that has ended and whose release flits are still to be sent or acknowledged (R282). -/
structure Releasing where
  number : Nat
  toSend : List Nat
  waiting : List Nat
  deriving DecidableEq, Repr, Inhabited

/-- An entry of a spill queue (R298): a message, or a pull for one of the task's sends. -/
inductive SpillE where
  | msg (m : Msg)
  | pull (p : Pull)
  deriving DecidableEq, Repr, Inhabited

/-- An unstarted engine entry as CTXSAVE keeps it (R297). -/
inductive Unstarted where
  | copy (ch : Nat) (c : CopyCmd)
  | matrix (m : Mx)
  deriving DecidableEq, Repr, Inhabited

/-- How a task ends: END, CAUSE, INFO, the plane offset and CODE of its record (Table 16.3). -/
structure Ending where
  code : Nat
  cause : Nat := 0
  info : Word := 0
  pc : Nat := 0
  ecode : Nat := 0
  deriving DecidableEq, Repr, Inhabited

/-- One plane of a tile: its registers, task, state (R291), resume point, arbiter values (R311), and the engines' state that is
the plane's own. arrives counts its task's ARRIVEs on each group (R36), hold is the mark of a channel that a faulted copy holds,
with that copy's flag (R122), and wfault that of a window that a faulted copy left open (R96); lock lists the physical spans of
the copy unit that a channel holds locked (R98); arrWait holds the groups of ARRIVEs that copies make after a speculation
(R229), twinData the payloads that a DUAL partner's pulls brought (R46), askIds the questions at the lane manager, saved the
unstarted entries that CTXSAVE took out (R297), out the flags that were bound then and recTick the tick of it, queueAt the
address of the spill queue and queueHead the offset of its head entry (R296), readmit true from a RESUME to the end of the
diversion (R299), plain the address of a WAIT that waits plainly (R282), and yieldWait true while a DUAL task's YIELD waits for
its partner's (R188). -/
structure Plane where
  regs : Regs := {}
  task : Task := {}
  state : Nat := 0
  token : Bool := false
  resumeKind : Bool := false
  resume : Nat := 0
  pass : Nat := 0
  debt : Nat := 0
  decl : Nat := 0
  declared : Bool := false
  ran : Bool := false
  readyAll : Bool := false
  seg : Nat := 0
  prq : List Recv := []
  uq : List Uq := []
  deliveries : List Delivery := []
  sends : List Send := []
  arrives : Vector Nat 4 := Vector.replicate 4 0
  held : List Held := []
  chan : Vector (List CopyCmd) 4 := Vector.replicate 4 []
  hold : Vector (Option Nat) 4 := Vector.replicate 4 none
  window : Vector (Option Win) 4 := Vector.replicate 4 none
  lock : Vector (List (Nat × Nat)) 4 := Vector.replicate 4 []
  wfault : Vector (Option Nat) 4 := Vector.replicate 4 none
  arrWait : List Nat := []
  twinData : List TwinPull := []
  mx : List Mx := []
  spec : Option Spec := none
  releasing : List Releasing := []
  specCount : BitVec 8 := 0
  rollbacks : Nat := 0
  diverted : Bool := false
  readmit : Bool := false
  spillq : List SpillE := []
  queueAt : Nat := 0
  queueHead : Nat := 0
  recTick : Nat := 0
  out : List Nat := []
  preempt : Option Nat := none
  cancel : Bool := false
  halted : Bool := false
  exiting : Option Nat := none
  saved : List Unstarted := []
  askIds : List Nat := []
  plain : Option Nat := none
  yieldWait : Bool := false
  deriving DecidableEq, Repr, Inhabited

/-- A write of a granule that some path may not see yet (R93): the granule's physical number, its bytes before the write, the
operation that wrote it, the writing path, the mask of paths that may still see the bytes before it, the mask of those that have
made or read it, and the key under which the choice of a read stands: one for a granule, or one for a locked copy unit (R98). A
tile lists them in the order of the writes; a path that has seen one write has seen every earlier write of the granule. -/
structure Stale where
  gran : Nat
  old : List Byte
  op : Nat
  path : Nat
  paths : Nat
  seen : Nat := 0
  key : Nat := 0
  deriving DecidableEq, Repr, Inhabited

/-- A translation held in a tile or die: the kind and reach of its va (range entries before page entries), the package,
DPA of its first va, and its permission bits (Tables 18.2, 18.3). -/
structure Tr where
  part : Nat
  range : Bool
  n : Nat
  lo : Nat
  hi : Nat
  pkg : Nat
  dpa : Nat
  own : Option Nat := none
  sysatom : Bool := false
  host : Bool := false
  w : Bool := false
  r : Bool := false
  deriving DecidableEq, Repr, Inhabited

/-- An operation of a DUAL task that waits for the partner's (R46, R252). -/
inductive DualOp where
  | arrive (group : Nat)
  | send (id : Nat)
  | req (id : Nat)
  | lease (fn id : Nat) (val : Word)
  | unlease (num : Nat)
  | ask (l : LmAsk)
  | yield (imm : Nat)
  | probe (fn id : Nat) (filter : Word)
  deriving DecidableEq, Repr, Inhabited

/-- One tile: planes, level and monitor state (R288 to R292), Table 16.1's registers, window counter, fence mark,
requests, translations, location cache, races, the operations of a DUAL pair that wait for the partner's, each with its
plane and its pod time of issue, the plane and KIND of a DUAL mismatch that is due, whether a monitor fault has still to end
its tasks (R289), and the requests that a TLBINV (R327), and the deliveries that a DIVERT (R296), in progress waits for. -/
structure Tile where
  plane0 : Plane := {}
  plane1 : Plane := {}
  running : Option Nat := none
  monitor : Bool := false
  mbank : Bank := {}
  mpc : Nat := 0
  mwatch : Nat := 0
  mtcause : Word := 0
  mtpcPlane : Nat := 0
  mtpc : Nat := 0
  mtinfo : Word := 0
  mendCode : Nat := 0
  mendAct : Nat := 0
  mscratch : Word := 0
  txidx : Nat := 0
  sysStatus : Nat := 0
  sysFcode : Nat := 0
  wrem : Nat := 25600
  fenced : Bool := false
  reqs : List ReqSt := []
  tr : List Tr := []
  loc : List (Nat × Nat) := []
  stale : List Stale := []
  dualq : List (Nat × Nat × DualOp) := []
  dualDue : Option (Nat × Nat) := none
  mfault : Bool := false
  tlbWait : Option (List Nat) := none
  divertWait : Option (List Nat) := none
  deriving DecidableEq, Repr, Inhabited

/-- A speculation filter entry (R123, R282). -/
structure FEntry where
  rank : Nat
  plane : Nat
  number : Nat
  group : Nat
  phase : Nat
  line : Nat
  deriving DecidableEq, Repr, Inhabited

/-- One shard of a running search (R128): its header's fields, the sets V, C and W, and the expansion in progress: the ids
still to be taken, those asked of other vaults, the distances on hand (an error stands as 2^32 and its code), and the node
whose record another vault is asked for (R285). -/
structure Shard where
  idx : Nat
  done : Bool := false
  qstat : Nat := 0
  fcode : Nat := 0
  nodebase : Nat := 0
  nnodes : Nat := 0
  recsz : Nat := 0
  voff : Nat := 0
  roff : Nat := 0
  maxdeg : Nat := 0
  visited : List Nat := []
  cand : List (Nat × Nat) := []
  beam : List (Nat × Nat) := []
  hops : Nat := 0
  ignored : Nat := 0
  todo : List Nat := []
  asked : List Nat := []
  dists : List (Nat × Nat) := []
  ndist : Nat := 0
  started : Bool := false
  hop : Option Nat := none
  entry : Nat := 0
  deriving DecidableEq, Repr, Inhabited

/-- A query at its home vault (R125 to R130), with its result message once the search has ended; pulling until its vector is
there. -/
structure QRun where
  qid : Nat
  req : Req
  vec : List Byte := []
  dim : Nat := 0
  fmt : Nat := 0
  metric : Nat := 0
  shards : List Shard := []
  payload : List Byte := []
  sent : Bool := false
  retry : Nat := 0
  pulling : Bool := false
  deriving DecidableEq, Repr, Inhabited

/-- A vault (06, 18 R322 to R326): filter, withheld acknowledgements with the entries they wait for, object table (base
DPA and dirty mark, least recently used first), routine table words (R118), queries running and waiting, the payloads of stubbed
results that may still be pulled (R129), granules with an uncorrectable error, and its fence. -/
structure Vault where
  filter : List FEntry := []
  withheld : List (Reply × List FEntry) := []
  objects : List (Nat × Bool) := []
  routine : NMap Nat := []
  running : List QRun := []
  waiting : List QRun := []
  results : List (Nat × List Byte) := []
  bad : List Nat := []
  fenced : Bool := false
  postponed : Nat := 0
  deriving DecidableEq, Repr, Inhabited

/-- A lease (R140 to R145): number, job, peer offset, its lanes each with its donor, the lanes that have left it with the ends of their
retunes, its end in pod time, the flag it reports to with the numbers of the operation at the tile and at its DUAL partner's, and
whether that report is made. -/
structure Lease where
  num : Nat
  job : Nat
  off : Nat
  lanes : List (Nat × Nat)
  back : List (Nat × Nat) := []
  endNs : Nat
  rank : Nat := 0
  plane : Nat := 0
  fn : Nat := 0
  id : Nat := 0
  twin : Nat := 0
  granted : Nat := 0
  aux : Nat := 0
  reported : Bool := false
  deriving DecidableEq, Repr, Inhabited

/-- A lease request waiting at the lane manager (R141): id and twin number the operation at the tile and at its DUAL
partner's. -/
structure LeaseReq where
  rank : Nat
  plane : Nat
  job : Nat
  fn : Nat
  id : Nat
  twin : Nat := 0
  val : Word
  deriving DecidableEq, Repr, Inhabited

/-- The slot table, its guard and a rotation boundary in force (R148). -/
structure Rota where
  slots : NMap Nat := []
  guard : Nat := 250
  start : Nat := 0
  deriving DecidableEq, Repr, Inhabited

/-- A page walk in progress at a die's translation unit (R318): the die, the partition, the 4 KiB page, and the requests that
have joined it, each by its tile and number. -/
structure Walk where
  die : Nat
  part : Nat
  page : Nat
  reqs : List (Nat × Nat)
  deriving DecidableEq, Repr, Inhabited

/-- A package: configuration registers by the address of Table 19.12 (reset values where none is listed), slice entries by DPN64
(R322), range entries in force (R330), the pod time of each unit's last passed test (R338), barrier membership registers, the
dies' TLBs with the walks in progress and the misses that wait for a walker (R318), the requests that each TLBINV command in
progress waits for (R327), lane manager (positions of retuned lanes, the lanes that wait to return to their default positions,
leases, the peer offset of each lease number issued, requests, the mode and the table in force with a pending change, the flits
sent in the slot that began at slotAt, and for each peer offset the bytes that its lanes could have carried and did not, up to a
flit, and since when its queue has stood at or above LTHRESH, R136, R144), scheduler, health, the stacks whose core is down
(R132), the conditions of R343 that held at the last look, whether the link stayed closed (R333), black box and command channel.
-/
structure Package where
  cfg : NMap Nat := []
  slice : NMap Nat := []
  rng : NMap Nat := []
  lastPass : NMap Nat := []
  moving : List (Nat × Nat) := []
  bgmask : NMap Nat := []
  bgseg : NMap Nat := []
  tlb : NMap (List Tr) := []
  walks : List Walk := []
  walkWait : List (Nat × Nat) := []
  invWait : NMap (List Nat) := []
  lastq : NMap Nat := []
  lane : NMap Nat := []
  homing : List Nat := []
  leases : List Lease := []
  leaseReqs : List LeaseReq := []
  lastLease : Nat := 0
  leaseOff : NMap Nat := []
  lastJob : Nat := 0
  slotted : Bool := false
  rota : Rota := {}
  pendTable : Bool := false
  switchAt : Option Nat := none
  slotAt : Nat := 0
  slotUsed : Nat := 0
  credit : NMap Nat := []
  highSince : NMap Nat := []
  health : NMap Nat := []
  beats : NMap Nat := []
  smcFails : NMap Nat := []
  windowCount : NMap (Nat × Nat) := []
  counters : NMap Nat := []
  bb : NMap (BitVec 256) := []
  bbSeq : Nat := 0
  bbLost : Nat := 0
  bbWait : List Nat := []
  boot : Nat := 0
  replaceReq : Bool := false
  stage : Nat := 1
  failed : Bool := false
  ready : Bool := false
  degradedSmc : Bool := false
  smcOff : List Nat := []
  replaceOn : List Nat := []
  linkDown : Bool := false
  clk : Nat := 25
  powered : Bool := true
  cmdAddr : Nat := 0
  cmdSize : Nat := 16
  cmdHead : Nat := 0
  compAddr : Nat := 0
  compSize : Nat := 16
  compTail : Nat := 0
  evTail : Nat := 0
  evDropped : Nat := 0
  deriving DecidableEq, Repr, Inhabited

/-- A wired barrier tree of a launch (R36, R40): the phase it waits to complete, how many it has completed, the members that have
signalled it, and its outcome. -/
structure Tree where
  phase : Bool := false
  done : Nat := 0
  arrived : List Nat := []
  out : Nat := 0
  deriving DecidableEq, Repr, Inhabited

/-- A launch (R27, R31, R302): number, job, record bytes, the unit that contains it, and its counters; halves holds the tasks of a DUAL
launch that have ended at one of their tiles, with that ending (R46, R294), and test is the health entry of the tile that a system
launch on queue 60 tests (R338). -/
structure Launch where
  num : Nat
  job : Nat
  pkg : Nat
  image : List Byte
  graph : Option (Nat × Nat) := none
  next : Nat := 0
  ntask : Nat := 0
  left : Nat := 0
  normal : Nat := 0
  ended : Nat := 0
  discard : Nat := 0
  faulted : Nat := 0
  firstBad : Nat := 0xFFFFFFFF
  cancelled : Bool := false
  loadFault : Bool := false
  bad : Bool := false
  queued : Bool := true
  fin : Bool := false
  members : List (Nat × Nat) := []
  heldPlanes : List (Nat × Nat) := []
  trees : Vector Tree 4 := Vector.replicate 4 {}
  halves : List (Nat × Ending) := []
  test : Option Nat := none
  deriving DecidableEq, Repr, Inhabited

/-- A node of a graph as its record gives it (Table 17.4), with its counter and state: 0 waiting, 1 ready, 2 running,
3 ended. -/
structure Node where
  kind : Nat
  npred : Nat
  nback : Nat
  addr : Nat
  bodyLo : Nat
  bodyHi : Nat
  succ : List Nat
  count : Nat
  st : Nat
  deriving DecidableEq, Repr, Inhabited

/-- A graph being walked (R304, R305). -/
structure Graph where
  num : Nat
  job : Nat
  pkg : Nat
  gstat : Nat
  nodes : List Node
  exitSeen : Bool := false
  ended : Nat := 0
  eval : Nat := 0
  status : Nat := 0
  fcode : Nat := 0
  node : Nat := 65535
  cancelled : Bool := false
  fin : Bool := false
  deriving DecidableEq, Repr, Inhabited

/-- A job (R302, R303): past keeps each phase that has completed, with its number, its status and the units that ended normally
(R28), and groups the ranks of each group as its table listed them at JOBRUN (R70). -/
structure Job where
  num : Nat
  pkg : Nat
  part : Nat
  addr : Nat
  nphase : Nat
  quota : Nat
  phaseva : Nat
  groupva : Nat
  doneva : Nat
  streamva : Nat
  phase : Nat := 0
  phaseNum : Nat := 0
  left : Nat := 0
  normal : Nat := 0
  error : Bool := false
  phaseCancelled : Bool := false
  cancelled : Bool := false
  normalPhases : Nat := 0
  anyError : Bool := false
  past : List (Nat × Nat × Nat) := []
  groups : NMap (List Nat) := []
  fin : Bool := false
  deriving DecidableEq, Repr, Inhabited

/-- One stream's state at one end (R71, R72): next sequence number and the abandon marks ahead of it; refused holds the
numbers of the messages that stand refused (R80). -/
structure Stream where
  pkg : Nat
  job : Nat
  tile : Nat
  peer : Nat
  group : Nat
  sending : Bool
  next : Nat := 0
  abandoned : List Nat := []
  refused : List Nat := []
  deriving DecidableEq, Repr, Inhabited

/-- A suspended task (R298): its rank, and its plane as it stood, with its engine and matching records and spill queue, and the
operations and requests of a DUAL task that still wait for the partner's (R300). It stands until the task's CTXLOAD takes the
records back (R296). -/
structure Susp where
  rank : Nat
  plane : Plane
  dualq : List DualOp := []
  reqs : List ReqSt := []
  deriving DecidableEq, Repr, Inhabited

/-- A step that is due. via names the package, peer offset and flits left of a packet that waits for its slot (R147). -/
structure Due where
  ev : Instr
  via : Option (Nat × Nat) := none
  deriving DecidableEq, Repr, Inhabited

/-- The pod. -/
structure State where
  tiles : NMap Tile
  vaults : NMap Vault
  pkgs : NMap Package
  jobs : List Job
  launches : List Launch
  graphs : List Graph
  streams : List Stream
  suspended : List Susp
  mem : List Host.Cell
  podTime : Nat
  nextId : Nat
  nextNum : Nat
  cur : Nat
  bundle : Bundle
  turn : Turn
  tick : Nat
  agenda : List Due
  deriving DecidableEq, Repr, Inhabited

/-- The pod right after power-on: nothing is resident, memory lists nothing, and what happens next comes from outside
(R333). -/
def State.reset : State :=
  { tiles := [], vaults := [], pkgs := [], jobs := [], launches := [], graphs := [], streams := [], suspended := [],
    mem := [], podTime := 0, nextId := 1, nextNum := 1, cur := 0, bundle := {}, turn := .outside, tick := 0,
    agenda := [] }

end Sys2Proof.Machine
end

