-- ==== Sys2Proof/Config.lean ====
section
/-! DEFINITION. What an implementation or the world outside fixes, and the free values. Each is an opaque constant:
nothing in Lean can evaluate it or prove a value of it, so every statement holds whatever it is. A constant that takes a
tick is applied to State.tick, the model's own counter, for a fresh value at every step. -/

namespace Sys2Proof.Config

open Sys2Proof.Machine

/-- Who moves next. The spec orders agents only by the rules the steps themselves keep (R93, R102, R111). -/
opaque nextTurn (tick : Nat) : Turn

/-- What the world outside does at a step, if anything: a command, an interrupt of the host, a physical event. -/
opaque outside (tick : Nat) : Option Instr

/-- The clk a step takes (R178, R225, R266: timing changes no result). -/
opaque elapsed (tick : Nat) : Nat

/-- The ns a step takes on the pod's clock (R148). -/
opaque elapsedNs (tick : Nat) : Nat

/-- Whether an unordered read of a granule returns its bytes before the other path's write, and whether an unordered
write loses to the other path's (R93). -/
opaque raceOld (tick gran : Nat) : Bool

/-- What a tensor copy writes for an index or a scale that is masked at its source: R56 gives the value of a masked element,
and no byte for it (log entry 51). -/
opaque maskedByte (tick place : Nat) : Byte

/-- The host address at which the Dwesum adapter maps a window of a package (R321). -/
opaque windowBase (pkg window : Nat) : Nat

/-- What the host's own agents write to host memory during a step: package, host address and byte (R107). -/
opaque hostStores (tick : Nat) : List (Nat × Nat × Byte)

/-- Whether a PCIe request of the adapter ends with an error status or a timeout (R321). -/
opaque pcieFails (tick : Nat) : Bool

/-- Whether a PCIe write that ends with an error or a timeout was performed all the same (R321). -/
opaque pcieWrote (tick : Nat) : Bool

/-- Whether the PCIe request of a device access that is made in one step, at an address of its host window, ends with an error or a
timeout (R321). -/
opaque deviceFails (tick addr : Nat) : Bool

/-- Whether a write of that kind that ends with an error or a timeout was performed all the same (R321). -/
opaque deviceWrote (tick addr : Nat) : Bool

/-- Whether a write of results to host memory fails (Table 19.2, FAULT). -/
opaque hostWriteFails (tick : Nat) : Bool

/-- Whether a granule of vault memory shows an uncorrectable error at a step (R326, Table 18.5). -/
opaque memError (tick gran : Nat) : Bool

/-- UNIT of a black-box record about the package as a whole, for which Table 19.7 names no unit. -/
opaque noUnit (code pkg : Nat) : Nat

/-- The monitor store's image that the system control processor loads at bring-up (R288, R333). -/
opaque monitorImage (pkg off : Nat) : Byte

/-- The routine-table words that the flash image supplies (R333). -/
opaque flashRoutine (pkg vault word : Nat) : Nat

/-- How the residue check of a matrix step comes out: 0 right, 1 right when it is repeated, 2 wrong twice (R68). -/
opaque residue (tick : Nat) : Nat

/-- NPC of a trap that no bundle raises, or whose bundle has no frame: Table 16.1 gives no address for it. -/
opaque npc (tick : Nat) : Nat

/-- KIND of an operation for which Table 4.5 has none: an ARRIVE (Table 16.2, Table 19.9). -/
opaque noKind (tick : Nat) : Nat

/-- The cause that a MONFAULT record gives when the monitor's watchdog ends (R289, Table 19.9): no trap arises there. -/
opaque watchdogCause (tick : Nat) : Nat

/-- Whether the scheduler resumes a suspended task at a placement decision (R299 leaves the time to it). -/
opaque resumes (tick : Nat) : Bool

/-- Whether a field test of a unit passes (R338). -/
opaque testPasses (tick entry : Nat) : Bool

/-- Whether a unit fails the structural tests of bring-up (R333). -/
opaque structuralFails (tick entry : Nat) : Bool

/-- Whether the link fails to train in a bring-up of which an earlier step has failed, with the code of that failure (R333). -/
opaque linkFails (tick : Nat) : Option Nat

/-- The bytes of a package's own memories that a RESET or a loss of power changes, with what they hold then: the spec gives them
no reset value (R333). -/
opaque resetBytes (tick : Nat) : List (Nat × Byte)

/-- Bytes of the matching record, and of the headers in a spill queue, whose layout R297 does not give. -/
opaque recordByte (tick i : Nat) : Byte

/-- What the bytes of an entry of the matching record say of its field k. -/
opaque recordField (bytes : List Byte) (k : Nat) : Nat

/-- Whether the black box's store is busy, so that a record waits (R336). -/
opaque storeBusy (tick : Nat) : Bool

/-- Where the host keeps a package's event ring and its size in entries (R332). -/
opaque eventRing (pkg : Nat) : Nat × Nat

/-- Whether a package's event ring is full (R332). -/
opaque eventRingFull (tick : Nat) : Bool

end Sys2Proof.Config
end

