-- ==== Sys2Proof/WellFormed.lean ====
section
/-! DEFINITION. Which instructions are well formed: every field within the width the encoding gives it and within the
range its description gives (spec/08_encoding.md R157 to R168 and the instruction chapters), and every packet of a step
with ranks, planes and operands in range. A word whose fields are not well formed traps ILLEGAL (R164, R168). -/

namespace Sys2Proof

/-- An immediate whose field has lo bits, and hi more with a header (R157, R161). -/
def Imm.wf (lo hi : Nat) (i : Imm) : Bool :=
  if i.lent then decide (i.raw < 2 ^ (lo + hi)) else decide (i.raw < 2 ^ lo)

/-- The signed reading of an immediate at the width it has (R157). -/
def Imm.sval (lo hi : Nat) (i : Imm) : Int :=
  let w := if i.lent then lo + hi else lo
  if i.raw < 2 ^ (w - 1) then (i.raw : Int) else (i.raw : Int) - (2 ^ w : Nat)

/-- LENDV's fields (Table 8.5). -/
def lvQ (lv : Nat) : Nat := lv / 32
/-- The high bit of vd. -/
def lvHD (lv : Nat) : Nat := lv / 16 % 2
/-- The high bit of va. -/
def lvHA (lv : Nat) : Nat := lv / 8 % 2
/-- The high bit of vb. -/
def lvHB (lv : Nat) : Nat := lv / 4 % 2
/-- The relative field: 0 none, 1 va, 2 vb, 3 vd. -/
def lvRel (lv : Nat) : Nat := lv % 4

/-- The type classes of Table 10.1: F is f32, bf16, f16. -/
def tyF (t : Nat) : Bool := decide (t < 3)
/-- Class I: i32, i16, i8. -/
def tyI (t : Nat) : Bool := decide (3 ≤ t ∧ t < 6)
/-- Class E: e4m3, e5m2. -/
def tyE (t : Nat) : Bool := decide (6 ≤ t ∧ t < 8)

/-- Field ranges of the layout R3. -/
def R3.wf (f : R3) : Bool :=
  decide (f.g < 8 ∧ f.rd < 32 ∧ f.ra < 32 ∧ f.rb < 32)

/-- Field ranges of the layout R2. -/
def R2.wf (f : R2) : Bool :=
  decide (f.g < 8 ∧ f.rd < 32 ∧ f.ra < 32)

/-- Field ranges of the layout RSel. -/
def RSel.wf (f : RSel) : Bool :=
  decide (f.g < 8 ∧ f.rd < 32 ∧ f.ra < 32 ∧ f.rb < 32 ∧ f.pa < 8)

/-- Field ranges of the layout RA. -/
def RA.wf (f : RA) : Bool :=
  decide (f.g < 8 ∧ f.ra < 32)

/-- Field ranges of the layout RAB. -/
def RAB.wf (f : RAB) : Bool :=
  decide (f.g < 8 ∧ f.ra < 32 ∧ f.rb < 32)

/-- Field ranges of the layout G0. -/
def G0.wf (f : G0) : Bool :=
  decide (f.g < 8)

/-- Field ranges of the layout I3. -/
def I3.wf (f : I3) : Bool :=
  decide (f.g < 8 ∧ f.rd < 32 ∧ f.ra < 32) && f.imm.wf 10 9

/-- Field ranges of the layout ID. -/
def ID.wf (f : ID) : Bool :=
  decide (f.g < 8 ∧ f.rd < 32) && f.imm.wf 10 9

/-- Field ranges of the layout IU. -/
def IU.wf (f : IU) : Bool :=
  decide (f.g < 8) && f.imm.wf 10 9

/-- Field ranges of the layout IX. -/
def IX.wf (f : IX) : Bool :=
  decide (f.g < 8 ∧ f.rd < 4) && f.imm.wf 10 9 && decide (-128 ≤ f.imm.sval 10 9 ∧ f.imm.sval 10 9 ≤ 127)

/-- Field ranges of the layout IXG. -/
def IXG.wf (f : IXG) : Bool :=
  decide (f.g < 8 ∧ f.rd < 32 ∧ f.ra < 4)

/-- Field ranges of the layout P3. -/
def P3.wf (f : P3) : Bool :=
  decide (f.g < 8 ∧ f.rd < 8 ∧ f.ra < 8 ∧ f.rb < 8 ∧ 2 ≤ f.rd)

/-- Field ranges of the layout P2. -/
def P2.wf (f : P2) : Bool :=
  decide (f.g < 8 ∧ f.rd < 8 ∧ f.ra < 8 ∧ 2 ≤ f.rd)

/-- Field ranges of the layout SB. -/
def SB.wf (f : SB) : Bool :=
  decide (f.g < 8) && f.imm.wf 21 9

/-- Field ranges of the layout GB. -/
def GB.wf (f : GB) : Bool :=
  decide (f.g < 8 ∧ f.n < 4)

/-- Field ranges of the layout GF. -/
def GF.wf (f : GF) : Bool :=
  decide (f.g < 8 ∧ f.fn < 64)

/-- Field ranges of the layout CR. -/
def CR.wf (f : CR) : Bool :=
  decide (f.g < 8 ∧ f.rd < 32 ∧ f.csr < 1024)

/-- Field ranges of the layout CW. -/
def CW.wf (f : CW) : Bool :=
  decide (f.g < 8 ∧ f.ra < 32 ∧ f.csr < 1024)

/-- Field ranges of the layout V3. -/
def V3.wf (f : V3) : Bool :=
  decide (f.g < 8 ∧ f.ty < 8 ∧ f.vd < 32 ∧ f.va < 32 ∧ f.vb < 32) &&
    decide (f.lv < 256)

/-- Field ranges of the layout VC. -/
def VC.wf (f : VC) : Bool :=
  decide (f.g < 8 ∧ f.ty < 8 ∧ f.vd < 32 ∧ f.va < 32 ∧ f.vb < 32) &&
    decide (f.lv < 256 ∧ lvHD f.lv = 0 ∧ lvRel f.lv ≠ 3 ∧ (f.vd = 2 ∨ f.vd = 4 ∨ f.vd = 6))

/-- Field ranges of the layout V2. -/
def V2.wf (f : V2) : Bool :=
  decide (f.g < 8 ∧ f.ty < 8 ∧ f.vd < 32 ∧ f.va < 32) &&
    decide (f.lv < 256 ∧ lvHB f.lv = 0 ∧ lvRel f.lv ≠ 2)

/-- Field ranges of the layout VCv. -/
def VCv.wf (f : VCv) : Bool :=
  decide (f.g < 8 ∧ f.ty < 8 ∧ f.vd < 32 ∧ f.va < 32 ∧ f.dt < 8) &&
    decide (f.lv < 256 ∧ lvHB f.lv = 0 ∧ lvRel f.lv ≠ 2)

/-- Field ranges of the layout VX. -/
def VX.wf (f : VX) : Bool :=
  decide (f.g < 8 ∧ f.ty < 8 ∧ f.vd < 32 ∧ f.xa < 32) &&
    decide (f.lv < 256 ∧ lvHA f.lv = 0 ∧ lvHB f.lv = 0 ∧ lvRel f.lv ≠ 1 ∧ lvRel f.lv ≠ 2)

/-- Field ranges of the layout VXX. -/
def VXX.wf (f : VXX) : Bool :=
  decide (f.g < 8 ∧ f.ty < 8 ∧ f.vd < 32 ∧ f.xa < 32 ∧ f.xb < 32) &&
    decide (f.lv < 256 ∧ lvHA f.lv = 0 ∧ lvHB f.lv = 0 ∧ lvRel f.lv ≠ 1 ∧ lvRel f.lv ≠ 2)

/-- Field ranges of the layout VE. -/
def VE.wf (f : VE) : Bool :=
  decide (f.g < 8 ∧ f.ty < 8 ∧ f.xd < 32 ∧ f.va < 32 ∧ f.xb < 32) &&
    decide (f.lv < 256 ∧ lvQ f.lv = 0 ∧ lvHD f.lv = 0 ∧ lvHB f.lv = 0 ∧ lvRel f.lv ≠ 2 ∧ lvRel f.lv ≠ 3)

/-- Field ranges of the layout VAX. -/
def VAX.wf (f : VAX) : Bool :=
  decide (f.g < 8 ∧ f.ty < 8 ∧ f.vd < 32 ∧ f.va < 32 ∧ f.xb < 32) &&
    decide (f.lv < 256 ∧ lvHB f.lv = 0 ∧ lvRel f.lv ≠ 2)

/-- Field ranges of the layout VL. -/
def VL.wf (f : VL) : Bool :=
  decide (f.g < 8 ∧ f.ty < 8 ∧ f.vd < 32 ∧ f.imm < 1024) &&
    decide (f.lv < 256 ∧ lvHA f.lv = 0 ∧ lvHB f.lv = 0 ∧ lvRel f.lv ≠ 1 ∧ lvRel f.lv ≠ 2 ∧
    (f.ty = 5 → f.imm < 128 ∨ 896 ≤ f.imm))

/-- Field ranges of the layout ML. -/
def ML.wf (f : ML) : Bool :=
  decide (f.g < 8 ∧ f.rd < 32 ∧ f.xa < 32 ∧ f.w < 8) && f.off.wf 8 8

/-- Field ranges of the layout MV. -/
def MV.wf (f : MV) : Bool :=
  decide (f.g < 8 ∧ f.vd < 64 ∧ f.xa < 32 ∧ (f.off.lent = false → f.vd < 32)) && f.off.wf 11 7

/-- Field ranges of the layout MC. -/
def MC.wf (f : MC) : Bool :=
  decide (f.g < 8 ∧ f.rd < 32 ∧ f.xa < 32 ∧ f.fn < 64) && f.off.wf 5 8

/-- Field ranges of the layout MS. -/
def MS.wf (f : MS) : Bool :=
  decide (f.g < 8 ∧ f.rd < 32 ∧ f.xa < 32 ∧ f.xl < 32 ∧ f.fn < 64 ∧ f.n < 4)

/-- Field ranges of the layout MF. -/
def MF.wf (f : MF) : Bool :=
  decide (f.g < 8 ∧ f.fn < 64)

/-- Field ranges of the layout MXF. -/
def MXF.wf (f : MXF) : Bool :=
  decide (f.g < 8 ∧ f.rd < 32 ∧ f.fn < 64)

/-- Field ranges of the layout MX. -/
def MX.wf (f : MX) : Bool :=
  decide (f.g < 8 ∧ f.rd < 32)

/-- Field ranges of the layout MSt. -/
def MSt.wf (f : MSt) : Bool :=
  decide (f.g < 8 ∧ f.rd < 32 ∧ f.fn < 64)

/-- Field ranges of the layout MA. -/
def MA.wf (f : MA) : Bool :=
  decide (f.g < 8 ∧ f.rd < 32 ∧ f.xa < 32 ∧ f.op < 16 ∧ f.fn < 64)

/-- Field ranges of the layout MFs. -/
def MFs.wf (f : MFs) : Bool :=
  decide (f.g < 8 ∧ f.rd < 32 ∧ f.xa < 32 ∧ f.fn < 64 ∧ f.r < 64)

/-- Field ranges of the layout MAF. -/
def MAF.wf (f : MAF) : Bool :=
  decide (f.g < 8 ∧ f.xa < 32 ∧ f.fn < 64)

/-- Field ranges of the layout MTd. -/
def MTd.wf (f : MTd) : Bool :=
  decide (f.g < 8 ∧ f.n < 16 ∧ f.xa < 32) && f.off.wf 9 8

/-- Field ranges of the layout MMm. -/
def MMm.wf (f : MMm) : Bool :=
  decide (f.g < 8 ∧ f.xc < 32 ∧ f.acc < 4 ∧ f.p < 16 ∧ f.q < 16 ∧ f.fn < 64)

/-- Field ranges of the layout MZ. -/
def MZ.wf (f : MZ) : Bool :=
  decide (f.g < 8 ∧ f.acc < 4)

/-- Field ranges of the layout MTa. -/
def MTa.wf (f : MTa) : Bool :=
  decide (f.g < 8 ∧ f.xc < 32 ∧ f.acc < 4 ∧ f.t < 16 ∧ f.fn < 64)

/-- Field ranges of the layout MMs. -/
def MMs.wf (f : MMs) : Bool :=
  decide (f.g < 8 ∧ f.xt < 32 ∧ f.acc < 4 ∧ f.n < 4 ∧ f.ty < 8 ∧ f.fn < 64)

/-- Field ranges of the layout MFp. -/
def MFp.wf (f : MFp) : Bool :=
  decide (f.g < 8 ∧ f.tom < 16 ∧ f.frm < 16)

/-- Field ranges of the layout MFs2. -/
def MFs2.wf (f : MFs2) : Bool :=
  decide (f.g < 8 ∧ f.scope < 8 ∧ f.scope ≤ 4)

/-- A 24-bit rank (R8). -/
def rankWf (r : Nat) : Bool := decide (r < 2 ^ 24)

/-- A plane number of a tile (R21). -/
def planeWf (p : Nat) : Bool := decide (p < 2)

/-- A package number (spec/00_scope.md "Ranks"). -/
def pkgWf (p : Nat) : Bool := decide (p < 4096)

/-- Header fields within Table 4.1. -/
def Msg.wf (m : Msg) : Bool :=
  rankWf m.src && rankWf m.dst &&
  decide (m.group < 256 ∧ m.tag < 65535 ∧ m.len ≤ 16777216 ∧ m.seq < 2 ^ 32 ∧ m.proto < 3 ∧ m.mv < 16 ∧ m.pv < 16 ∧
    m.job < 65536 ∧ (m.proto = 0 → m.payload.length = m.len))

/-- An answer names a rank, a status of Table 4.4 and a code of Table 18.5. -/
def Ack.wf (a : Ack) : Bool := rankWf a.rank && rankWf a.dst && decide (a.job < 65536 ∧ a.status < 8 ∧ a.fcode < 256)

/-- A pull asks for at most a whole message (R73). -/
def Pull.wf (p : Pull) : Bool := rankWf p.rank && rankWf p.dst && decide (p.job < 65536 ∧ p.want ≤ 16777216)

/-- A flit names a vault, a plane of a tile and an 8-bit number (R282). -/
def Flit.wf (f : Flit) : Bool := rankWf f.vault && rankWf f.rank && planeWf f.plane && decide (f.number < 256)

/-- A request: its issuer, flag, partition and virtual address in range. -/
def Req.wf (r : Req) : Bool :=
  rankWf r.rank && planeWf r.plane && rankWf r.vault && pkgWf r.pkg &&
  decide (r.flag < 64 ∧ r.part < 8 ∧ r.va < 2 ^ 64 ∧ r.dpa < 2 ^ 42 ∧ r.mv < 16 ∧ r.pv < 16 ∧ r.number < 256)

/-- A reply to a well-formed request. -/
def Reply.wf (p : Reply) : Bool := p.req.wf && rankWf p.home && decide (p.status < 8 ∧ p.fcode < 256)

/-- A step of a search names two vaults. -/
def QStep.wf (q : QStep) : Bool := rankWf q.home && rankWf q.vault

/-- A host AtomicOp of R109: FetchAdd and Swap of 4 or 8 bytes, CAS of 4, 8 or 16 bytes, naturally aligned. -/
def HostAtom.wf (h : HostAtom) : Bool :=
  pkgWf h.pkg && decide (h.part < 8 ∧ h.va < 2 ^ 48 ∧ h.va % h.w = 0 ∧
    ((h.op = 0 ∨ h.op = 8) ∧ (h.w = 4 ∨ h.w = 8) ∨ h.op = 9 ∧ (h.w = 4 ∨ h.w = 8 ∨ h.w = 16)))

/-- A command's operands are 64-bit values (R331). -/
def Cmd.wf (c : Cmd) : Bool :=
  pkgWf c.pkg && decide (c.tag < 65536 ∧ c.a < 2 ^ 64 ∧ c.b < 2 ^ 64 ∧ c.c < 2 ^ 64 ∧ c.d < 2 ^ 64)

/-- A question names a flag of a plane. -/
def LmAsk.wf (l : LmAsk) : Bool := rankWf l.rank && planeWf l.plane && decide (l.fn < 64)

/-- Lend header fields (Table 8.1). Lend bits for a slot absent from the mask are refused (Table 8.11). -/
def Lend.wf (h : Lend) : Bool :=
  decide (h.ls < 512 ∧ h.lv < 256 ∧ h.lm < 256 ∧ (h.hs = false → h.ls = 0) ∧ (h.hv = false → h.lv = 0) ∧
    (h.hm = false → h.lm = 0))

/-- The well-formed instructions and steps. -/
def Instr.wf : Instr → Bool
  | .add f => f.wf
  | .sub f => f.wf
  | .and f => f.wf
  | .or f => f.wf
  | .xor f => f.wf
  | .shl f => f.wf
  | .shr f => f.wf
  | .sra f => f.wf
  | .mul f => f.wf
  | .mulh f => f.wf
  | .mulhn f => f.wf
  | .div f => f.wf
  | .divn f => f.wf
  | .rem f => f.wf
  | .remn f => f.wf
  | .min f => f.wf
  | .max f => f.wf
  | .minn f => f.wf
  | .maxn f => f.wf
  | .clz f => f.wf
  | .popc f => f.wf
  | .sel f => f.wf
  | .yield f => f.wf && decide (1 ≤ f.imm.raw)
  | .addi f => f.wf
  | .andi f => f.wf
  | .ori f => f.wf
  | .xori f => f.wf
  | .shli f => f.wf && decide (f.imm.raw ≤ 63)
  | .shri f => f.wf && decide (f.imm.raw ≤ 63)
  | .srai f => f.wf && decide (f.imm.raw ≤ 63)
  | .limm f => f.wf
  | .limms f => f.wf && decide (f.imm.raw ≤ 65535)
  | .cmpEq f => f.wf && decide ((f.rd = 2 ∨ f.rd = 4 ∨ f.rd = 6))
  | .cmpLt f => f.wf && decide ((f.rd = 2 ∨ f.rd = 4 ∨ f.rd = 6))
  | .cmpLtn f => f.wf && decide ((f.rd = 2 ∨ f.rd = 4 ∨ f.rd = 6))
  | .cmpLe f => f.wf && decide ((f.rd = 2 ∨ f.rd = 4 ∨ f.rd = 6))
  | .cmpLen f => f.wf && decide ((f.rd = 2 ∨ f.rd = 4 ∨ f.rd = 6))
  | .cmpiEq f => f.wf && decide ((f.rd = 2 ∨ f.rd = 4 ∨ f.rd = 6))
  | .cmpiLt f => f.wf && decide ((f.rd = 2 ∨ f.rd = 4 ∨ f.rd = 6))
  | .cmpiLe f => f.wf && decide ((f.rd = 2 ∨ f.rd = 4 ∨ f.rd = 6))
  | .pand f => f.wf
  | .por f => f.wf
  | .pxor f => f.wf
  | .pmov f => f.wf
  | .ixset f => f.wf
  | .ixadd f => f.wf
  | .ixget f => f.wf
  | .br f => f.wf
  | .bri f => f.wf
  | .call f => f.wf
  | .ret f => f.wf
  | .loop f => f.wf && decide (1 ≤ f.rd)
  | .exit f => f.wf
  | .arrive f => f.wf
  | .wait f => f.wf
  | .waitf f => f.wf
  | .hbeat f => f.wf
  | .csrr f => f.wf
  | .csrw f => f.wf
  | .trap f => f.wf
  | .moncall f => f.wf
  | .tret f => f.wf
  | .planesw f => f.wf
  | .ctxsave f => f.wf
  | .ctxload f => f.wf
  | .tlbinv f => f.wf
  | .fenceall f => f.wf
  | .divert f => f.wf
  | .resume f => f.wf
  | .lendHeader h => h.wf
  | .idleHeader _ n => decide (n < 2 ^ 25)
  | .vadd f => f.wf && (tyF f.ty || tyI f.ty)
  | .vsub f => f.wf && (tyF f.ty || tyI f.ty)
  | .vmul f => f.wf && (tyF f.ty || tyI f.ty)
  | .vfma f => f.wf && (tyF f.ty || tyI f.ty)
  | .vfms f => f.wf && (tyF f.ty || tyI f.ty)
  | .vmin f => f.wf && (tyF f.ty || tyI f.ty)
  | .vmax f => f.wf && (tyF f.ty || tyI f.ty)
  | .vminn f => f.wf && tyI f.ty
  | .vmaxn f => f.wf && tyI f.ty
  | .vabs f => f.wf
  | .vneg f => f.wf
  | .vdiv f => f.wf && tyF f.ty
  | .vsqrt f => f.wf && tyF f.ty
  | .vrcp f => f.wf && tyF f.ty
  | .vrsq f => f.wf && tyF f.ty
  | .vexp2 f => f.wf && tyF f.ty
  | .vand f => f.wf
  | .vor f => f.wf
  | .vxor f => f.wf
  | .vshl f => f.wf && tyI f.ty
  | .vshr f => f.wf && tyI f.ty
  | .vsra f => f.wf && tyI f.ty
  | .vcmpEq f => f.wf && (tyF f.ty || tyI f.ty)
  | .vcmpLt f => f.wf && (tyF f.ty || tyI f.ty)
  | .vcmpLe f => f.wf && (tyF f.ty || tyI f.ty)
  | .vcmpLtn f => f.wf && tyI f.ty
  | .vcmpUn f => f.wf && tyF f.ty
  | .vsel f => f.wf
  | .vcvt f => f.wf
  | .vmov f => f.wf
  | .vbcast f => f.wf
  | .vins f => f.wf
  | .vext f => f.wf
  | .vperm f => f.wf
  | .vshuf2 f => f.wf
  | .vrot f => f.wf
  | .vslide f => f.wf
  | .vredadd f => f.wf && (tyF f.ty || tyI f.ty)
  | .vredmax f => f.wf && (tyF f.ty || tyI f.ty)
  | .vredmin f => f.wf && (tyF f.ty || tyI f.ty)
  | .vdot4 f => f.wf && decide (5 ≤ f.ty)
  | .vidx f => f.wf && tyI f.ty
  | .vclass f => f.wf && (tyF f.ty || tyE f.ty)
  | .vpopc f => f.wf
  | .vlimm f => f.wf && (tyF f.ty || tyI f.ty)
  | .ld f => f.wf && decide (f.w ≤ 6)
  | .st f => f.wf && decide (f.w ≤ 3)
  | .vld f => f.wf
  | .vst f => f.wf
  | .vlds f => f.wf
  | .vsts f => f.wf
  | .vgath f => f.wf && decide (f.vd % 2 = 0)
  | .vscat f => f.wf && decide (f.vd % 2 = 0)
  | .copy f => f.wf && decide (f.rd = 0)
  | .copym f => f.wf
  | .copyq f => f.wf && decide (f.rd ≠ f.fn)
  | .copyx f => f.wf && decide (f.rd = 0)
  | .send f => f.wf && decide (f.n = 0)
  | .sendr f => f.wf
  | .sendm f => f.wf && decide (f.n = 0)
  | .recv f => f.wf && decide (f.n = 0)
  | .recvf f => f.wf
  | .rcancel f => f.wf
  | .probe f => f.wf
  | .mstat f => f.wf
  | .get f => f.wf && decide (f.n = 0)
  | .put f => f.wf && decide (f.n = 0)
  | .atom f => f.wf
  | .red f => f.wf
  | .redf f => f.wf && decide (f.n = 0)
  | .fship f => f.wf
  | .query f => f.wf
  | .tdset f => f.wf
  | .mma f => f.wf
  | .mzero f => f.wf
  | .mldacc f => f.wf && decide (f.sat = false)
  | .mstacc f => f.wf
  | .msend f => f.wf
  | .fenceP f => f.wf
  | .fenceS f => f.wf
  | .lease f => f.wf
  | .unlease f => f.wf
  | .leaseq f => f.wf
  | .slotq f => f.wf
  | .flclr f => f.wf
  | .flset f => f.wf
  | .monitorWatchdogExpiry rank => rankWf rank
  | .hbmiss rank => rankWf rank
  | .dualTimeout rank plane => rankWf rank && planeWf plane
  | .messageArrival m => m.wf
  | .refusalArrival a => a.wf
  | .sendRetry a => a.wf
  | .abandon m => m.wf
  | .pullRequest p => p.wf
  | .deliveryComplete rank plane _ => rankWf rank && planeWf plane
  | .sendAcknowledgement a => a.wf
  | .discardNotice a => a.wf
  | .fenceNotice fenced tile => rankWf fenced && rankWf tile
  | .arriveSignalRelease rank plane => rankWf rank && planeWf plane
  | .barrierPhaseComplete _ group => decide (group < 4)
  | .conflictNotice rank plane number => rankWf rank && planeWf plane && decide (number < 256)
  | .escrowDrainEnd rank plane => rankWf rank && planeWf plane
  | .releaseFlit f => f.wf
  | .releaseFlitAck f => f.wf
  | .vaultGet r => r.wf
  | .vaultPut r => r.wf
  | .vaultAtom r => r.wf
  | .vaultRed r => r.wf
  | .vaultRedf r => r.wf
  | .vaultFship r => r.wf
  | .vaultQuery r => r.wf
  | .hopRequest q => q.wf
  | .distanceRequest q => q.wf
  | .querySearchEnd home _ => rankWf home
  | .vaultReply p => p.wf
  | .rnrRetry r => r.wf
  | .hostAtomic h => h.wf
  | .hostCompletionTimeout r => r.wf
  | .pageWalkEnd r => r.wf
  | .copyStart rank plane ch => rankWf rank && planeWf plane && decide (ch < 4)
  | .copyComplete rank plane ch => rankWf rank && planeWf plane && decide (ch < 4)
  | .mmaStep rank plane bad => rankWf rank && planeWf plane && decide (bad < 3)
  | .matrixOpComplete rank plane => rankWf rank && planeWf plane
  | .msendSnapshot rank plane => rankWf rank && planeWf plane
  | .preemptInterrupt rank plane => rankWf rank && planeWf plane
  | .preempt rank => rankWf rank
  | .cancelInterrupt rank plane _ => rankWf rank && planeWf plane
  | .spillHeadReadmit rank plane => rankWf rank && planeWf plane
  | .taskEnd rank plane => rankWf rank && planeWf plane
  | .planeFree rank plane => rankWf rank && planeWf plane
  | .placementDecision pkg die => pkgWf pkg && decide (die < 4)
  | .loadComplete rank plane => rankWf rank && planeWf plane
  | .windowStart rank => rankWf rank
  | .graphNodeEval pkg _ => pkgWf pkg
  | .leaseServe pkg => pkgWf pkg
  | .leaseRetuneEnd pkg _ => pkgWf pkg
  | .leaseExpiry pkg _ => pkgWf pkg
  | .leaseRevocation pkg donor => pkgWf pkg && decide (1 ≤ donor ∧ donor < 32)
  | .slotStart pkg slot => pkgWf pkg && decide (slot < 64)
  | .modeSwitch pkg => pkgWf pkg
  | .podTimeBeacon pkg _ => pkgWf pkg
  | .crcReplay pkg lane => pkgWf pkg && decide (lane < 1024)
  | .transportAbandon a => a.wf
  | .refreshTakeover pkg stack => pkgWf pkg && decide (stack < 8)
  | .smcRestart pkg stack _ => pkgWf pkg && decide (stack < 8)
  | .smcup pkg stack => pkgWf pkg && decide (stack < 8)
  | .refreshSplit vault => rankWf vault
  | .pageMove pkg hot cold => pkgWf pkg && decide (hot < 2 ^ 23) && decide (cold < 2 ^ 23)
  | .pageMoveEnd pkg hot cold => pkgWf pkg && decide (hot < 2 ^ 23) && decide (cold < 2 ^ 23)
  | .fieldTest pkg entry _ => pkgWf pkg && decide (entry < 2376)
  | .spareRepair pkg entry => pkgWf pkg && decide (entry < 2376)
  | .throttle pkg _ _ => pkgWf pkg
  | .thermtrip pkg _ => pkgWf pkg
  | .powerOn pkg failStep _ => pkgWf pkg && decide (failStep < 6)
  | .powerLoss pkg => pkgWf pkg
  | .doorbell pkg _ => pkgWf pkg
  | .ringReinit pkg _ _ _ _ => pkgWf pkg
  | .jobrun c => c.wf
  | .countq c => c.wf
  | .cancel c => c.wf
  | .resync c => c.wf
  | .tlbinvCommand c => c.wf
  | .partset c => c.wf
  | .cfgrd c => c.wf
  | .cfgwr c => c.wf
  | .healthrd c => c.wf
  | .bbread c => c.wf
  | .testnow c => c.wf
  | .fence c => c.wf
  | .reset c => c.wf
  | .slottedSet pkg value => pkgWf pkg && decide (value < 2 ^ 128)
  | .slottedClear pkg value => pkgWf pkg && decide (value < 2 ^ 128)
  | .slotTableWrite pkg _ value => pkgWf pkg && decide (value < 2 ^ 128)
  | .rangeEntryWrite pkg p _ value => pkgWf pkg && decide (p < 8) && decide (value < 2 ^ 128)
  | .routineEntryWrite pkg vault _ value => pkgWf pkg && rankWf vault && decide (value < 2 ^ 128)
  | .ptrootWrite pkg p value => pkgWf pkg && decide (p < 8) && decide (value < 2 ^ 128)
  | .replaceClear pkg => pkgWf pkg
  | .plimitWrite pkg value => pkgWf pkg && decide (value < 2 ^ 128)
  | .lseedWrite pkg die value => pkgWf pkg && decide (die < 4) && decide (value < 2 ^ 128)
  | .srseedWrite rank plane value => rankWf rank && planeWf plane && decide (value < 2 ^ 128)
  | .scancelWrite rank value => rankWf rank && decide (value < 2 ^ 96)
  | .txvalWrite rank value => rankWf rank && decide (value < 2 ^ 128)
  | .registerWrite pkg _ value => pkgWf pkg && decide (value < 2 ^ 128)
  | .watermarkAdvance rank plane ch => rankWf rank && planeWf plane && decide (ch < 4)
  | .payloadLineLands rank plane _ => rankWf rank && planeWf plane
  | .hostWindowRequest r => r.wf
  | .pcieCompletion r => r.wf
  | .laneManagerAnswer l => l.wf
  | .limitWindowEnd pkg _ => pkgWf pkg

end Sys2Proof
end

