-- ==== Sys2Proof/Decode.lean ====
section
/-! DEFINITION. The encodings of spec/08_encoding.md and of the instruction chapters, in both directions. The encoder
gives a well-formed instruction's word and the bits a header lends it. The decoder reads a candidate from the opcode
maps (R164 to R167) and accepts it exactly when the candidate is well formed and its own encoding is the word that was
read, so that a nonzero reserved or unnamed field, or a lend bit the word does not use, is rejected (R168). -/

namespace Sys2Proof

/-- Why a word is no instruction (Table 8.11). -/
inductive DecErr where
  /-- unassigned op6, op7 or SYS sub-operation -/
  | unassigned
  /-- a field outside the range its description gives -/
  | operandRange
  /-- a nonzero reserved or unnamed field, a last-use mark on no register, or lend bits the word does not use -/
  | reservedField
  /-- the words end before the instruction does -/
  | tooShort
  /-- an operand byte list that is no whole number of words -/
  | notAWord
  deriving DecidableEq, Repr

/-- Bits [lo+n-1:lo] of a word. -/
def bitsOf (w lo n : Nat) : Nat := w / 2 ^ lo % 2 ^ n

/-- Bit lo of a word. -/
def bitOf (w lo : Nat) : Bool := decide (w / 2 ^ lo % 2 = 1)

/-- An immediate read from the low field and the lend bits (R157). -/
def immOf (w lo n : Nat) (l : Option Nat) : Imm :=
  { lent := l.isSome, raw := l.getD 0 * 2 ^ n + bitsOf w lo n }

/-- The low n bits of an immediate, as the word holds them. -/
def Imm.low (n : Nat) (i : Imm) : Nat := i.raw % 2 ^ n

/-- The lend bits of an immediate whose word holds n bits. -/
def Imm.lend (n : Nat) (i : Imm) : Option Nat := if i.lent then some (i.raw / 2 ^ n) else none

/-- The lend bits of a V word: a header is used when some LENDV bit is set (R172). -/
def lvLend (lv : Nat) : Option Nat := if lv = 0 then none else some lv

/-- The fields of layout R3, read from a word. -/
def R3.read (w : Nat) : R3 :=
  { g := bitsOf w 27 3, rd := bitsOf w 16 5, ra := bitsOf w 11 5, rb := bitsOf w 6 5, la := bitOf w 5, lb := bitOf w 4 }

/-- The fields of layout R3, placed in a word. -/
def R3.place (f : R3) : Nat :=
  f.g * 2 ^ 27 + f.rd * 2 ^ 16 + f.ra * 2 ^ 11 + f.rb * 2 ^ 6 + f.la.toNat * 2 ^ 5 + f.lb.toNat * 2 ^ 4

/-- The fields of layout R2, read from a word. -/
def R2.read (w : Nat) : R2 :=
  { g := bitsOf w 27 3, rd := bitsOf w 16 5, ra := bitsOf w 11 5, la := bitOf w 5 }

/-- The fields of layout R2, placed in a word. -/
def R2.place (f : R2) : Nat :=
  f.g * 2 ^ 27 + f.rd * 2 ^ 16 + f.ra * 2 ^ 11 + f.la.toNat * 2 ^ 5

/-- The fields of layout RSel, read from a word. -/
def RSel.read (w : Nat) : RSel :=
  { g := bitsOf w 27 3, rd := bitsOf w 16 5, ra := bitsOf w 11 5, rb := bitsOf w 6 5, la := bitOf w 5, lb := bitOf w 4, pa := bitsOf w 0 3 }

/-- The fields of layout RSel, placed in a word. -/
def RSel.place (f : RSel) : Nat :=
  f.g * 2 ^ 27 + f.rd * 2 ^ 16 + f.ra * 2 ^ 11 + f.rb * 2 ^ 6 + f.la.toNat * 2 ^ 5 + f.lb.toNat * 2 ^ 4 + f.pa * 2 ^ 0

/-- The fields of layout RA, read from a word. -/
def RA.read (w : Nat) : RA :=
  { g := bitsOf w 27 3, ra := bitsOf w 11 5, la := bitOf w 5 }

/-- The fields of layout RA, placed in a word. -/
def RA.place (f : RA) : Nat :=
  f.g * 2 ^ 27 + f.ra * 2 ^ 11 + f.la.toNat * 2 ^ 5

/-- The fields of layout RAB, read from a word. -/
def RAB.read (w : Nat) : RAB :=
  { g := bitsOf w 27 3, ra := bitsOf w 11 5, rb := bitsOf w 6 5, la := bitOf w 5, lb := bitOf w 4 }

/-- The fields of layout RAB, placed in a word. -/
def RAB.place (f : RAB) : Nat :=
  f.g * 2 ^ 27 + f.ra * 2 ^ 11 + f.rb * 2 ^ 6 + f.la.toNat * 2 ^ 5 + f.lb.toNat * 2 ^ 4

/-- The fields of layout G0, read from a word. -/
def G0.read (w : Nat) : G0 :=
  { g := bitsOf w 27 3 }

/-- The fields of layout G0, placed in a word. -/
def G0.place (f : G0) : Nat :=
  f.g * 2 ^ 27

/-- The fields of layout I3, read from a word and its lend bits. -/
def I3.read (w : Nat) (l : Option Nat) : I3 :=
  { g := bitsOf w 27 3, rd := bitsOf w 16 5, ra := bitsOf w 11 5, la := bitOf w 10, imm := immOf w 0 10 l }

/-- The fields of layout I3, placed in a word. -/
def I3.place (f : I3) : Nat :=
  f.g * 2 ^ 27 + f.rd * 2 ^ 16 + f.ra * 2 ^ 11 + f.la.toNat * 2 ^ 10 + f.imm.low 10

/-- The lend bits of layout I3. -/
def I3.lend (f : I3) : Option Nat := f.imm.lend 10

/-- The fields of layout ID, read from a word and its lend bits. -/
def ID.read (w : Nat) (l : Option Nat) : ID :=
  { g := bitsOf w 27 3, rd := bitsOf w 16 5, imm := immOf w 0 10 l }

/-- The fields of layout ID, placed in a word. -/
def ID.place (f : ID) : Nat :=
  f.g * 2 ^ 27 + f.rd * 2 ^ 16 + f.imm.low 10

/-- The lend bits of layout ID. -/
def ID.lend (f : ID) : Option Nat := f.imm.lend 10

/-- The fields of layout IU, read from a word and its lend bits. -/
def IU.read (w : Nat) (l : Option Nat) : IU :=
  { g := bitsOf w 27 3, imm := immOf w 0 10 l }

/-- The fields of layout IU, placed in a word. -/
def IU.place (f : IU) : Nat :=
  f.g * 2 ^ 27 + f.imm.low 10

/-- The lend bits of layout IU. -/
def IU.lend (f : IU) : Option Nat := f.imm.lend 10

/-- The fields of layout IX, read from a word and its lend bits. -/
def IX.read (w : Nat) (l : Option Nat) : IX :=
  { g := bitsOf w 27 3, rd := bitsOf w 16 2, imm := immOf w 0 10 l }

/-- The fields of layout IX, placed in a word. -/
def IX.place (f : IX) : Nat :=
  f.g * 2 ^ 27 + f.rd * 2 ^ 16 + f.imm.low 10

/-- The lend bits of layout IX. -/
def IX.lend (f : IX) : Option Nat := f.imm.lend 10

/-- The fields of layout IXG, read from a word. -/
def IXG.read (w : Nat) : IXG :=
  { g := bitsOf w 27 3, rd := bitsOf w 16 5, ra := bitsOf w 11 2 }

/-- The fields of layout IXG, placed in a word. -/
def IXG.place (f : IXG) : Nat :=
  f.g * 2 ^ 27 + f.rd * 2 ^ 16 + f.ra * 2 ^ 11

/-- The fields of layout P3, read from a word. -/
def P3.read (w : Nat) : P3 :=
  { g := bitsOf w 27 3, rd := bitsOf w 16 3, ra := bitsOf w 11 3, rb := bitsOf w 6 3 }

/-- The fields of layout P3, placed in a word. -/
def P3.place (f : P3) : Nat :=
  f.g * 2 ^ 27 + f.rd * 2 ^ 16 + f.ra * 2 ^ 11 + f.rb * 2 ^ 6

/-- The fields of layout P2, read from a word. -/
def P2.read (w : Nat) : P2 :=
  { g := bitsOf w 27 3, rd := bitsOf w 16 3, ra := bitsOf w 11 3 }

/-- The fields of layout P2, placed in a word. -/
def P2.place (f : P2) : Nat :=
  f.g * 2 ^ 27 + f.rd * 2 ^ 16 + f.ra * 2 ^ 11

/-- The fields of layout SB, read from a word and its lend bits. -/
def SB.read (w : Nat) (l : Option Nat) : SB :=
  { g := bitsOf w 27 3, imm := immOf w 0 21 l }

/-- The fields of layout SB, placed in a word. -/
def SB.place (f : SB) : Nat :=
  f.g * 2 ^ 27 + f.imm.low 21

/-- The lend bits of layout SB. -/
def SB.lend (f : SB) : Option Nat := f.imm.lend 21

/-- The fields of layout GB, read from a word. -/
def GB.read (w : Nat) : GB :=
  { g := bitsOf w 27 3, n := bitsOf w 0 2 }

/-- The fields of layout GB, placed in a word. -/
def GB.place (f : GB) : Nat :=
  f.g * 2 ^ 27 + f.n * 2 ^ 0

/-- The fields of layout GF, read from a word. -/
def GF.read (w : Nat) : GF :=
  { g := bitsOf w 27 3, fn := bitsOf w 0 6 }

/-- The fields of layout GF, placed in a word. -/
def GF.place (f : GF) : Nat :=
  f.g * 2 ^ 27 + f.fn * 2 ^ 0

/-- The fields of layout CR, read from a word. -/
def CR.read (w : Nat) : CR :=
  { g := bitsOf w 27 3, rd := bitsOf w 16 5, csr := bitsOf w 0 10 }

/-- The fields of layout CR, placed in a word. -/
def CR.place (f : CR) : Nat :=
  f.g * 2 ^ 27 + f.rd * 2 ^ 16 + f.csr * 2 ^ 0

/-- The fields of layout CW, read from a word. -/
def CW.read (w : Nat) : CW :=
  { g := bitsOf w 27 3, ra := bitsOf w 11 5, la := bitOf w 10, csr := bitsOf w 0 10 }

/-- The fields of layout CW, placed in a word. -/
def CW.place (f : CW) : Nat :=
  f.g * 2 ^ 27 + f.ra * 2 ^ 11 + f.la.toNat * 2 ^ 10 + f.csr * 2 ^ 0

/-- The fields of layout V3, read from a word and its lend bits. -/
def V3.read (w : Nat) (l : Option Nat) : V3 :=
  { g := bitsOf w 27 3, ty := bitsOf w 17 3, vd := bitsOf w 12 5, va := bitsOf w 7 5, vb := bitsOf w 2 5, la := bitOf w 1,
    lb := bitOf w 0, lv := l.getD 0 }

/-- The fields of layout V3, placed in a word. -/
def V3.place (f : V3) : Nat :=
  f.g * 2 ^ 27 + f.ty * 2 ^ 17 + f.vd * 2 ^ 12 + f.va * 2 ^ 7 + f.vb * 2 ^ 2 + f.la.toNat * 2 ^ 1 + f.lb.toNat * 2 ^ 0

/-- The lend bits of layout V3. -/
def V3.lend (f : V3) : Option Nat := lvLend f.lv

/-- The fields of layout VC, read from a word and its lend bits. -/
def VC.read (w : Nat) (l : Option Nat) : VC :=
  { g := bitsOf w 27 3, ty := bitsOf w 17 3, vd := bitsOf w 12 5, va := bitsOf w 7 5, vb := bitsOf w 2 5, la := bitOf w 1,
    lb := bitOf w 0, lv := l.getD 0 }

/-- The fields of layout VC, placed in a word. -/
def VC.place (f : VC) : Nat :=
  f.g * 2 ^ 27 + f.ty * 2 ^ 17 + f.vd * 2 ^ 12 + f.va * 2 ^ 7 + f.vb * 2 ^ 2 + f.la.toNat * 2 ^ 1 + f.lb.toNat * 2 ^ 0

/-- The lend bits of layout VC. -/
def VC.lend (f : VC) : Option Nat := lvLend f.lv

/-- The fields of layout V2, read from a word and its lend bits. -/
def V2.read (w : Nat) (l : Option Nat) : V2 :=
  { g := bitsOf w 27 3, ty := bitsOf w 17 3, vd := bitsOf w 12 5, va := bitsOf w 7 5, la := bitOf w 1, lv := l.getD 0 }

/-- The fields of layout V2, placed in a word. -/
def V2.place (f : V2) : Nat :=
  f.g * 2 ^ 27 + f.ty * 2 ^ 17 + f.vd * 2 ^ 12 + f.va * 2 ^ 7 + f.la.toNat * 2 ^ 1

/-- The lend bits of layout V2. -/
def V2.lend (f : V2) : Option Nat := lvLend f.lv

/-- The fields of layout VCv, read from a word and its lend bits. -/
def VCv.read (w : Nat) (l : Option Nat) : VCv :=
  { g := bitsOf w 27 3, ty := bitsOf w 17 3, vd := bitsOf w 12 5, va := bitsOf w 7 5, dt := bitsOf w 4 3, sat := bitOf w 3,
    alt := bitOf w 2, la := bitOf w 1, lv := l.getD 0 }

/-- The fields of layout VCv, placed in a word. -/
def VCv.place (f : VCv) : Nat :=
  f.g * 2 ^ 27 + f.ty * 2 ^ 17 + f.vd * 2 ^ 12 + f.va * 2 ^ 7 + f.dt * 2 ^ 4 + f.sat.toNat * 2 ^ 3 + f.alt.toNat * 2 ^ 2 + f.la.toNat * 2 ^ 1

/-- The lend bits of layout VCv. -/
def VCv.lend (f : VCv) : Option Nat := lvLend f.lv

/-- The fields of layout VX, read from a word and its lend bits. -/
def VX.read (w : Nat) (l : Option Nat) : VX :=
  { g := bitsOf w 27 3, ty := bitsOf w 17 3, vd := bitsOf w 12 5, xa := bitsOf w 7 5, lv := l.getD 0 }

/-- The fields of layout VX, placed in a word. -/
def VX.place (f : VX) : Nat :=
  f.g * 2 ^ 27 + f.ty * 2 ^ 17 + f.vd * 2 ^ 12 + f.xa * 2 ^ 7

/-- The lend bits of layout VX. -/
def VX.lend (f : VX) : Option Nat := lvLend f.lv

/-- The fields of layout VXX, read from a word and its lend bits. -/
def VXX.read (w : Nat) (l : Option Nat) : VXX :=
  { g := bitsOf w 27 3, ty := bitsOf w 17 3, vd := bitsOf w 12 5, xa := bitsOf w 7 5, xb := bitsOf w 2 5, lv := l.getD 0 }

/-- The fields of layout VXX, placed in a word. -/
def VXX.place (f : VXX) : Nat :=
  f.g * 2 ^ 27 + f.ty * 2 ^ 17 + f.vd * 2 ^ 12 + f.xa * 2 ^ 7 + f.xb * 2 ^ 2

/-- The lend bits of layout VXX. -/
def VXX.lend (f : VXX) : Option Nat := lvLend f.lv

/-- The fields of layout VE, read from a word and its lend bits. -/
def VE.read (w : Nat) (l : Option Nat) : VE :=
  { g := bitsOf w 27 3, ty := bitsOf w 17 3, xd := bitsOf w 12 5, va := bitsOf w 7 5, xb := bitsOf w 2 5, la := bitOf w 1, lv := l.getD 0 }

/-- The fields of layout VE, placed in a word. -/
def VE.place (f : VE) : Nat :=
  f.g * 2 ^ 27 + f.ty * 2 ^ 17 + f.xd * 2 ^ 12 + f.va * 2 ^ 7 + f.xb * 2 ^ 2 + f.la.toNat * 2 ^ 1

/-- The lend bits of layout VE. -/
def VE.lend (f : VE) : Option Nat := lvLend f.lv

/-- The fields of layout VAX, read from a word and its lend bits. -/
def VAX.read (w : Nat) (l : Option Nat) : VAX :=
  { g := bitsOf w 27 3, ty := bitsOf w 17 3, vd := bitsOf w 12 5, va := bitsOf w 7 5, xb := bitsOf w 2 5, la := bitOf w 1, lv := l.getD 0 }

/-- The fields of layout VAX, placed in a word. -/
def VAX.place (f : VAX) : Nat :=
  f.g * 2 ^ 27 + f.ty * 2 ^ 17 + f.vd * 2 ^ 12 + f.va * 2 ^ 7 + f.xb * 2 ^ 2 + f.la.toNat * 2 ^ 1

/-- The lend bits of layout VAX. -/
def VAX.lend (f : VAX) : Option Nat := lvLend f.lv

/-- The fields of layout VL, read from a word and its lend bits. -/
def VL.read (w : Nat) (l : Option Nat) : VL :=
  { g := bitsOf w 27 3, ty := bitsOf w 17 3, vd := bitsOf w 12 5, imm := bitsOf w 2 10, lv := l.getD 0 }

/-- The fields of layout VL, placed in a word. -/
def VL.place (f : VL) : Nat :=
  f.g * 2 ^ 27 + f.ty * 2 ^ 17 + f.vd * 2 ^ 12 + f.imm * 2 ^ 2

/-- The lend bits of layout VL. -/
def VL.lend (f : VL) : Option Nat := lvLend f.lv

/-- The fields of layout ML, read from a word and its lend bits. -/
def ML.read (w : Nat) (l : Option Nat) : ML :=
  { g := bitsOf w 27 3, rd := bitsOf w 16 5, xa := bitsOf w 11 5, w := bitsOf w 8 3, off := immOf w 0 8 l }

/-- The fields of layout ML, placed in a word. -/
def ML.place (f : ML) : Nat :=
  f.g * 2 ^ 27 + f.rd * 2 ^ 16 + f.xa * 2 ^ 11 + f.w * 2 ^ 8 + f.off.low 8

/-- The lend bits of layout ML. -/
def ML.lend (f : ML) : Option Nat := f.off.lend 8

/-- The fields of layout MV, read from a word and its lend bits. -/
def MV.read (w : Nat) (l : Option Nat) : MV :=
  { g := bitsOf w 27 3, vd := (l.getD 0 / 128) * 32 + bitsOf w 16 5, xa := bitsOf w 11 5,
    off := { lent := l.isSome, raw := (l.getD 0 % 128) * 2 ^ 11 + bitsOf w 0 11 } }

/-- The fields of layout MV, placed in a word. -/
def MV.place (f : MV) : Nat :=
  f.g * 2 ^ 27 + f.vd % 32 * 2 ^ 16 + f.xa * 2 ^ 11 + f.off.low 11

/-- The lend bits of layout MV. -/
def MV.lend (f : MV) : Option Nat := if f.off.lent then some (f.vd / 32 * 128 + f.off.raw / 2 ^ 11) else none

/-- The fields of layout MC, read from a word and its lend bits. -/
def MC.read (w : Nat) (l : Option Nat) : MC :=
  { g := bitsOf w 27 3, rd := bitsOf w 16 5, xa := bitsOf w 11 5, fn := bitsOf w 0 6, off := immOf w 6 5 l }

/-- The fields of layout MC, placed in a word. -/
def MC.place (f : MC) : Nat :=
  f.g * 2 ^ 27 + f.rd * 2 ^ 16 + f.xa * 2 ^ 11 + f.fn * 2 ^ 0 + f.off.low 5 * 2 ^ 6

/-- The lend bits of layout MC. -/
def MC.lend (f : MC) : Option Nat := f.off.lend 5

/-- The fields of layout MS, read from a word and its lend bits. -/
def MS.read (w : Nat) (l : Option Nat) : MS :=
  { g := bitsOf w 27 3, rd := bitsOf w 16 5, xa := bitsOf w 11 5, xl := bitsOf w 6 5, fn := bitsOf w 0 6, n := l.getD 0 }

/-- The fields of layout MS, placed in a word. -/
def MS.place (f : MS) : Nat :=
  f.g * 2 ^ 27 + f.rd * 2 ^ 16 + f.xa * 2 ^ 11 + f.xl * 2 ^ 6 + f.fn * 2 ^ 0

/-- The lend bits of layout MS. -/
def MS.lend (f : MS) : Option Nat := lvLend f.n

/-- The fields of layout MF, read from a word. -/
def MF.read (w : Nat) : MF :=
  { g := bitsOf w 27 3, fn := bitsOf w 0 6 }

/-- The fields of layout MF, placed in a word. -/
def MF.place (f : MF) : Nat :=
  f.g * 2 ^ 27 + f.fn * 2 ^ 0

/-- The fields of layout MXF, read from a word. -/
def MXF.read (w : Nat) : MXF :=
  { g := bitsOf w 27 3, rd := bitsOf w 16 5, fn := bitsOf w 0 6 }

/-- The fields of layout MXF, placed in a word. -/
def MXF.place (f : MXF) : Nat :=
  f.g * 2 ^ 27 + f.rd * 2 ^ 16 + f.fn * 2 ^ 0

/-- The fields of layout MX, read from a word. -/
def MX.read (w : Nat) : MX :=
  { g := bitsOf w 27 3, rd := bitsOf w 16 5 }

/-- The fields of layout MX, placed in a word. -/
def MX.place (f : MX) : Nat :=
  f.g * 2 ^ 27 + f.rd * 2 ^ 16

/-- The fields of layout MSt, read from a word. -/
def MSt.read (w : Nat) : MSt :=
  { g := bitsOf w 27 3, rd := bitsOf w 16 5, h := bitOf w 6, fn := bitsOf w 0 6 }

/-- The fields of layout MSt, placed in a word. -/
def MSt.place (f : MSt) : Nat :=
  f.g * 2 ^ 27 + f.rd * 2 ^ 16 + f.h.toNat * 2 ^ 6 + f.fn * 2 ^ 0

/-- The fields of layout MA, read from a word. -/
def MA.read (w : Nat) : MA :=
  { g := bitsOf w 27 3, rd := bitsOf w 16 5, xa := bitsOf w 11 5, op := bitsOf w 7 4, w := bitOf w 6, fn := bitsOf w 0 6 }

/-- The fields of layout MA, placed in a word. -/
def MA.place (f : MA) : Nat :=
  f.g * 2 ^ 27 + f.rd * 2 ^ 16 + f.xa * 2 ^ 11 + f.op * 2 ^ 7 + f.w.toNat * 2 ^ 6 + f.fn * 2 ^ 0

/-- The fields of layout MFs, read from a word and its lend bits. -/
def MFs.read (w : Nat) (l : Option Nat) : MFs :=
  { g := bitsOf w 27 3, rd := bitsOf w 16 5, xa := bitsOf w 11 5, fn := bitsOf w 0 6, r := l.getD 0 }

/-- The fields of layout MFs, placed in a word. -/
def MFs.place (f : MFs) : Nat :=
  f.g * 2 ^ 27 + f.rd * 2 ^ 16 + f.xa * 2 ^ 11 + f.fn * 2 ^ 0

/-- The lend bits of layout MFs. -/
def MFs.lend (f : MFs) : Option Nat := lvLend f.r

/-- The fields of layout MAF, read from a word. -/
def MAF.read (w : Nat) : MAF :=
  { g := bitsOf w 27 3, xa := bitsOf w 11 5, fn := bitsOf w 0 6 }

/-- The fields of layout MAF, placed in a word. -/
def MAF.place (f : MAF) : Nat :=
  f.g * 2 ^ 27 + f.xa * 2 ^ 11 + f.fn * 2 ^ 0

/-- The fields of layout MTd, read from a word and its lend bits. -/
def MTd.read (w : Nat) (l : Option Nat) : MTd :=
  { g := bitsOf w 27 3, n := bitsOf w 16 4, xa := bitsOf w 11 5, er := bitOf w 10, ec := bitOf w 9, off := immOf w 0 9 l }

/-- The fields of layout MTd, placed in a word. -/
def MTd.place (f : MTd) : Nat :=
  f.g * 2 ^ 27 + f.n * 2 ^ 16 + f.xa * 2 ^ 11 + f.er.toNat * 2 ^ 10 + f.ec.toNat * 2 ^ 9 + f.off.low 9

/-- The lend bits of layout MTd. -/
def MTd.lend (f : MTd) : Option Nat := f.off.lend 9

/-- The fields of layout MMm, read from a word. -/
def MMm.read (w : Nat) : MMm :=
  { g := bitsOf w 27 3, xc := bitsOf w 16 5, acc := bitsOf w 14 2, p := bitsOf w 10 4, q := bitsOf w 6 4, fn := bitsOf w 0 6 }

/-- The fields of layout MMm, placed in a word. -/
def MMm.place (f : MMm) : Nat :=
  f.g * 2 ^ 27 + f.xc * 2 ^ 16 + f.acc * 2 ^ 14 + f.p * 2 ^ 10 + f.q * 2 ^ 6 + f.fn * 2 ^ 0

/-- The fields of layout MZ, read from a word. -/
def MZ.read (w : Nat) : MZ :=
  { g := bitsOf w 27 3, acc := bitsOf w 14 2, mode := bitOf w 13 }

/-- The fields of layout MZ, placed in a word. -/
def MZ.place (f : MZ) : Nat :=
  f.g * 2 ^ 27 + f.acc * 2 ^ 14 + f.mode.toNat * 2 ^ 13

/-- The fields of layout MTa, read from a word. -/
def MTa.read (w : Nat) : MTa :=
  { g := bitsOf w 27 3, xc := bitsOf w 16 5, acc := bitsOf w 14 2, t := bitsOf w 10 4, sat := bitOf w 9, fn := bitsOf w 0 6 }

/-- The fields of layout MTa, placed in a word. -/
def MTa.place (f : MTa) : Nat :=
  f.g * 2 ^ 27 + f.xc * 2 ^ 16 + f.acc * 2 ^ 14 + f.t * 2 ^ 10 + f.sat.toNat * 2 ^ 9 + f.fn * 2 ^ 0

/-- The fields of layout MMs, read from a word. -/
def MMs.read (w : Nat) : MMs :=
  { g := bitsOf w 27 3, xt := bitsOf w 16 5, acc := bitsOf w 14 2, n := bitsOf w 12 2, ty := bitsOf w 8 3, sat := bitOf w 7, fn := bitsOf w 0 6 }

/-- The fields of layout MMs, placed in a word. -/
def MMs.place (f : MMs) : Nat :=
  f.g * 2 ^ 27 + f.xt * 2 ^ 16 + f.acc * 2 ^ 14 + f.n * 2 ^ 12 + f.ty * 2 ^ 8 + f.sat.toNat * 2 ^ 7 + f.fn * 2 ^ 0

/-- The fields of layout MFp, read from a word. -/
def MFp.read (w : Nat) : MFp :=
  { g := bitsOf w 27 3, tom := bitsOf w 4 4, frm := bitsOf w 0 4 }

/-- The fields of layout MFp, placed in a word. -/
def MFp.place (f : MFp) : Nat :=
  f.g * 2 ^ 27 + f.tom * 2 ^ 4 + f.frm * 2 ^ 0

/-- The fields of layout MFs2, read from a word. -/
def MFs2.read (w : Nat) : MFs2 :=
  { g := bitsOf w 27 3, scope := bitsOf w 0 3 }

/-- The fields of layout MFs2, placed in a word. -/
def MFs2.place (f : MFs2) : Nat :=
  f.g * 2 ^ 27 + f.scope * 2 ^ 0

/-- The lend header's word (Table 8.1). -/
def Lend.word (h : Lend) : Nat :=
  3 * 2 ^ 30 + h.hs.toNat * 2 ^ 28 + h.hv.toNat * 2 ^ 27 + h.hm.toNat * 2 ^ 26 + h.y.toNat * 2 ^ 25 + h.ls * 2 ^ 16 +
    h.lv * 2 ^ 8 + h.lm

/-- The lend header read from a word (Table 8.1). -/
def Lend.read (w : Nat) : Lend :=
  { hs := bitOf w 28, hv := bitOf w 27, hm := bitOf w 26, y := bitOf w 25, ls := bitsOf w 16 9, lv := bitsOf w 8 8,
    lm := bitsOf w 0 8 }

/-- An S word from its op6 and placed fields (Table 8.3). -/
def sWord (op fields : Nat) : Nat := op * 2 ^ 21 + fields

/-- A SYS word from its sub-operation and placed fields (Table 9.10). -/
def sysWord (sub fields : Nat) : Nat := 0x3F * 2 ^ 21 + sub + fields

/-- A V word from its op7 and placed fields (Table 8.4). -/
def vWord (op fields : Nat) : Nat := 1 * 2 ^ 30 + op * 2 ^ 20 + fields

/-- An M word from its op6 and placed fields (Table 8.6). -/
def mWord (op fields : Nat) : Nat := 2 * 2 ^ 30 + op * 2 ^ 21 + fields

/-- The word of an instruction, without the header that lends it bits; 0 for a step that has no word. -/
def Instr.word : Instr → Nat
  | .add f => sWord 0 f.place
  | .sub f => sWord 1 f.place
  | .and f => sWord 2 f.place
  | .or f => sWord 3 f.place
  | .xor f => sWord 4 f.place
  | .shl f => sWord 5 f.place
  | .shr f => sWord 6 f.place
  | .sra f => sWord 7 f.place
  | .mul f => sWord 8 f.place
  | .mulh f => sWord 9 f.place
  | .mulhn f => sWord 10 f.place
  | .div f => sWord 11 f.place
  | .divn f => sWord 12 f.place
  | .rem f => sWord 13 f.place
  | .remn f => sWord 14 f.place
  | .min f => sWord 15 f.place
  | .max f => sWord 16 f.place
  | .minn f => sWord 17 f.place
  | .maxn f => sWord 18 f.place
  | .clz f => sWord 19 f.place
  | .popc f => sWord 20 f.place
  | .sel f => sWord 21 f.place
  | .yield f => sWord 22 f.place
  | .addi f => sWord 23 f.place
  | .andi f => sWord 24 f.place
  | .ori f => sWord 25 f.place
  | .xori f => sWord 26 f.place
  | .shli f => sWord 27 f.place
  | .shri f => sWord 28 f.place
  | .srai f => sWord 29 f.place
  | .limm f => sWord 30 f.place
  | .limms f => sWord 31 f.place
  | .cmpEq f => sWord 32 f.place
  | .cmpLt f => sWord 33 f.place
  | .cmpLtn f => sWord 34 f.place
  | .cmpLe f => sWord 35 f.place
  | .cmpLen f => sWord 36 f.place
  | .cmpiEq f => sWord 37 f.place
  | .cmpiLt f => sWord 38 f.place
  | .cmpiLe f => sWord 39 f.place
  | .pand f => sWord 40 f.place
  | .por f => sWord 41 f.place
  | .pxor f => sWord 42 f.place
  | .pmov f => sWord 43 f.place
  | .ixset f => sWord 44 f.place
  | .ixadd f => sWord 45 f.place
  | .ixget f => sWord 46 f.place
  | .br f => sWord 48 f.place
  | .bri f => sWord 49 f.place
  | .call f => sWord 50 f.place
  | .ret f => sWord 51 f.place
  | .loop f => sWord 52 f.place
  | .exit f => sWord 53 f.place
  | .arrive f => sWord 54 f.place
  | .wait f => sWord 55 f.place
  | .waitf f => sWord 56 f.place
  | .hbeat f => sWord 57 f.place
  | .csrr f => sWord 58 f.place
  | .csrw f => sWord 59 f.place
  | .trap f => sWord 60 f.place
  | .moncall f => sWord 61 f.place
  | .tret f => sysWord 0 f.place
  | .planesw f => sysWord 1 f.place
  | .ctxsave f => sysWord 2 f.place
  | .ctxload f => sysWord 3 f.place
  | .tlbinv f => sysWord 4 f.place
  | .fenceall f => sysWord 5 f.place
  | .divert f => sysWord 6 f.place
  | .resume f => sysWord 7 f.place
  | .lendHeader h => h.word
  | .idleHeader y n => 7 * 2 ^ 29 + y.toNat * 2 ^ 25 + n
  | .vadd f => vWord 0 f.place
  | .vsub f => vWord 1 f.place
  | .vmul f => vWord 2 f.place
  | .vfma f => vWord 3 f.place
  | .vfms f => vWord 4 f.place
  | .vmin f => vWord 5 f.place
  | .vmax f => vWord 6 f.place
  | .vminn f => vWord 7 f.place
  | .vmaxn f => vWord 8 f.place
  | .vabs f => vWord 9 f.place
  | .vneg f => vWord 10 f.place
  | .vdiv f => vWord 11 f.place
  | .vsqrt f => vWord 12 f.place
  | .vrcp f => vWord 13 f.place
  | .vrsq f => vWord 14 f.place
  | .vexp2 f => vWord 15 f.place
  | .vand f => vWord 16 f.place
  | .vor f => vWord 17 f.place
  | .vxor f => vWord 18 f.place
  | .vshl f => vWord 19 f.place
  | .vshr f => vWord 20 f.place
  | .vsra f => vWord 21 f.place
  | .vcmpEq f => vWord 24 f.place
  | .vcmpLt f => vWord 25 f.place
  | .vcmpLe f => vWord 26 f.place
  | .vcmpLtn f => vWord 27 f.place
  | .vcmpUn f => vWord 28 f.place
  | .vsel f => vWord 29 f.place
  | .vcvt f => vWord 32 f.place
  | .vmov f => vWord 33 f.place
  | .vbcast f => vWord 34 f.place
  | .vins f => vWord 35 f.place
  | .vext f => vWord 36 f.place
  | .vperm f => vWord 37 f.place
  | .vshuf2 f => vWord 38 f.place
  | .vrot f => vWord 39 f.place
  | .vslide f => vWord 40 f.place
  | .vredadd f => vWord 48 f.place
  | .vredmax f => vWord 49 f.place
  | .vredmin f => vWord 50 f.place
  | .vdot4 f => vWord 56 f.place
  | .vidx f => vWord 57 f.place
  | .vclass f => vWord 58 f.place
  | .vpopc f => vWord 59 f.place
  | .vlimm f => vWord 60 f.place
  | .ld f => mWord 0 f.place
  | .st f => mWord 1 f.place
  | .vld f => mWord 2 f.place
  | .vst f => mWord 3 f.place
  | .vlds f => mWord 4 f.place
  | .vsts f => mWord 5 f.place
  | .vgath f => mWord 6 f.place
  | .vscat f => mWord 7 f.place
  | .copy f => mWord 16 f.place
  | .copym f => mWord 17 f.place
  | .copyq f => mWord 18 f.place
  | .copyx f => mWord 19 f.place
  | .send f => mWord 24 f.place
  | .sendr f => mWord 25 f.place
  | .sendm f => mWord 26 f.place
  | .recv f => mWord 27 f.place
  | .recvf f => mWord 28 f.place
  | .rcancel f => mWord 29 f.place
  | .probe f => mWord 30 f.place
  | .mstat f => mWord 31 f.place
  | .get f => mWord 32 f.place
  | .put f => mWord 33 f.place
  | .atom f => mWord 34 f.place
  | .red f => mWord 35 f.place
  | .redf f => mWord 36 f.place
  | .fship f => mWord 37 f.place
  | .query f => mWord 38 f.place
  | .tdset f => mWord 40 f.place
  | .mma f => mWord 41 f.place
  | .mzero f => mWord 42 f.place
  | .mldacc f => mWord 43 f.place
  | .mstacc f => mWord 44 f.place
  | .msend f => mWord 45 f.place
  | .fenceP f => mWord 48 f.place
  | .fenceS f => mWord 49 f.place
  | .lease f => mWord 50 f.place
  | .unlease f => mWord 51 f.place
  | .leaseq f => mWord 52 f.place
  | .slotq f => mWord 53 f.place
  | .flclr f => mWord 54 f.place
  | .flset f => mWord 55 f.place
  | .monitorWatchdogExpiry _ => 0
  | .hbmiss _ => 0
  | .dualTimeout _ _ => 0
  | .messageArrival _ => 0
  | .refusalArrival _ => 0
  | .sendRetry _ => 0
  | .abandon _ => 0
  | .pullRequest _ => 0
  | .deliveryComplete _ _ _ => 0
  | .sendAcknowledgement _ => 0
  | .discardNotice _ => 0
  | .fenceNotice _ _ => 0
  | .arriveSignalRelease _ _ => 0
  | .barrierPhaseComplete _ _ => 0
  | .conflictNotice _ _ _ => 0
  | .escrowDrainEnd _ _ => 0
  | .releaseFlit _ => 0
  | .releaseFlitAck _ => 0
  | .vaultGet _ => 0
  | .vaultPut _ => 0
  | .vaultAtom _ => 0
  | .vaultRed _ => 0
  | .vaultRedf _ => 0
  | .vaultFship _ => 0
  | .vaultQuery _ => 0
  | .hopRequest _ => 0
  | .distanceRequest _ => 0
  | .querySearchEnd _ _ => 0
  | .vaultReply _ => 0
  | .rnrRetry _ => 0
  | .hostAtomic _ => 0
  | .hostCompletionTimeout _ => 0
  | .pageWalkEnd _ => 0
  | .copyStart _ _ _ => 0
  | .copyComplete _ _ _ => 0
  | .mmaStep _ _ _ => 0
  | .matrixOpComplete _ _ => 0
  | .msendSnapshot _ _ => 0
  | .preemptInterrupt _ _ => 0
  | .preempt _ => 0
  | .cancelInterrupt _ _ _ => 0
  | .spillHeadReadmit _ _ => 0
  | .taskEnd _ _ => 0
  | .planeFree _ _ => 0
  | .placementDecision _ _ => 0
  | .loadComplete _ _ => 0
  | .windowStart _ => 0
  | .graphNodeEval _ _ => 0
  | .leaseServe _ => 0
  | .leaseRetuneEnd _ _ => 0
  | .leaseExpiry _ _ => 0
  | .leaseRevocation _ _ => 0
  | .slotStart _ _ => 0
  | .modeSwitch _ => 0
  | .podTimeBeacon _ _ => 0
  | .crcReplay _ _ => 0
  | .transportAbandon _ => 0
  | .refreshTakeover _ _ => 0
  | .smcRestart _ _ _ => 0
  | .smcup _ _ => 0
  | .refreshSplit _ => 0
  | .pageMove _ _ _ => 0
  | .pageMoveEnd _ _ _ => 0
  | .fieldTest _ _ _ => 0
  | .spareRepair _ _ => 0
  | .throttle _ _ _ => 0
  | .thermtrip _ _ => 0
  | .powerOn _ _ _ => 0
  | .powerLoss _ => 0
  | .doorbell _ _ => 0
  | .ringReinit _ _ _ _ _ => 0
  | .jobrun _ => 0
  | .countq _ => 0
  | .cancel _ => 0
  | .resync _ => 0
  | .tlbinvCommand _ => 0
  | .partset _ => 0
  | .cfgrd _ => 0
  | .cfgwr _ => 0
  | .healthrd _ => 0
  | .bbread _ => 0
  | .testnow _ => 0
  | .fence _ => 0
  | .reset _ => 0
  | .slottedSet _ _ => 0
  | .slottedClear _ _ => 0
  | .slotTableWrite _ _ _ => 0
  | .rangeEntryWrite _ _ _ _ => 0
  | .routineEntryWrite _ _ _ _ => 0
  | .ptrootWrite _ _ _ => 0
  | .replaceClear _ => 0
  | .plimitWrite _ _ => 0
  | .lseedWrite _ _ _ => 0
  | .srseedWrite _ _ _ => 0
  | .scancelWrite _ _ => 0
  | .txvalWrite _ _ => 0
  | .registerWrite _ _ _ => 0
  | .watermarkAdvance _ _ _ => 0
  | .payloadLineLands _ _ _ => 0
  | .hostWindowRequest _ => 0
  | .pcieCompletion _ => 0
  | .laneManagerAnswer _ => 0
  | .limitWindowEnd _ _ => 0

/-- The bits a header lends an instruction's word; none where the word needs no header. -/
def Instr.lend : Instr → Option Nat
  | .add _ => none
  | .sub _ => none
  | .and _ => none
  | .or _ => none
  | .xor _ => none
  | .shl _ => none
  | .shr _ => none
  | .sra _ => none
  | .mul _ => none
  | .mulh _ => none
  | .mulhn _ => none
  | .div _ => none
  | .divn _ => none
  | .rem _ => none
  | .remn _ => none
  | .min _ => none
  | .max _ => none
  | .minn _ => none
  | .maxn _ => none
  | .clz _ => none
  | .popc _ => none
  | .sel _ => none
  | .yield f => f.lend
  | .addi f => f.lend
  | .andi f => f.lend
  | .ori f => f.lend
  | .xori f => f.lend
  | .shli f => f.lend
  | .shri f => f.lend
  | .srai f => f.lend
  | .limm f => f.lend
  | .limms f => f.lend
  | .cmpEq _ => none
  | .cmpLt _ => none
  | .cmpLtn _ => none
  | .cmpLe _ => none
  | .cmpLen _ => none
  | .cmpiEq f => f.lend
  | .cmpiLt f => f.lend
  | .cmpiLe f => f.lend
  | .pand _ => none
  | .por _ => none
  | .pxor _ => none
  | .pmov _ => none
  | .ixset f => f.lend
  | .ixadd f => f.lend
  | .ixget _ => none
  | .br f => f.lend
  | .bri _ => none
  | .call f => f.lend
  | .ret _ => none
  | .loop f => f.lend
  | .exit _ => none
  | .arrive _ => none
  | .wait _ => none
  | .waitf _ => none
  | .hbeat _ => none
  | .csrr _ => none
  | .csrw _ => none
  | .trap f => f.lend
  | .moncall f => f.lend
  | .tret _ => none
  | .planesw _ => none
  | .ctxsave _ => none
  | .ctxload _ => none
  | .tlbinv _ => none
  | .fenceall _ => none
  | .divert _ => none
  | .resume _ => none
  | .lendHeader _ => none
  | .idleHeader _ _ => none
  | .vadd f => f.lend
  | .vsub f => f.lend
  | .vmul f => f.lend
  | .vfma f => f.lend
  | .vfms f => f.lend
  | .vmin f => f.lend
  | .vmax f => f.lend
  | .vminn f => f.lend
  | .vmaxn f => f.lend
  | .vabs f => f.lend
  | .vneg f => f.lend
  | .vdiv f => f.lend
  | .vsqrt f => f.lend
  | .vrcp f => f.lend
  | .vrsq f => f.lend
  | .vexp2 f => f.lend
  | .vand f => f.lend
  | .vor f => f.lend
  | .vxor f => f.lend
  | .vshl f => f.lend
  | .vshr f => f.lend
  | .vsra f => f.lend
  | .vcmpEq f => f.lend
  | .vcmpLt f => f.lend
  | .vcmpLe f => f.lend
  | .vcmpLtn f => f.lend
  | .vcmpUn f => f.lend
  | .vsel f => f.lend
  | .vcvt f => f.lend
  | .vmov f => f.lend
  | .vbcast f => f.lend
  | .vins f => f.lend
  | .vext f => f.lend
  | .vperm f => f.lend
  | .vshuf2 f => f.lend
  | .vrot f => f.lend
  | .vslide f => f.lend
  | .vredadd f => f.lend
  | .vredmax f => f.lend
  | .vredmin f => f.lend
  | .vdot4 f => f.lend
  | .vidx f => f.lend
  | .vclass f => f.lend
  | .vpopc f => f.lend
  | .vlimm f => f.lend
  | .ld f => f.lend
  | .st f => f.lend
  | .vld f => f.lend
  | .vst f => f.lend
  | .vlds f => f.lend
  | .vsts f => f.lend
  | .vgath f => f.lend
  | .vscat f => f.lend
  | .copy f => f.lend
  | .copym f => f.lend
  | .copyq f => f.lend
  | .copyx f => f.lend
  | .send f => f.lend
  | .sendr f => f.lend
  | .sendm f => f.lend
  | .recv f => f.lend
  | .recvf f => f.lend
  | .rcancel _ => none
  | .probe _ => none
  | .mstat _ => none
  | .get f => f.lend
  | .put f => f.lend
  | .atom _ => none
  | .red _ => none
  | .redf f => f.lend
  | .fship f => f.lend
  | .query _ => none
  | .tdset f => f.lend
  | .mma _ => none
  | .mzero _ => none
  | .mldacc _ => none
  | .mstacc _ => none
  | .msend _ => none
  | .fenceP _ => none
  | .fenceS _ => none
  | .lease _ => none
  | .unlease _ => none
  | .leaseq _ => none
  | .slotq _ => none
  | .flclr _ => none
  | .flset _ => none
  | .monitorWatchdogExpiry _ => none
  | .hbmiss _ => none
  | .dualTimeout _ _ => none
  | .messageArrival _ => none
  | .refusalArrival _ => none
  | .sendRetry _ => none
  | .abandon _ => none
  | .pullRequest _ => none
  | .deliveryComplete _ _ _ => none
  | .sendAcknowledgement _ => none
  | .discardNotice _ => none
  | .fenceNotice _ _ => none
  | .arriveSignalRelease _ _ => none
  | .barrierPhaseComplete _ _ => none
  | .conflictNotice _ _ _ => none
  | .escrowDrainEnd _ _ => none
  | .releaseFlit _ => none
  | .releaseFlitAck _ => none
  | .vaultGet _ => none
  | .vaultPut _ => none
  | .vaultAtom _ => none
  | .vaultRed _ => none
  | .vaultRedf _ => none
  | .vaultFship _ => none
  | .vaultQuery _ => none
  | .hopRequest _ => none
  | .distanceRequest _ => none
  | .querySearchEnd _ _ => none
  | .vaultReply _ => none
  | .rnrRetry _ => none
  | .hostAtomic _ => none
  | .hostCompletionTimeout _ => none
  | .pageWalkEnd _ => none
  | .copyStart _ _ _ => none
  | .copyComplete _ _ _ => none
  | .mmaStep _ _ _ => none
  | .matrixOpComplete _ _ => none
  | .msendSnapshot _ _ => none
  | .preemptInterrupt _ _ => none
  | .preempt _ => none
  | .cancelInterrupt _ _ _ => none
  | .spillHeadReadmit _ _ => none
  | .taskEnd _ _ => none
  | .planeFree _ _ => none
  | .placementDecision _ _ => none
  | .loadComplete _ _ => none
  | .windowStart _ => none
  | .graphNodeEval _ _ => none
  | .leaseServe _ => none
  | .leaseRetuneEnd _ _ => none
  | .leaseExpiry _ _ => none
  | .leaseRevocation _ _ => none
  | .slotStart _ _ => none
  | .modeSwitch _ => none
  | .podTimeBeacon _ _ => none
  | .crcReplay _ _ => none
  | .transportAbandon _ => none
  | .refreshTakeover _ _ => none
  | .smcRestart _ _ _ => none
  | .smcup _ _ => none
  | .refreshSplit _ => none
  | .pageMove _ _ _ => none
  | .pageMoveEnd _ _ _ => none
  | .fieldTest _ _ _ => none
  | .spareRepair _ _ => none
  | .throttle _ _ _ => none
  | .thermtrip _ _ => none
  | .powerOn _ _ _ => none
  | .powerLoss _ => none
  | .doorbell _ _ => none
  | .ringReinit _ _ _ _ _ => none
  | .jobrun _ => none
  | .countq _ => none
  | .cancel _ => none
  | .resync _ => none
  | .tlbinvCommand _ => none
  | .partset _ => none
  | .cfgrd _ => none
  | .cfgwr _ => none
  | .healthrd _ => none
  | .bbread _ => none
  | .testnow _ => none
  | .fence _ => none
  | .reset _ => none
  | .slottedSet _ _ => none
  | .slottedClear _ _ => none
  | .slotTableWrite _ _ _ => none
  | .rangeEntryWrite _ _ _ _ => none
  | .routineEntryWrite _ _ _ _ => none
  | .ptrootWrite _ _ _ => none
  | .replaceClear _ => none
  | .plimitWrite _ _ => none
  | .lseedWrite _ _ _ => none
  | .srseedWrite _ _ _ => none
  | .scancelWrite _ _ => none
  | .txvalWrite _ _ => none
  | .registerWrite _ _ _ => none
  | .watermarkAdvance _ _ _ => none
  | .payloadLineLands _ _ _ => none
  | .hostWindowRequest _ => none
  | .pcieCompletion _ => none
  | .laneManagerAnswer _ => none
  | .limitWindowEnd _ _ => none

/-- The class of an instruction's word (R151): 0 S, 1 V, 2 M, 3 header; none for a step that has no word. -/
def Instr.cls : Instr → Option Nat
  | .add _ => some 0
  | .sub _ => some 0
  | .and _ => some 0
  | .or _ => some 0
  | .xor _ => some 0
  | .shl _ => some 0
  | .shr _ => some 0
  | .sra _ => some 0
  | .mul _ => some 0
  | .mulh _ => some 0
  | .mulhn _ => some 0
  | .div _ => some 0
  | .divn _ => some 0
  | .rem _ => some 0
  | .remn _ => some 0
  | .min _ => some 0
  | .max _ => some 0
  | .minn _ => some 0
  | .maxn _ => some 0
  | .clz _ => some 0
  | .popc _ => some 0
  | .sel _ => some 0
  | .yield _ => some 0
  | .addi _ => some 0
  | .andi _ => some 0
  | .ori _ => some 0
  | .xori _ => some 0
  | .shli _ => some 0
  | .shri _ => some 0
  | .srai _ => some 0
  | .limm _ => some 0
  | .limms _ => some 0
  | .cmpEq _ => some 0
  | .cmpLt _ => some 0
  | .cmpLtn _ => some 0
  | .cmpLe _ => some 0
  | .cmpLen _ => some 0
  | .cmpiEq _ => some 0
  | .cmpiLt _ => some 0
  | .cmpiLe _ => some 0
  | .pand _ => some 0
  | .por _ => some 0
  | .pxor _ => some 0
  | .pmov _ => some 0
  | .ixset _ => some 0
  | .ixadd _ => some 0
  | .ixget _ => some 0
  | .br _ => some 0
  | .bri _ => some 0
  | .call _ => some 0
  | .ret _ => some 0
  | .loop _ => some 0
  | .exit _ => some 0
  | .arrive _ => some 0
  | .wait _ => some 0
  | .waitf _ => some 0
  | .hbeat _ => some 0
  | .csrr _ => some 0
  | .csrw _ => some 0
  | .trap _ => some 0
  | .moncall _ => some 0
  | .tret _ => some 0
  | .planesw _ => some 0
  | .ctxsave _ => some 0
  | .ctxload _ => some 0
  | .tlbinv _ => some 0
  | .fenceall _ => some 0
  | .divert _ => some 0
  | .resume _ => some 0
  | .lendHeader _ => some 3
  | .idleHeader _ _ => some 3
  | .vadd _ => some 1
  | .vsub _ => some 1
  | .vmul _ => some 1
  | .vfma _ => some 1
  | .vfms _ => some 1
  | .vmin _ => some 1
  | .vmax _ => some 1
  | .vminn _ => some 1
  | .vmaxn _ => some 1
  | .vabs _ => some 1
  | .vneg _ => some 1
  | .vdiv _ => some 1
  | .vsqrt _ => some 1
  | .vrcp _ => some 1
  | .vrsq _ => some 1
  | .vexp2 _ => some 1
  | .vand _ => some 1
  | .vor _ => some 1
  | .vxor _ => some 1
  | .vshl _ => some 1
  | .vshr _ => some 1
  | .vsra _ => some 1
  | .vcmpEq _ => some 1
  | .vcmpLt _ => some 1
  | .vcmpLe _ => some 1
  | .vcmpLtn _ => some 1
  | .vcmpUn _ => some 1
  | .vsel _ => some 1
  | .vcvt _ => some 1
  | .vmov _ => some 1
  | .vbcast _ => some 1
  | .vins _ => some 1
  | .vext _ => some 1
  | .vperm _ => some 1
  | .vshuf2 _ => some 1
  | .vrot _ => some 1
  | .vslide _ => some 1
  | .vredadd _ => some 1
  | .vredmax _ => some 1
  | .vredmin _ => some 1
  | .vdot4 _ => some 1
  | .vidx _ => some 1
  | .vclass _ => some 1
  | .vpopc _ => some 1
  | .vlimm _ => some 1
  | .ld _ => some 2
  | .st _ => some 2
  | .vld _ => some 2
  | .vst _ => some 2
  | .vlds _ => some 2
  | .vsts _ => some 2
  | .vgath _ => some 2
  | .vscat _ => some 2
  | .copy _ => some 2
  | .copym _ => some 2
  | .copyq _ => some 2
  | .copyx _ => some 2
  | .send _ => some 2
  | .sendr _ => some 2
  | .sendm _ => some 2
  | .recv _ => some 2
  | .recvf _ => some 2
  | .rcancel _ => some 2
  | .probe _ => some 2
  | .mstat _ => some 2
  | .get _ => some 2
  | .put _ => some 2
  | .atom _ => some 2
  | .red _ => some 2
  | .redf _ => some 2
  | .fship _ => some 2
  | .query _ => some 2
  | .tdset _ => some 2
  | .mma _ => some 2
  | .mzero _ => some 2
  | .mldacc _ => some 2
  | .mstacc _ => some 2
  | .msend _ => some 2
  | .fenceP _ => some 2
  | .fenceS _ => some 2
  | .lease _ => some 2
  | .unlease _ => some 2
  | .leaseq _ => some 2
  | .slotq _ => some 2
  | .flclr _ => some 2
  | .flset _ => some 2
  | .monitorWatchdogExpiry _ => none
  | .hbmiss _ => none
  | .dualTimeout _ _ => none
  | .messageArrival _ => none
  | .refusalArrival _ => none
  | .sendRetry _ => none
  | .abandon _ => none
  | .pullRequest _ => none
  | .deliveryComplete _ _ _ => none
  | .sendAcknowledgement _ => none
  | .discardNotice _ => none
  | .fenceNotice _ _ => none
  | .arriveSignalRelease _ _ => none
  | .barrierPhaseComplete _ _ => none
  | .conflictNotice _ _ _ => none
  | .escrowDrainEnd _ _ => none
  | .releaseFlit _ => none
  | .releaseFlitAck _ => none
  | .vaultGet _ => none
  | .vaultPut _ => none
  | .vaultAtom _ => none
  | .vaultRed _ => none
  | .vaultRedf _ => none
  | .vaultFship _ => none
  | .vaultQuery _ => none
  | .hopRequest _ => none
  | .distanceRequest _ => none
  | .querySearchEnd _ _ => none
  | .vaultReply _ => none
  | .rnrRetry _ => none
  | .hostAtomic _ => none
  | .hostCompletionTimeout _ => none
  | .pageWalkEnd _ => none
  | .copyStart _ _ _ => none
  | .copyComplete _ _ _ => none
  | .mmaStep _ _ _ => none
  | .matrixOpComplete _ _ => none
  | .msendSnapshot _ _ => none
  | .preemptInterrupt _ _ => none
  | .preempt _ => none
  | .cancelInterrupt _ _ _ => none
  | .spillHeadReadmit _ _ => none
  | .taskEnd _ _ => none
  | .planeFree _ _ => none
  | .placementDecision _ _ => none
  | .loadComplete _ _ => none
  | .windowStart _ => none
  | .graphNodeEval _ _ => none
  | .leaseServe _ => none
  | .leaseRetuneEnd _ _ => none
  | .leaseExpiry _ _ => none
  | .leaseRevocation _ _ => none
  | .slotStart _ _ => none
  | .modeSwitch _ => none
  | .podTimeBeacon _ _ => none
  | .crcReplay _ _ => none
  | .transportAbandon _ => none
  | .refreshTakeover _ _ => none
  | .smcRestart _ _ _ => none
  | .smcup _ _ => none
  | .refreshSplit _ => none
  | .pageMove _ _ _ => none
  | .pageMoveEnd _ _ _ => none
  | .fieldTest _ _ _ => none
  | .spareRepair _ _ => none
  | .throttle _ _ _ => none
  | .thermtrip _ _ => none
  | .powerOn _ _ _ => none
  | .powerLoss _ => none
  | .doorbell _ _ => none
  | .ringReinit _ _ _ _ _ => none
  | .jobrun _ => none
  | .countq _ => none
  | .cancel _ => none
  | .resync _ => none
  | .tlbinvCommand _ => none
  | .partset _ => none
  | .cfgrd _ => none
  | .cfgwr _ => none
  | .healthrd _ => none
  | .bbread _ => none
  | .testnow _ => none
  | .fence _ => none
  | .reset _ => none
  | .slottedSet _ _ => none
  | .slottedClear _ _ => none
  | .slotTableWrite _ _ _ => none
  | .rangeEntryWrite _ _ _ _ => none
  | .routineEntryWrite _ _ _ _ => none
  | .ptrootWrite _ _ _ => none
  | .replaceClear _ => none
  | .plimitWrite _ _ => none
  | .lseedWrite _ _ _ => none
  | .srseedWrite _ _ _ => none
  | .scancelWrite _ _ => none
  | .txvalWrite _ _ => none
  | .registerWrite _ _ _ => none
  | .watermarkAdvance _ _ _ => none
  | .payloadLineLands _ _ _ => none
  | .hostWindowRequest _ => none
  | .pcieCompletion _ => none
  | .laneManagerAnswer _ => none
  | .limitWindowEnd _ _ => none

/-- The candidate of an S word (Table 8.7) from its op6. -/
def candS (w : Nat) (l : Option Nat) : Option Instr :=
  match bitsOf w 21 6 with
  | 0 => some (.add (R3.read w))
  | 1 => some (.sub (R3.read w))
  | 2 => some (.and (R3.read w))
  | 3 => some (.or (R3.read w))
  | 4 => some (.xor (R3.read w))
  | 5 => some (.shl (R3.read w))
  | 6 => some (.shr (R3.read w))
  | 7 => some (.sra (R3.read w))
  | 8 => some (.mul (R3.read w))
  | 9 => some (.mulh (R3.read w))
  | 10 => some (.mulhn (R3.read w))
  | 11 => some (.div (R3.read w))
  | 12 => some (.divn (R3.read w))
  | 13 => some (.rem (R3.read w))
  | 14 => some (.remn (R3.read w))
  | 15 => some (.min (R3.read w))
  | 16 => some (.max (R3.read w))
  | 17 => some (.minn (R3.read w))
  | 18 => some (.maxn (R3.read w))
  | 19 => some (.clz (R2.read w))
  | 20 => some (.popc (R2.read w))
  | 21 => some (.sel (RSel.read w))
  | 22 => some (.yield (IU.read w l))
  | 23 => some (.addi (I3.read w l))
  | 24 => some (.andi (I3.read w l))
  | 25 => some (.ori (I3.read w l))
  | 26 => some (.xori (I3.read w l))
  | 27 => some (.shli (I3.read w l))
  | 28 => some (.shri (I3.read w l))
  | 29 => some (.srai (I3.read w l))
  | 30 => some (.limm (ID.read w l))
  | 31 => some (.limms (I3.read w l))
  | 32 => some (.cmpEq (R3.read w))
  | 33 => some (.cmpLt (R3.read w))
  | 34 => some (.cmpLtn (R3.read w))
  | 35 => some (.cmpLe (R3.read w))
  | 36 => some (.cmpLen (R3.read w))
  | 37 => some (.cmpiEq (I3.read w l))
  | 38 => some (.cmpiLt (I3.read w l))
  | 39 => some (.cmpiLe (I3.read w l))
  | 40 => some (.pand (P3.read w))
  | 41 => some (.por (P3.read w))
  | 42 => some (.pxor (P3.read w))
  | 43 => some (.pmov (P2.read w))
  | 44 => some (.ixset (IX.read w l))
  | 45 => some (.ixadd (IX.read w l))
  | 46 => some (.ixget (IXG.read w))
  | 48 => some (.br (SB.read w l))
  | 49 => some (.bri (RA.read w))
  | 50 => some (.call (SB.read w l))
  | 51 => some (.ret (G0.read w))
  | 52 => some (.loop (ID.read w l))
  | 53 => some (.exit (G0.read w))
  | 54 => some (.arrive (GB.read w))
  | 55 => some (.wait (GB.read w))
  | 56 => some (.waitf (GF.read w))
  | 57 => some (.hbeat (G0.read w))
  | 58 => some (.csrr (CR.read w))
  | 59 => some (.csrw (CW.read w))
  | 60 => some (.trap (IU.read w l))
  | 61 => some (.moncall (IU.read w l))
  | 63 =>
    match bitsOf w 0 4 with
    | 0 => some (.tret (G0.read w))
    | 1 => some (.planesw (G0.read w))
    | 2 => some (.ctxsave (RA.read w))
    | 3 => some (.ctxload (RA.read w))
    | 4 => some (.tlbinv (RAB.read w))
    | 5 => some (.fenceall (G0.read w))
    | 6 => some (.divert (RA.read w))
    | 7 => some (.resume (RA.read w))
    | _ => none
  | _ => none

/-- The candidate of a V word (Table 8.9) from its op7. -/
def candV (w : Nat) (l : Option Nat) : Option Instr :=
  match bitsOf w 20 7 with
  | 0 => some (.vadd (V3.read w l))
  | 1 => some (.vsub (V3.read w l))
  | 2 => some (.vmul (V3.read w l))
  | 3 => some (.vfma (V3.read w l))
  | 4 => some (.vfms (V3.read w l))
  | 5 => some (.vmin (V3.read w l))
  | 6 => some (.vmax (V3.read w l))
  | 7 => some (.vminn (V3.read w l))
  | 8 => some (.vmaxn (V3.read w l))
  | 9 => some (.vabs (V2.read w l))
  | 10 => some (.vneg (V2.read w l))
  | 11 => some (.vdiv (V3.read w l))
  | 12 => some (.vsqrt (V2.read w l))
  | 13 => some (.vrcp (V2.read w l))
  | 14 => some (.vrsq (V2.read w l))
  | 15 => some (.vexp2 (V2.read w l))
  | 16 => some (.vand (V3.read w l))
  | 17 => some (.vor (V3.read w l))
  | 18 => some (.vxor (V3.read w l))
  | 19 => some (.vshl (V3.read w l))
  | 20 => some (.vshr (V3.read w l))
  | 21 => some (.vsra (V3.read w l))
  | 24 => some (.vcmpEq (VC.read w l))
  | 25 => some (.vcmpLt (VC.read w l))
  | 26 => some (.vcmpLe (VC.read w l))
  | 27 => some (.vcmpLtn (VC.read w l))
  | 28 => some (.vcmpUn (VC.read w l))
  | 29 => some (.vsel (V3.read w l))
  | 32 => some (.vcvt (VCv.read w l))
  | 33 => some (.vmov (V2.read w l))
  | 34 => some (.vbcast (VX.read w l))
  | 35 => some (.vins (VXX.read w l))
  | 36 => some (.vext (VE.read w l))
  | 37 => some (.vperm (V3.read w l))
  | 38 => some (.vshuf2 (V3.read w l))
  | 39 => some (.vrot (VAX.read w l))
  | 40 => some (.vslide (VAX.read w l))
  | 48 => some (.vredadd (V2.read w l))
  | 49 => some (.vredmax (V2.read w l))
  | 50 => some (.vredmin (V2.read w l))
  | 56 => some (.vdot4 (V3.read w l))
  | 57 => some (.vidx (VX.read w l))
  | 58 => some (.vclass (V2.read w l))
  | 59 => some (.vpopc (V2.read w l))
  | 60 => some (.vlimm (VL.read w l))
  | _ => none

/-- The candidate of an M word (Table 8.10) from its op6. -/
def candM (w : Nat) (l : Option Nat) : Option Instr :=
  match bitsOf w 21 6 with
  | 0 => some (.ld (ML.read w l))
  | 1 => some (.st (ML.read w l))
  | 2 => some (.vld (MV.read w l))
  | 3 => some (.vst (MV.read w l))
  | 4 => some (.vlds (MV.read w l))
  | 5 => some (.vsts (MV.read w l))
  | 6 => some (.vgath (MV.read w l))
  | 7 => some (.vscat (MV.read w l))
  | 16 => some (.copy (MC.read w l))
  | 17 => some (.copym (MC.read w l))
  | 18 => some (.copyq (MC.read w l))
  | 19 => some (.copyx (MC.read w l))
  | 24 => some (.send (MS.read w l))
  | 25 => some (.sendr (MS.read w l))
  | 26 => some (.sendm (MS.read w l))
  | 27 => some (.recv (MS.read w l))
  | 28 => some (.recvf (MS.read w l))
  | 29 => some (.rcancel (MF.read w))
  | 30 => some (.probe (MXF.read w))
  | 31 => some (.mstat (MSt.read w))
  | 32 => some (.get (MS.read w l))
  | 33 => some (.put (MS.read w l))
  | 34 => some (.atom (MA.read w))
  | 35 => some (.red (MA.read w))
  | 36 => some (.redf (MS.read w l))
  | 37 => some (.fship (MFs.read w l))
  | 38 => some (.query (MAF.read w))
  | 40 => some (.tdset (MTd.read w l))
  | 41 => some (.mma (MMm.read w))
  | 42 => some (.mzero (MZ.read w))
  | 43 => some (.mldacc (MTa.read w))
  | 44 => some (.mstacc (MTa.read w))
  | 45 => some (.msend (MMs.read w))
  | 48 => some (.fenceP (MFp.read w))
  | 49 => some (.fenceS (MFs2.read w))
  | 50 => some (.lease (MXF.read w))
  | 51 => some (.unlease (MX.read w))
  | 52 => some (.leaseq (MXF.read w))
  | 53 => some (.slotq (MXF.read w))
  | 54 => some (.flclr (MF.read w))
  | 55 => some (.flset (MF.read w))
  | _ => none

/-- The candidate of a word by its class (R151). A header lends nothing to itself. -/
def candidate (w : Nat) (l : Option Nat) : Option Instr :=
  match bitsOf w 30 2 with
  | 0 => candS w l
  | 1 => candV w l
  | 2 => candM w l
  | _ => if bitOf w 29 then some (.idleHeader (bitOf w 25) (bitsOf w 0 25)) else some (.lendHeader (Lend.read w))

/-- The instruction of one word with the bits a header lends it (none without a header), or why there is none. -/
def decodeWord (w : Nat) (l : Option Nat) : Except DecErr Instr :=
  match candidate w l with
  | none => .error .unassigned
  | some i =>
    if i.wf = false then .error .operandRange
    else if i.word = w ∧ i.lend.getD 0 = l.getD 0 then .ok i
    else .error .reservedField

/-- The header word that lends n bits to one slot alone (R172). -/
def headerFor (cls n : Nat) : Lend :=
  { hs := decide (cls = 0), hv := decide (cls = 1), hm := decide (cls = 2), y := false,
    ls := if cls = 0 then n else 0, lv := if cls = 1 then n else 0, lm := if cls = 2 then n else 0 }

/-- The words of a well-formed instruction as a bundle of its own: the header it needs, if any, and its word. A step
that has no word encodes to no words. -/
def encode (i : Instr) : List Nat :=
  match i.cls, i.lend with
  | none, _ => []
  | some _, none => [i.word]
  | some c, some n => [(headerFor c n).word, i.word]

/-- The lend bits a header has for the slot of class c. -/
def Lend.forCls (h : Lend) (c : Nat) : Nat := if c = 0 then h.ls else if c = 1 then h.lv else h.lm

/-- The class of the one slot a header names, when it names exactly one. -/
def Lend.only (h : Lend) : Option Nat :=
  match h.hs, h.hv, h.hm with
  | true, false, false => some 0
  | false, true, false => some 1
  | false, false, true => some 2
  | _, _, _ => none

/-- The first instruction of a list of words, with the words after it: a lone word, or a header that lends bits to
one slot and that slot's word. A header that sets Y, names other than one slot, or lends only zeros to a word that
takes no immediate, or that no word for its slot follows, stands for itself. -/
def decodeWords : List Nat → Except DecErr (Instr × List Nat)
  | [] => .error .tooShort
  | w :: rest =>
    match decodeWord w none with
    | .error e => .error e
    | .ok (.lendHeader h) =>
      match h.y, h.only, rest with
      | false, some c, w2 :: rest2 =>
        match decodeWord w2 (some (h.forCls c)) with
        | .ok i => if bitsOf w2 30 2 = c ∧ i.lend.isSome then .ok (i, rest2) else .ok (.lendHeader h, rest)
        | .error _ => .ok (.lendHeader h, rest)
      | _, _, _ => .ok (.lendHeader h, rest)
    | .ok i => .ok (i, rest)

/-- A word from its four bytes, little-endian (R5, R151). -/
def wordOfBytes (b0 b1 b2 b3 : Byte) : Nat :=
  b0.toNat + b1.toNat * 2 ^ 8 + b2.toNat * 2 ^ 16 + b3.toNat * 2 ^ 24

/-- The words of a byte list; a rest that is no whole word is dropped. -/
def wordsOfBytes : List Byte → List Nat
  | b0 :: b1 :: b2 :: b3 :: rest => wordOfBytes b0 b1 b2 b3 :: wordsOfBytes rest
  | _ => []

/-- The first instruction of a byte list (total on any bytes). -/
def decodeBytes (bs : List Byte) : Except DecErr (Instr × List Nat) :=
  if bs.length < 4 then .error .notAWord else decodeWords (wordsOfBytes bs)

/-- The four bytes of a word, little-endian. -/
def bytesOfWord (w : Nat) : List Byte :=
  [BitVec.ofNat 8 w, BitVec.ofNat 8 (w / 2 ^ 8), BitVec.ofNat 8 (w / 2 ^ 16), BitVec.ofNat 8 (w / 2 ^ 24)]

/-- The words the host lays out for a table row: the first word, then zeros up to the longest bundle of four words. -/
def tableWords (nbits w : Nat) : List Nat :=
  let v := w % 2 ^ nbits
  [v % 2 ^ 32, v / 2 ^ 32 % 2 ^ 32, v / 2 ^ 64 % 2 ^ 32, v / 2 ^ 96 % 2 ^ 32]

/-- What the decoder reads from an instruction whose bits are w, numbered as the opcode table numbers them. -/
def decodeTableWord (nbits w : Nat) : Option Instr :=
  match decodeBytes ((tableWords nbits w).flatMap bytesOfWord) with
  | .ok (i, _) => some i
  | .error _ => none

end Sys2Proof
end

