-- ==== Sys2Proof/Machine/Ops.lean ====
section
/-! DEFINITION. The named operations over memory, units and registers that every meaning goes through, and the taking of a
trap (R197, R292) with the return from one (R296). -/

namespace Sys2Proof.Machine

/-! ## Memory -/

/-- The byte an address holds; an address that lists none reads 0 (log entry 2). -/
def memGet : List Host.Cell → Nat → Byte
  | [], _ => 0
  | (a, b) :: r, k => if a = k then b else memGet r k

/-- Writes one byte and keeps the canonical form: a zero is not listed. -/
def memPut : List Host.Cell → Nat → Byte → List Host.Cell
  | [], k, b => if b = 0 then [] else [(k, b)]
  | (a, c) :: r, k, b =>
    if k < a then (if b = 0 then (a, c) :: r else (k, b) :: (a, c) :: r)
    else if k = a then (if b = 0 then r else (k, b) :: r)
    else (a, c) :: memPut r k b

/-- The n bytes from an address. -/
def memRead (m : List Host.Cell) (a : Nat) : Nat → List Byte
  | 0 => []
  | n + 1 => memGet m a :: memRead m (a + 1) n

/-- Writes a list of bytes from an address. -/
def memWrite (m : List Host.Cell) (a : Nat) : List Byte → List Host.Cell
  | [] => m
  | b :: r => memWrite (memPut m a b) (a + 1) r

/-- The memory with the n bytes from an address as they are when nothing has written them. -/
def memClear (m : List Host.Cell) (a n : Nat) : List Host.Cell := m.filter (fun c => decide (c.1 < a ∨ a + n ≤ c.1))

/-- The canonical form from an address on: strictly rising, no zero listed. -/
def Memory.wfFrom : Option Nat → List Host.Cell → Bool
  | _, [] => true
  | lo, (a, b) :: r => decide (∀ l ∈ lo, l < a) && decide (b ≠ 0) && Memory.wfFrom (some a) r

/-- The canonical form of a memory. -/
def Memory.wf (m : List Host.Cell) : Bool := Memory.wfFrom none m

/-- A little-endian number from bytes (R5). -/
def leNat : List Byte → Nat
  | [] => 0
  | b :: r => b.toNat + 256 * leNat r

/-- The n little-endian bytes of a number. -/
def leBytes : Nat → Nat → List Byte
  | 0, _ => []
  | n + 1, v => BitVec.ofNat 8 v :: leBytes n (v / 256)

/-- Bits [hi:lo] of a number. -/
def bitsHL (v hi lo : Nat) : Nat := v / 2 ^ lo % 2 ^ (hi + 1 - lo)

/-- The two's-complement reading of the low n bits of a number. -/
def sextN (n v : Nat) : Int :=
  let w := v % 2 ^ n
  if w < 2 ^ (n - 1) then (w : Int) else (w : Int) - (2 ^ n : Nat)

/-- An integer modulo 2^64. -/
def wrap64 (i : Int) : Word := BitVec.ofInt 64 i

/-- The first address of a space: 0 tile stores, 1 planes, 2 monitor stores, 3 vault channels by frame, 4 host memory. -/
def spaceBase (kind unit : Nat) : Nat := kind * 2 ^ 96 + unit * 2 ^ 64

/-- A byte of a tile store by physical address (R18). -/
def tsAddr (rank a : Nat) : Nat := spaceBase 0 rank + a

/-- A byte of an instruction plane (R21). -/
def codeAddr (rank plane a : Nat) : Nat := spaceBase 1 (2 * rank + plane) + a

/-- A byte of a monitor store (R288). -/
def monAddr (rank a : Nat) : Nat := spaceBase 2 rank + a

/-- A byte of a vault channel: stack, channel, frame and offset in the frame (R322). -/
def vaultAddr (pkg stack chan frame off : Nat) : Nat :=
  spaceBase 3 pkg + ((stack * 32 + chan) * 32768 + frame) * 65536 + off

/-- A byte of host memory as a package's adapter sees it (R321). -/
def hostAddr (pkg a : Nat) : Nat := spaceBase 4 pkg + a

/-! ## Units -/

/-- The tile of a rank. -/
def State.tile (s : State) (r : Nat) : Tile := ngetD s.tiles r {}

/-- Replaces a tile. -/
def State.setTile (s : State) (r : Nat) (t : Tile) : State := { s with tiles := nset s.tiles r t }

/-- Changes a tile. -/
def State.modTile (s : State) (r : Nat) (f : Tile → Tile) : State := s.setTile r (f (s.tile r))

/-- A plane of a tile. -/
def Tile.pl (t : Tile) (p : Nat) : Plane := if p = 0 then t.plane0 else t.plane1

/-- Replaces a plane of a tile. -/
def Tile.setPl (t : Tile) (p : Nat) (x : Plane) : Tile := if p = 0 then { t with plane0 := x } else { t with plane1 := x }

/-- The plane p of the tile r. -/
def State.plane (s : State) (r p : Nat) : Plane := (s.tile r).pl p

/-- Changes a plane. -/
def State.modPlane (s : State) (r p : Nat) (f : Plane → Plane) : State :=
  s.modTile r (fun t => t.setPl p (f (t.pl p)))

/-- The vault of a rank. -/
def State.vault (s : State) (r : Nat) : Vault := ngetD s.vaults r {}

/-- Changes a vault. -/
def State.modVault (s : State) (r : Nat) (f : Vault → Vault) : State :=
  { s with vaults := nset s.vaults r (f (s.vault r)) }

/-- A package. -/
def State.pkg (s : State) (k : Nat) : Package := ngetD s.pkgs k {}

/-- Changes a package. -/
def State.modPkg (s : State) (k : Nat) (f : Package → Package) : State :=
  { s with pkgs := nset s.pkgs k (f (s.pkg k)) }

/-- The package of a rank (R8). -/
def pkgOf (rank : Nat) : Nat := rank / 4096

/-- The endpoint of a rank (R8). -/
def epOf (rank : Nat) : Nat := rank % 4096

/-- The plane whose context a word names: the running one, or MTPC.PLANE at the monitor level (R288). -/
def Tile.ctxPlane (t : Tile) : Nat := if t.monitor then t.mtpcPlane else t.running.getD 0

/-- The current tile. -/
def State.curTile (s : State) : Tile := s.tile s.cur

/-- Whether the current tile is at the monitor level. -/
def State.mon (s : State) : Bool := s.curTile.monitor

/-- The number of the plane whose context the current tile's words name. -/
def State.ctxP (s : State) : Nat := s.curTile.ctxPlane

/-- That plane. -/
def State.ctx (s : State) : Plane := s.curTile.pl s.ctxP

/-- Changes that plane. -/
def State.modCtx (s : State) (f : Plane → Plane) : State := s.modPlane s.cur s.ctxP f

/-- Changes that plane's registers. -/
def State.modRegs (s : State) (f : Regs → Regs) : State := s.modCtx (fun p => { p with regs := f p.regs })

/-- The registers of that plane. -/
def State.regs (s : State) : Regs := s.ctx.regs

/-- The scalar bank in force: the monitor's own at the monitor level (R288). -/
def State.bank (s : State) : Bank := if s.mon then s.curTile.mbank else s.regs.bank

/-- Changes that bank. -/
def State.modBank (s : State) (f : Bank → Bank) : State :=
  if s.mon then s.modTile s.cur (fun t => { t with mbank := f t.mbank })
  else s.modRegs (fun r => { r with bank := f r.bank })

/-! ## Checks -/

/-- Why a word does not complete: it traps, it stalls and executes afresh, it stalls for want of room in the
speculation hardware, which SPECST counts (R44), or it stalls with work begun that stays (SYS words, R296). -/
inductive Stop where
  | trap (t : TrapInfo)
  | stall
  | overflow
  | held (s : State)
  deriving DecidableEq, Repr

/-- A result, or a trap or stall. -/
abbrev Chk (α : Type) := Except Stop α

/-- Trap codes (Table 16.2). -/
def cILLEGAL : Nat := 0x01
/-- FETCHEND. -/
def cFETCHEND : Nat := 0x02
/-- REGBOUND. -/
def cREGBOUND : Nat := 0x03
/-- DEADREG. -/
def cDEADREG : Nat := 0x04
/-- ALIGN. -/
def cALIGN : Nat := 0x05
/-- TSBOUND. -/
def cTSBOUND : Nat := 0x06
/-- CALLSPILL. -/
def cCALLSPILL : Nat := 0x07
/-- PRIV. -/
def cPRIV : Nat := 0x08
/-- TRAPI. -/
def cTRAPI : Nat := 0x09
/-- ENGFAULT. -/
def cENGFAULT : Nat := 0x0A
/-- VAULTFAULT. -/
def cVAULTFAULT : Nat := 0x0B
/-- MRES. -/
def cMRES : Nat := 0x0C
/-- DUALMISMATCH. -/
def cDUALMISMATCH : Nat := 0x0D
/-- HBMISS. -/
def cHBMISS : Nat := 0x0E
/-- HATOM. -/
def cHATOM : Nat := 0x0F
/-- PREEMPT. -/
def cPREEMPT : Nat := 0x10
/-- MONCALL. -/
def cMONCALL : Nat := 0x11

/-- Traps with a cause and MTINFO; the wrapper of the word's slot fills in SLOT. -/
def trapW {α : Type} (cause : Nat) (info : Word) : Chk α := .error (.trap { cause := cause, info := info })

/-- Traps with DETAIL as well. -/
def trapD {α : Type} (cause detail : Nat) (info : Word) : Chk α :=
  .error (.trap { cause := cause, detail := detail, info := info })

/-- Stalls. -/
def stallW {α : Type} : Chk α := .error .stall

/-- A condition that must hold, or the word traps. -/
def need (ok : Bool) (cause : Nat) (info : Word) : Chk Unit := if ok then .ok () else trapW cause info

/-- Stalls on an overflow of the speculation hardware. -/
def overflowW {α : Type} : Chk α := .error .overflow

/-- A condition without which the word stalls. -/
def orStall (ok : Bool) : Chk Unit := if ok then .ok () else stallW

/-! ## Registers -/

/-- Reads an x register (R15, R177): x0 reads zero, a dead register reads zero or traps DEADREG. -/
def readX (s : State) (n : Nat) : Chk Word :=
  if n = 0 then .ok 0
  else if s.bank.dead.getLsbD n then
    (if !s.mon && s.regs.deadchk then trapW cDEADREG (BitVec.ofNat 64 n) else .ok 0)
  else .ok ((s.bank.x[n]?).getD 0)

/-- The bank with xn written and live. -/
def Bank.setX (b : Bank) (n : Nat) (w : Word) : Bank :=
  { b with x := b.x.setIfInBounds n w, dead := b.dead &&& ~~~(1#32 <<< n) }

/-- Writes an x register (R15, R163, R177): a write to x0 is discarded; any other makes the register live. -/
def setX (s : State) (n : Nat) (w : Word) : State :=
  if n = 0 then s
  else { s.modBank (fun b => b.setX n w) with
         bundle := { s.bundle with killX := s.bundle.killX.filter (· ≠ n) } }

/-- Marks an x register for death at the end of the bundle (R163); marking x0 has no effect. -/
def killX (s : State) (mark : Bool) (n : Nat) : State :=
  if mark && decide (n ≠ 0) then { s with bundle := { s.bundle with killX := n :: s.bundle.killX } } else s

/-- Reads a predicate (R15): p0 is true and p1 false. -/
def readP (s : State) (n : Nat) : Bool :=
  if n = 0 then true else if n = 1 then false else (s.bank.p[n]?).getD false

/-- Writes a predicate; p0 and p1 are hard-wired. -/
def setP (s : State) (n : Nat) (b : Bool) : State :=
  if n < 2 then s else s.modBank (fun k => { k with p := k.p.setIfInBounds n b })

/-- Writes a predicate pair: pd the result, pd + 1 its complement (R182). -/
def setPair (s : State) (n : Nat) (b : Bool) : State := setP (setP s n b) (n + 1) (!b)

/-- Reads an index register as a signed value (R184). -/
def readI (s : State) (n : Nat) : BitVec 8 := (s.bank.ix[n]?).getD 0

/-- Writes an index register. -/
def setI (s : State) (n : Nat) (b : BitVec 8) : State :=
  s.modBank (fun k => { k with ix := k.ix.setIfInBounds n b })

/-- Reads a lane predicate (R15): q0 is all ones and q1 all zeros. -/
def readQ (s : State) (n : Nat) : Quad :=
  if n = 0 then BitVec.allOnes 128 else if n = 1 then 0 else (s.regs.q[n]?).getD 0

/-- Writes a lane predicate; q0 and q1 are hard-wired. -/
def setQ (s : State) (n : Nat) (v : Quad) : State :=
  if n < 2 then s else s.modRegs (fun r => { r with q := r.q.setIfInBounds n v })

/-- VALLOC in force, which is at most 64: 64 at the monitor level (R288). -/
def vallocOf (s : State) : Nat := if s.mon then 64 else min s.regs.valloc 64

/-- Checks a vector register number against VALLOC (R16, R160). -/
def checkV (s : State) (n : Int) : Chk Nat :=
  if n < 0 ∨ (vallocOf s : Int) ≤ n then trapW cREGBOUND (wrap64 n) else .ok n.toNat

/-- Reads a vector register whose number has been checked (R201): a dead register reads zero or traps DEADREG. -/
def readV (s : State) (n : Nat) : Chk VReg :=
  if s.regs.vdead.getLsbD n then
    (if !s.mon && s.regs.deadchk then trapW cDEADREG (BitVec.ofNat 64 (128 + n)) else .ok 0)
  else .ok ((s.regs.v[n]?).getD 0)

/-- Writes a vector register and makes it live. -/
def setV (s : State) (n : Nat) (w : VReg) : State :=
  { s.modRegs (fun r => { r with v := r.v.setIfInBounds n w, vdead := r.vdead &&& ~~~(1#64 <<< n) }) with
    bundle := { s.bundle with killV := s.bundle.killV.filter (· ≠ n) } }

/-- Marks a vector register for death at the end of the bundle. -/
def killV (s : State) (mark : Bool) (n : Nat) : State :=
  if mark then { s with bundle := { s.bundle with killV := n :: s.bundle.killV } } else s

/-- The registers with the marks of a bundle applied: marked registers are dead from now on (R163). -/
def applyKills (s : State) : State :=
  let b := s.bundle
  let s := if b.killX.isEmpty then s
    else s.modBank (fun k => { k with dead := b.killX.foldl (fun d n => d ||| (1#32 <<< n)) k.dead })
  if b.killV.isEmpty then s
  else s.modRegs (fun r => { r with vdead := b.killV.foldl (fun d n => d ||| (1#64 <<< n)) r.vdead })

/-- ORs flags into FFLAGS (R58). -/
def raiseF (s : State) (f : BitVec 6) : State := s.modRegs (fun r => { r with fflags := r.fflags ||| f })

/-! ## Framing (R21, R151 to R155) -/

/-- A framed bundle: its header, its slot words with their classes, the address after it, and the trap of a header whose lend bits
name a slot that the bundle does not have. -/
structure Frame where
  hdr : Option Instr := none
  lend : Option Lend := none
  ws : List (Nat × Nat) := []
  next : Nat
  bad : Option TrapInfo := none
  deriving DecidableEq, Repr

/-- The class of a word (R151). -/
def wordClass (w : Nat) : Nat := w / 2 ^ 30 % 4

/-- The words of a headerless bundle: those after the first whose class rises and is no header, up to the limit (R152). -/
def ascending (word : Nat → Nat) (limit : Nat) : Nat → Nat → Nat → List (Nat × Nat)
  | 0, _, _ => []
  | n + 1, a, c =>
    if limit < a + 4 then []
    else
      let w := word a
      if c < wordClass w ∧ wordClass w < 3 then (wordClass w, w) :: ascending word limit n (a + 4) (wordClass w) else []

/-- The classes that a lend header's mask names, in order (R153). -/
def lendClasses (h : Lend) : List Nat :=
  (if h.hs then [0] else []) ++ (if h.hv then [1] else []) ++ (if h.hm then [2] else [])

/-- How many words the mask of a lend header names, whatever its other bits hold; an idle header's bundle has none (R153). -/
def maskWords (w : Nat) : Nat :=
  if w.testBit 29 then 0 else [28, 27, 26].countP (fun k => w.testBit k)

/-- Whether a lend header lends bits to a word that its bundle does not have: they are no word's, and nonzero (R154, R168). -/
def lendsNone (h : Lend) : Bool :=
  decide ((h.hs = false ∧ h.ls ≠ 0) ∨ (h.hv = false ∧ h.lv ≠ 0) ∨ (h.hm = false ∧ h.lm ≠ 0))

/-- Frames the bundle at an address, or gives the framing trap (R21, R153 to R155, Table 8.11): FETCHEND comes before ILLEGAL
(R169). Of a bundle whose words do not match its mask none is executed (R153); in one whose header is bad only by its lend bits, a
branch of the S word can still be the FETCHEND that ranks first. -/
def frameAt (word : Nat → Nat) (limit a : Nat) : Except TrapInfo Frame :=
  if limit < a + 4 then .error { cause := cFETCHEND, info := BitVec.ofNat 64 a }
  else
    let w := word a
    let bad : TrapInfo := { cause := cILLEGAL, info := BitVec.ofNat 64 w }
    if wordClass w < 3 then
      let ws := (wordClass w, w) :: ascending word limit 2 (a + 4) (wordClass w)
      .ok { ws := ws, next := a + 4 * ws.length }
    else if limit < a + 4 + 4 * maskWords w then .error { cause := cFETCHEND, info := BitVec.ofNat 64 limit }
    else
      match w.testBit 29, decodeWord w none with
      | true, .error _ => .error bad
      | true, .ok i => .ok { hdr := some i, next := a + 4 }
      | false, _ =>
        let h := Lend.read w
        let cs := lendClasses h
        let ws := (List.range cs.length).map (fun i => word (a + 4 + 4 * i))
        if ws.map wordClass ≠ cs then .error bad
        else .ok { hdr := some (.lendHeader h), lend := some h, ws := cs.zip ws, next := a + 4 + 4 * cs.length,
                   bad := if lendsNone h then some bad else none }

/-- A word of an instruction plane. -/
def planeWord (s : State) (r p a : Nat) : Nat := leNat (memRead s.mem (codeAddr r p a) 4)

/-- NPC of a trap that plane p of a tile takes before the bundle at an address (R291, R292): the bundle after it; free where no bundle
is framed there (log entry 10). -/
def npcAt (s : State) (r p a : Nat) : Nat :=
  match frameAt (planeWord s r p) (s.plane r p).regs.plen a with
  | .ok f => f.next
  | .error _ => Config.npc s.tick

/-! ## Steps that are due, numbers and the black box -/

/-- Adds a step to those that are due. -/
def emit (s : State) (ev : Instr) : State := { s with agenda := s.agenda ++ [{ ev := ev }] }

/-- Adds a step unless the same one is due already. -/
def emitOnce (s : State) (ev : Instr) : State := if s.agenda.any (fun d => decide (d.ev = ev)) then s else emit s ev

/-- A fresh operation number: they rise with issue. -/
def freshId (s : State) : Nat × State := (s.nextId, { s with nextId := s.nextId + 1 })

/-- A plane of a DUAL pair issues an operation that waits for its partner's (R46, R252): the comparison is then due. -/
def pushDual (s : State) (r p : Nat) (op : DualOp) : State :=
  emitOnce (s.modTile r (fun t => { t with dualq := t.dualq ++ [(p, s.podTime, op)] })) (.dualTimeout r p)

/-- The codes of Table 19.9 that are written as events too. -/
def bbIsEvent (code : Nat) : Bool :=
  code ∈ [0x0002, 0x0003, 0x0010, 0x0011, 0x0012, 0x0013, 0x0014, 0x001A, 0x0022]

/-- Writes the event of a committed record to the event ring (R332), or counts it as dropped. -/
def writeEvent (s : State) (pkg seq : Nat) : State :=
  let p := s.pkg pkg
  let rcd := (ngetD p.bb (seq % 4096) 0).toNat
  let code := bitsHL rcd 159 144
  if !bbIsEvent code then s
  else if Config.eventRingFull s.tick then s.modPkg pkg (fun p => { p with evDropped := p.evDropped + 1 })
  else
    let ring := Config.eventRing pkg
    let bytes := leBytes 4 code ++ leBytes 4 seq ++ leBytes 15 (bitsHL rcd 119 0) ++ leBytes 9 0
    let s := { s with mem := memWrite s.mem (hostAddr pkg (ring.1 + 32 * (p.evTail % ring.2))) bytes }
    s.modPkg pkg (fun p => { p with evTail := p.evTail + 1 })

/-- Commits every waiting record, oldest first (R336). -/
def bbCommit (s : State) (pkg : Nat) : State :=
  let w := (s.pkg pkg).bbWait
  let s := s.modPkg pkg (fun p => { p with bbWait := [] })
  w.foldl (fun s q => writeEvent s pkg q) s

/-- A black-box record's bits (Table 19.7). -/
def bbBits (time seq code unit data : Nat) : BitVec 256 :=
  BitVec.ofNat 256 (time % 2 ^ 64 * 2 ^ 192 + seq % 2 ^ 32 * 2 ^ 160 + code * 2 ^ 144 + unit % 2 ^ 24 * 2 ^ 120
    + data % 2 ^ 120)

/-- Puts the records of one event into the black box together, or counts the event as lost when the store's queue of 64 has
no room for them (R336). -/
def bbPut (s : State) (pkg : Nat) (recs : List (Nat × Nat × Nat)) : State :=
  let p := s.pkg pkg
  if 64 < p.bbWait.length + recs.length then s.modPkg pkg (fun p => { p with bbLost := p.bbLost + 1 })
  else
    let s := recs.foldl (fun s rc =>
      s.modPkg pkg (fun p =>
        { p with bb := nset p.bb (p.bbSeq % 4096)
                   (if rc.1 = 0x0031 then
                      BitVec.ofNat 256 (s.podTime % 2 ^ 64 * 2 ^ 192 + p.bbSeq % 2 ^ 32 * 2 ^ 160 + 0x0031 * 2 ^ 144
                        + rc.2.1 * 2 ^ 136 + rc.2.2)
                    else bbBits s.podTime p.bbSeq rc.1 rc.2.1 rc.2.2),
                 bbWait := p.bbWait ++ [p.bbSeq], bbSeq := p.bbSeq + 1 })) s
    let c := bbCommit s pkg
    { s with mem := if Config.storeBusy s.tick then s.mem else c.mem,
             pkgs := if Config.storeBusy s.tick then s.pkgs else c.pkgs }

/-- One black-box record (Tables 19.7, 19.9). -/
def blackBox (s : State) (pkg code unit data : Nat) : State := bbPut s pkg [(code, unit, data)]

/-- Adds one to a saturating counter of the summary (Table 19.8). -/
def countUp (s : State) (pkg k : Nat) : State :=
  s.modPkg pkg (fun p => { p with counters := nset p.counters k (ngetD p.counters k 0 + 1) })

/-! ## Taking a trap, and leaving the monitor -/

/-- The causes that a user handler may take (R197). -/
def userCause (c : Nat) : Bool := (3 ≤ c && c ≤ 6) || c = 9

/-- UTCAUSE as a trap leaves it (Table 9.7). -/
def utcauseBits (npc slot cause : Nat) : Word :=
  BitVec.ofNat 64 (npc % 2 ^ 16 * 2 ^ 48 + 2 ^ 16 + slot * 2 ^ 8 + cause)

/-- MTCAUSE as a trap leaves it (Table 16.1). -/
def mtcauseBits (npc detail plane slot cause : Nat) : Word :=
  BitVec.ofNat 64 (npc % 2 ^ 16 * 2 ^ 48 + detail % 256 * 2 ^ 40 + plane * 2 ^ 32 + slot * 2 ^ 8 + cause)

/-- Delivery of a trap to the user handler (R197): UTPC, UTCAUSE and UTINFO are written, and the PC becomes UTVEC. -/
def userEntry (s : State) (t : TrapInfo) (start npc : Nat) : State :=
  s.modRegs (fun r => { r with utpc := start, utcause := utcauseBits npc t.slot t.cause, utinfo := t.info, pc := r.utvec })

/-- Entry to the monitor on behalf of plane p of tile r (R292): MTPC, MTCAUSE and MTINFO are written, MEND is cleared, the
level becomes monitor, and the monitor's PC is 64 × cause. -/
def monitorEntry (s : State) (r p : Nat) (t : TrapInfo) (start npc : Nat) : State :=
  s.modTile r (fun k =>
    let k := k.setPl p { k.pl p with state := 4, readyAll := false }
    { k with mtpcPlane := p, mtpc := start % 2 ^ 16, mtcause := mtcauseBits npc t.detail p t.slot t.cause, mtinfo := t.info,
             mendCode := 0, mendAct := 0, monitor := true, mpc := 64 * t.cause, mwatch := 0, tlbWait := none, divertWait := none })

/-- A monitor fault (R289): the tile is fenced at once, the black box records MONFAULT, and the rest of the fence, with the
end of the tile's tasks, is due as the step MONITOR_WATCHDOG_EXPIRY. -/
def monitorFault (s : State) (r cause : Nat) : State :=
  let s := blackBox s (pkgOf r) 0x0019 r (cause + (s.tile r).mpc % 2 ^ 16 * 2 ^ 16)
  emitOnce (s.modTile r (fun t => { t with fenced := true, mfault := true, monitor := false, running := none }))
    (.monitorWatchdogExpiry r)

/-- The registers with the loss mark of an accumulator cleared (R68). -/
def clearLost (r : Regs) (n : Option Nat) : Regs :=
  { r with acc := r.acc.mapIdx (fun k a => if n = some k then { a with lost := none } else a) }

/-- Takes a synchronous trap of the bundle at start (R14, R197, R292): at the monitor level it is a monitor fault; a
cause that a user handler may take goes to it when one is installed and not active; every other goes to the monitor.
Taking MRES clears the accumulator's loss mark and writes a RESIDUE record (R68, R339). -/
def takeTrap (s : State) (t : TrapInfo) (start npc : Nat) : State :=
  if s.mon then monitorFault s s.cur t.cause
  else if userCause t.cause && decide (s.regs.utvec ≠ 0) && !s.regs.utcause.getLsbD 16 then userEntry s t start npc
  else
    let s :=
      if t.cause = cMRES then
        let steps := bitsHL (((s.regs.flag[t.detail]?).getD {}).status).toNat 63 32
        let s := blackBox (s.modRegs (fun r => clearLost r t.acc)) (pkgOf s.cur) 0x0016 s.cur
          (t.detail % 256 + steps % 256 * 256)
        countUp s (pkgOf s.cur) 1
      else s
    monitorEntry s s.cur s.ctxP t start npc

/-- Marks the bundle as trapped, with the trap taken in this state; while a speculation is open a synchronous trap stalls
its bundle (Table 2.6). -/
def raiseTrap (s : State) (t : TrapInfo) : State :=
  if !s.mon && s.ctx.spec.isSome then { s with bundle := { s.bundle with status := .stalled } }
  else
    let s' := takeTrap s t s.bundle.start s.bundle.next
    { s' with bundle := { s'.bundle with status := .trapped t, moved := true } }

/-- Runs one word: nothing when the bundle has trapped or stalled already or the guard is false (R162); otherwise its
body, whose trap is taken and whose stall is marked. slot is the word's class. -/
def runWord (slot g : Nat) (s : State) (body : State → Chk State) : Host.Outcome State Fault Refusal :=
  if s.bundle.status ≠ .running ∨ readP s g = false then .next s
  else
    match body s with
    | .ok t => .next t
    | .error .stall => .next { s with bundle := { s.bundle with status := .stalled } }
    | .error .overflow => .next { s with bundle := { s.bundle with status := .overflow } }
    | .error (.held t) => .next { t with bundle := { t.bundle with status := .held } }
    | .error (.trap t) => .next (raiseTrap s { t with slot := slot })

/-- Runs an event step on a packet in range, and faults otherwise. -/
def runEvent (ok : Bool) (s : State) (f : State → State) : Host.Outcome State Fault Refusal :=
  if ok then .next (f s) else .fault .noSuchUnit

end Sys2Proof.Machine
end

