-- ==== Sys2Proof/Machine/Flags.lean ====
section
/-! DEFINITION. The flag computations: the FFLAGS bits (Table 3.5), the completion flags with their status records (R17,
R87, Table 4.5), and the statuses and fault codes (Tables 4.4, 18.5). -/

namespace Sys2Proof.Machine

/-- NX, inexact. -/
def fNX : BitVec 6 := 0x01
/-- UF, underflow. -/
def fUF : BitVec 6 := 0x02
/-- OF, overflow. -/
def fOF : BitVec 6 := 0x04
/-- DZ, division by zero. -/
def fDZ : BitVec 6 := 0x08
/-- NV, invalid operation. -/
def fNV : BitVec 6 := 0x10
/-- SV, a conversion saturated or clamped. -/
def fSV : BitVec 6 := 0x20

/-- Statuses (Table 4.4). -/
def stOK : Nat := 0
/-- TRUNC. -/
def stTRUNC : Nat := 1
/-- CANCELLED. -/
def stCANCELLED : Nat := 2
/-- STUBBED. -/
def stSTUBBED : Nat := 3
/-- OVERRUN. -/
def stOVERRUN : Nat := 4
/-- NOROUTE. -/
def stNOROUTE : Nat := 5
/-- PEERDOWN. -/
def stPEERDOWN : Nat := 6
/-- FAULT. -/
def stFAULT : Nat := 7

/-- Fault codes (Table 18.5): NOMAP. -/
def fcNOMAP : Nat := 0x01
/-- PERM. -/
def fcPERM : Nat := 0x02
/-- OWNER. -/
def fcOWNER : Nat := 0x03
/-- WALKERR. -/
def fcWALKERR : Nat := 0x04
/-- MEMERR. -/
def fcMEMERR : Nat := 0x05
/-- HOSTERR. -/
def fcHOSTERR : Nat := 0x06
/-- LINKERR. -/
def fcLINKERR : Nat := 0x07
/-- HATOM. -/
def fcHATOM : Nat := 0x08
/-- BADVA. -/
def fcBADVA : Nat := 0x09
/-- BADLEN. -/
def fcBADLEN : Nat := 0x0A
/-- BADALIGN. -/
def fcBADALIGN : Nat := 0x0B
/-- BADOP. -/
def fcBADOP : Nat := 0x0C
/-- REDSLOT. -/
def fcREDSLOT : Nat := 0x0D
/-- REDOBJ. -/
def fcREDOBJ : Nat := 0x0E
/-- FSHIPINV. -/
def fcFSHIPINV : Nat := 0x0F
/-- QBAD. -/
def fcQBAD : Nat := 0x10
/-- PARMBAD. -/
def fcPARMBAD : Nat := 0x11
/-- MRES. -/
def fcMRES : Nat := 0x12
/-- ENGFAULT. -/
def fcENGFAULT : Nat := 0x13
/-- STREAMFULL. -/
def fcSTREAMFULL : Nat := 0x14
/-- XPART. -/
def fcXPART : Nat := 0x15

/-- The fields of a status record (Table 4.5). -/
structure RecF where
  peer : Nat := 0
  group : Nat := 0
  tag : Nat := 0
  status : Nat := 0
  kind : Nat := 0
  fcode : Nat := 0
  length : Nat := 0
  aux : Nat := 0
  dlen : Nat := 0
  deriving DecidableEq, Repr, Inhabited

/-- The 16-byte record of those fields; LENGTH saturates at 0xFFFF_FFFF (R231). -/
def RecF.bits (f : RecF) : Quad :=
  BitVec.ofNat 128 (f.peer % 2 ^ 24 * 2 ^ 104 + f.group % 256 * 2 ^ 96 + f.tag % 65536 * 2 ^ 80 + f.status % 16 * 2 ^ 76
    + f.kind % 16 * 2 ^ 72 + f.fcode % 256 * 2 ^ 64 + min f.length (2 ^ 32 - 1) * 2 ^ 32 + f.aux % 16 * 2 ^ 28
    + f.dlen % 2 ^ 25)

/-- STATUS of a record. -/
def recStatus (q : Quad) : Nat := bitsHL q.toNat 79 76
/-- KIND of a record. -/
def recKind (q : Quad) : Nat := bitsHL q.toNat 75 72
/-- FCODE of a record. -/
def recFcode (q : Quad) : Nat := bitsHL q.toNat 71 64

/-- AUX of a record. -/
def recAux (q : Quad) : Nat := bitsHL q.toNat 31 28

/-- The flag fn of a plane's registers. -/
def Regs.fl (r : Regs) (fn : Nat) : Flag := (r.flag[fn]?).getD {}

/-- Replaces a flag. -/
def Regs.setFl (r : Regs) (fn : Nat) (f : Flag) : Regs := { r with flag := r.flag.setIfInBounds fn f }

/-- Stalls while fn is bound to an outstanding operation (R17, R220). -/
def freeFlag (s : State) (fn : Nat) : Chk Unit := orStall (s.regs.fl fn).bound.isNone

/-- Binds fn to operation id and clears it (R17); the record is left as it was. -/
def bindFlag (s : State) (fn id : Nat) : State :=
  s.modRegs (fun r => r.setFl fn { r.fl fn with on := false, bound := some id })

/-- Whether a command has started: a COPYQ starts when it finds its flag set (R228). -/
def CopyCmd.begun (c : CopyCmd) : Bool := c.started || c.fired.isSome

/-- Whether a command at the head of channel k may start: nothing holds the channel, and the plane is not halted, or it is one of the
monitor (R122, R298). -/
def Plane.mayStart (pl : Plane) (k : Nat) (c : CopyCmd) : Bool :=
  c.mon || (!pl.halted && ((pl.hold[k]?).getD none).isNone)

/-- The channels after flags may have been set: a COPYQ at the head of one, which nothing holds, starts in the clk in which the flag
that it observes is set (R228). -/
def Plane.fire (pl : Plane) : Plane :=
  { pl with chan := pl.chan.mapIdx (fun k l =>
      match l with
      | [] => []
      | c :: r =>
        if pl.mayStart k c && c.fk.any (fun fk => (pl.regs.fl fk).on) && c.fired.isNone && !c.started then
          { c with fired := c.fk.map pl.regs.fl } :: r
        else c :: r) }

/-- Completes operation id on fn of a plane: writes the record, then sets the flag and unbinds it (R17, R87); nothing when
fn is bound to another operation. A completion, during a speculation, of an operation issued before it is noted, so that
a rollback keeps it (R250). -/
def Plane.complete (pl : Plane) (fn id : Nat) (q : Quad) : Plane :=
  if (pl.regs.fl fn).bound ≠ some id then pl
  else
    let pl := Plane.fire { pl with regs := pl.regs.setFl fn { on := true, status := q, bound := none, last := id, soft := false } }
    match pl.spec with
    | some sp => if id < sp.firstOp then { pl with spec := some { sp with doneFlags := sp.doneFlags ++ [(fn, id, q)] } } else pl
    | none => pl

/-- Completes an operation of the plane p of tile r. -/
def completeFlag (s : State) (r p fn id : Nat) (q : Quad) : State := s.modPlane r p (fun pl => pl.complete fn id q)

end Sys2Proof.Machine
end

