-- ==== Sys2Proof/Machine/Float.lean ====
section
/-! DEFINITION. Floating-point arithmetic (spec/03_numbers.md R48 to R50, R57 to R66): values are exact, m × 2^e with a
sign, and every operation rounds once at its end. -/

namespace Sys2Proof.Machine

/-- A floating-point value: NaN, an infinity, or ±m × 2^e; zeros have m = 0 and keep their sign. -/
inductive FV where
  | nan
  | inf (neg : Bool)
  | fin (neg : Bool) (m : Nat) (e : Int)
  deriving DecidableEq, Repr, Inhabited

/-- A binary format (Table 3.1): exponent and mantissa widths, and whether it is e4m3, which has no infinity. -/
structure Fmt where
  eb : Nat
  mb : Nat
  noInf : Bool := false
  deriving DecidableEq, Repr

/-- f32. -/
def f32 : Fmt := { eb := 8, mb := 23 }
/-- bf16. -/
def bf16 : Fmt := { eb := 8, mb := 7 }
/-- f16. -/
def f16 : Fmt := { eb := 5, mb := 10 }
/-- e4m3. -/
def e4m3 : Fmt := { eb := 4, mb := 3, noInf := true }
/-- e5m2. -/
def e5m2 : Fmt := { eb := 5, mb := 2 }

/-- The floating format of a type code (Table 3.1); f32 for a code of no floating format. -/
def fmtOf (ty : Nat) : Fmt :=
  if ty = 1 then bf16 else if ty = 2 then f16 else if ty = 6 then e4m3 else if ty = 7 then e5m2 else f32

/-- The exponent bias. -/
def Fmt.bias (f : Fmt) : Nat := 2 ^ (f.eb - 1) - 1
/-- The sign bit's weight. -/
def Fmt.sign (f : Fmt) : Nat := 2 ^ (f.eb + f.mb)
/-- The exponent of the least subnormal. -/
def Fmt.emin (f : Fmt) : Int := 1 - (f.bias : Int) - (f.mb : Int)
/-- The bits of +∞, or for e4m3 of the NaN that stands above the largest finite value. -/
def Fmt.infBits (f : Fmt) : Nat := if f.noInf then 2 ^ (f.eb + f.mb) - 1 else (2 ^ f.eb - 1) * 2 ^ f.mb
/-- The bits of the largest finite value (Table 3.2). -/
def Fmt.maxBits (f : Fmt) : Nat := f.infBits - 1
/-- The canonical NaN (Table 3.2). -/
def Fmt.nanBits (f : Fmt) : Nat := if f.noInf then f.infBits else f.infBits + 2 ^ (f.mb - 1)
/-- Bits with a sign. -/
def Fmt.withSign (f : Fmt) (neg : Bool) (b : Nat) : Nat := if neg then f.sign + b else b

/-- The value of an encoding (R48, R49). -/
def Fmt.decode (f : Fmt) (b : Nat) : FV :=
  let neg := decide (b / f.sign % 2 = 1)
  let mag := b % f.sign
  let e := mag / 2 ^ f.mb
  let m := mag % 2 ^ f.mb
  if f.infBits < mag ∨ (f.noInf ∧ mag = f.infBits) then .nan
  else if !f.noInf && decide (mag = f.infBits) then .inf neg
  else if e = 0 then .fin neg m f.emin
  else .fin neg (2 ^ f.mb + m) (f.emin + (e : Int) - 1)

/-- A rounding: one of the modes of Table 3.4 (RNE, RZ, RU, RD), or stochastic with its draw (R62). -/
inductive Rnd where
  | rne
  | rz
  | ru
  | rd
  | sr (g : Nat)
  deriving DecidableEq, Repr

/-- The mode of FRM (Table 3.4). -/
def rndOf (frm : Nat) : Rnd := if frm = 0 then .rne else if frm = 1 then .rz else if frm = 2 then .ru else .rd

/-- Whether q = ⌊v⌋ with the fraction rem / 2^sh is rounded away from zero. -/
def roundUp (r : Rnd) (neg : Bool) (q rem sh : Nat) : Bool :=
  match r with
  | .rne => decide (2 ^ sh < 2 * rem ∨ (2 * rem = 2 ^ sh ∧ rem ≠ 0 ∧ q % 2 = 1))
  | .rz => false
  | .ru => !neg && decide (rem ≠ 0)
  | .rd => neg && decide (rem ≠ 0)
  | .sr g => decide (2 ^ 16 ≤ rem * 2 ^ 16 / 2 ^ sh + g)

/-- m × 2^e cut at the exponent q: the integer part, the rest and the bits of the rest. -/
def cutAt (m : Nat) (e q : Int) : Nat × Nat × Nat :=
  if q ≤ e then (m * 2 ^ (e - q).toNat, 0, 0)
  else
    let sh := (q - e).toNat
    (m / 2 ^ sh, m % 2 ^ sh, sh)

/-- The magnitude of a result beyond the largest finite value (R59, Table 3.6). -/
def overBits (f : Fmt) (r : Rnd) (neg : Bool) : Nat :=
  match r with
  | .rne | .sr _ => f.infBits
  | .rz => f.maxBits
  | .ru => if neg then f.maxBits else f.infBits
  | .rd => if neg then f.infBits else f.maxBits

/-- Rounds ±m × 2^e, m ≠ 0, to a format once (R59, R62): the encoding and the flags. With sat, an overflow gives the
largest finite value with SV and NX (Table 3.6). For e4m3 an overflow to an infinity gives the canonical NaN. -/
def roundFin (f : Fmt) (r : Rnd) (sat neg : Bool) (m : Nat) (e : Int) : Nat × BitVec 6 :=
  let top := e + (Nat.log2 m : Int)
  let free := top - (f.mb : Int)
  let q := if f.emin ≤ free then free else f.emin
  let c := cutAt m e q
  let sig := if roundUp r neg c.1 c.2.1 c.2.2 then c.1 + 1 else c.1
  let bits := (q - f.emin).toNat * 2 ^ f.mb + sig
  if f.maxBits < bits then
    (if sat then (f.withSign neg f.maxBits, fSV ||| fNX)
     else
       let b := overBits f r neg
       (if f.noInf && decide (b = f.infBits) then f.nanBits else f.withSign neg b, fOF ||| fNX))
  else
    let inexact := decide (c.2.1 ≠ 0)
    let tiny := match r with
      | .sr _ => decide (top < f.emin + (f.mb : Int))
      | _ =>
        let d := cutAt m e free
        let s := if roundUp r neg d.1 d.2.1 d.2.2 then d.1 + 1 else d.1
        decide (free + (Nat.log2 s : Int) < f.emin + (f.mb : Int))
    (f.withSign neg bits, (if inexact then fNX else 0) ||| (if inexact && tiny then fUF else 0))

/-- Rounds any value; a NaN becomes canonical (R50), an infinity stays, or is e4m3's NaN. -/
def roundFV (f : Fmt) (r : Rnd) (v : FV) : Nat × BitVec 6 :=
  match v with
  | .nan => (f.nanBits, 0)
  | .inf n => (if f.noInf then f.nanBits else f.withSign n f.infBits, 0)
  | .fin n m e => if m = 0 then (f.withSign n 0, 0) else roundFin f r false n m e

/-- The negated value. -/
def FV.neg : FV → FV
  | .nan => .nan
  | .inf n => .inf (!n)
  | .fin n m e => .fin (!n) m e

/-- The exact product; none for ∞ × 0. -/
def FV.mul : FV → FV → Option FV
  | .nan, _ => some .nan
  | _, .nan => some .nan
  | .inf a, .inf b => some (.inf (a != b))
  | .inf a, .fin b m _ => if m = 0 then none else some (.inf (a != b))
  | .fin a m _, .inf b => if m = 0 then none else some (.inf (a != b))
  | .fin a m e, .fin b n k => some (.fin (a != b) (m * n) (e + k))

/-- Whether a value is NaN. -/
def FV.isNan : FV → Bool
  | .nan => true
  | _ => false
/-- Whether a value is the infinity of a sign. -/
def FV.isInf (neg : Bool) : FV → Bool
  | .inf n => n == neg
  | _ => false
/-- Whether a value is the zero of a sign. -/
def FV.isZero (neg : Bool) : FV → Bool
  | .fin n m _ => n == neg && decide (m = 0)
  | _ => false

/-- A finite value as an integer multiple of 2^lo, for lo at most its exponent. -/
def FV.scaled (lo : Int) : FV → Int
  | .fin n m e => (if n then -1 else 1) * ((m * 2 ^ (e - lo).toNat : Nat) : Int)
  | _ => 0
/-- The exponent of a finite value. -/
def FV.expo : FV → Int
  | .fin _ _ e => e
  | _ => 0

/-- The least exponent of a list of values. -/
def minExp : List FV → Int
  | [] => 0
  | [v] => v.expo
  | v :: r => min v.expo (minExp r)

/-- The sum of a list of values, exact and rounded once (R59, R66). nv is an invalid product among them. -/
def sumFV (f : Fmt) (r : Rnd) (nv : Bool) (ts : List FV) : Nat × BitVec 6 :=
  let both := ts.any (FV.isInf true) && ts.any (FV.isInf false)
  if nv || both then (f.nanBits, fNV)
  else if ts.any FV.isNan then (f.nanBits, 0)
  else if ts.any (FV.isInf true) then (f.withSign true f.infBits, 0)
  else if ts.any (FV.isInf false) then (f.infBits, 0)
  else if ts.all (FV.isZero true) then (f.withSign true 0, 0)
  else if ts.all (FV.isZero false) then (0, 0)
  else
    let lo := minExp ts
    let t := ts.foldl (fun (a : Int) v => a + v.scaled lo) 0
    if t = 0 then (f.withSign (decide (r = .rd)) 0, 0)
    else roundFin f r false (decide (t < 0)) t.natAbs lo

/-- a + b. -/
def fadd (f : Fmt) (r : Rnd) (a b : FV) : Nat × BitVec 6 := sumFV f r false [a, b]
/-- a − b. -/
def fsub (f : Fmt) (r : Rnd) (a b : FV) : Nat × BitVec 6 := sumFV f r false [a, b.neg]
/-- a × b. -/
def fmul (f : Fmt) (r : Rnd) (a b : FV) : Nat × BitVec 6 :=
  match a.mul b with
  | none => (f.nanBits, fNV)
  | some p => roundFV f r p
/-- a × b + d with one rounding. -/
def ffma (f : Fmt) (r : Rnd) (a b d : FV) : Nat × BitVec 6 :=
  match a.mul b with
  | none => (f.nanBits, fNV)
  | some p => sumFV f r false [p, d]
/-- d − a × b with one rounding. -/
def ffms (f : Fmt) (r : Rnd) (a b d : FV) : Nat × BitVec 6 :=
  match a.mul b with
  | none => (f.nanBits, fNV)
  | some p => sumFV f r false [d, p.neg]

/-- a ÷ b, correctly rounded (R59). The quotient is cut after many bits with a last bit that tells it is not exact. -/
def fdiv (f : Fmt) (r : Rnd) (a b : FV) : Nat × BitVec 6 :=
  match a, b with
  | .nan, _ => (f.nanBits, 0)
  | _, .nan => (f.nanBits, 0)
  | .inf _, .inf _ => (f.nanBits, fNV)
  | .inf x, .fin y _ _ => (f.withSign (x != y) f.infBits, 0)
  | .fin x _ _, .inf y => (f.withSign (x != y) 0, 0)
  | .fin x m e, .fin y n k =>
    if n = 0 then (if m = 0 then (f.nanBits, fNV) else (f.withSign (x != y) f.infBits, fDZ))
    else if m = 0 then (f.withSign (x != y) 0, 0)
    else
      let q := m * 2 ^ 80 / n
      let s := if m * 2 ^ 80 % n = 0 then 0 else 1
      roundFin f r false (x != y) (2 * q + s) (e - k - 81)

/-- The integer square root, by bits from 2^b down. -/
def isqrtGo (n : Nat) : Nat → Nat → Nat
  | 0, r => r
  | b + 1, r => if (r + 2 ^ b) * (r + 2 ^ b) ≤ n then isqrtGo n b (r + 2 ^ b) else isqrtGo n b r

/-- The integer square root. -/
def isqrt (n : Nat) : Nat := isqrtGo n (Nat.log2 n / 2 + 1) 0

/-- The square root (R59). -/
def fsqrt (f : Fmt) (r : Rnd) (a : FV) : Nat × BitVec 6 :=
  match a with
  | .nan => (f.nanBits, 0)
  | .inf n => if n then (f.nanBits, fNV) else (f.infBits, 0)
  | .fin n m e =>
    if m = 0 then (f.withSign n 0, 0)
    else if n then (f.nanBits, fNV)
    else
      let m := if e % 2 = 0 then m else 2 * m
      let e := if e % 2 = 0 then e else e - 1
      let v := m * 2 ^ 120
      let q := isqrt v
      roundFin f r false false (2 * q + (if q * q = v then 0 else 1)) (e / 2 - 61)

/-- The reciprocal square root (R59). -/
def frsq (f : Fmt) (r : Rnd) (a : FV) : Nat × BitVec 6 :=
  match a with
  | .nan => (f.nanBits, 0)
  | .inf n => if n then (f.nanBits, fNV) else (0, 0)
  | .fin n m e =>
    if m = 0 then (f.withSign n f.infBits, fDZ)
    else if n then (f.nanBits, fNV)
    else
      let m := if e % 2 = 0 then m else 2 * m
      let e := if e % 2 = 0 then e else e - 1
      let q := isqrt (2 ^ 200 / m)
      roundFin f r false false (2 * q + (if q * q * m = 2 ^ 200 then 0 else 1)) (-(e / 2) - 101)

/-- One, for reciprocals. -/
def fOne : FV := .fin false 1 0

/-- Compares finite or infinite values: a < b. NaN is below nothing. -/
def FV.lt (a b : FV) : Bool :=
  match a, b with
  | .nan, _ => false
  | _, .nan => false
  | .inf x, .inf y => x && !y
  | .inf x, .fin _ _ _ => x
  | .fin _ _ _, .inf y => !y
  | .fin x m e, .fin y n k =>
    let lo := min e k
    decide ((FV.fin x m e).scaled lo < (FV.fin y n k).scaled lo)

/-- Whether two values are equal, −0 being +0. NaN equals nothing. -/
def FV.eqv (a b : FV) : Bool := !a.isNan && !b.isNan && !(a.lt b) && !(b.lt a)

/-- The value of an integer. -/
def FV.ofInt (i : Int) : FV := .fin (decide (i < 0)) i.natAbs 0

/-- A finite value rounded to an integer, and whether that was inexact (R61). -/
def roundInt (r : Rnd) (neg : Bool) (m : Nat) (e : Int) : Int × Bool :=
  let c := cutAt m e 0
  let q := if roundUp r neg c.1 c.2.1 c.2.2 then c.1 + 1 else c.1
  (if neg then -(q : Int) else (q : Int), decide (c.2.1 ≠ 0))

/-! ## VEXP2 (R64) -/

/-- TAB[j]: the integer nearest to 2^(j/64) × 2^30. -/
def exp2Tab : List Nat :=
  [1073741824, 1085434106, 1097253708, 1109202018, 1121280436, 1133490379, 1145833280, 1158310587]
    ++ [1170923762, 1183674286, 1196563654, 1209593378, 1222764986, 1236080024, 1249540052, 1263146652]
    ++ [1276901417, 1290805962, 1304861917, 1319070932, 1333434672, 1347954824, 1362633090, 1377471191]
    ++ [1392470869, 1407633882, 1422962010, 1438457051, 1454120821, 1469955159, 1485961921, 1502142985]
    ++ [1518500250, 1535035634, 1551751076, 1568648537, 1585730000, 1602997467, 1620452965, 1638098541]
    ++ [1655936265, 1673968228, 1692196547, 1710623359, 1729250827, 1748081133, 1767116489, 1786359126]
    ++ [1805811301, 1825475297, 1845353420, 1865448001, 1885761398, 1906295993, 1927054196, 1948038440]
    ++ [1969251188, 1990694927, 2012372174, 2034285470, 2056437387, 2078830522, 2101467502, 2124350982]

/-- C1, the integer nearest to ln2 × 2^32. -/
def exp2C1 : Nat := 2977044472
/-- C2, the integer nearest to (ln2)² / 2 × 2^32. -/
def exp2C2 : Nat := 1031764991
/-- C3, the integer nearest to (ln2)³ / 6 × 2^32. -/
def exp2C3 : Nat := 238388332

/-- VEXP2 of a value, rounded to a format (R64). An argument of 2^12 or more is beyond every format's range either way,
and is cut there, which changes no result. -/
def fexp2 (f : Fmt) (r : Rnd) (a : FV) : Nat × BitVec 6 :=
  match a with
  | .nan => (f.nanBits, 0)
  | .inf n => if n then (0, 0) else (f.infBits, 0)
  | .fin neg m e =>
    let x : Int := if (0 : Int) ≤ e then (if neg then -1 else 1) * ((m * 2 ^ (min e.toNat 200) : Nat) : Int) * 2 ^ 32
      else (if neg then -1 else 1) * ((m * 2 ^ 32 : Nat) : Int)
    let den : Int := if (0 : Int) ≤ e then 1 else 2 ^ ((-e).toNat)
    let fx := Int.fdiv x den
    let n := Int.fdiv fx (2 ^ 32)
    let n' := if n < -4096 then -4096 else if 4096 < n then 4096 else n
    let frac := (fx - n * 2 ^ 32).toNat
    let j := frac / 2 ^ 26
    let u := frac % 2 ^ 26
    let p := exp2C3 * u / 2 ^ 32
    let p := (exp2C2 + p) * u / 2 ^ 32
    let p := (exp2C1 + p) * u / 2 ^ 32
    let t := (exp2Tab[j]?).getD 0
    roundFin f r false false (t + t * p / 2 ^ 32) (n' - 30)

end Sys2Proof.Machine
end

