-- ==== Sys2Proof/Machine/Package.lean ====
section
/-! DEFINITION. A package's registers and units: configuration registers (R330), partitions and granules (R23, R328),
DEVST and the health table (R333, R337), and the fence of a unit (R339, R343). -/

namespace Sys2Proof.Machine

/-- The reset values of the configuration registers that Package.cfg holds (Tables 7.1, 17.5, 19.1, 19.11, 19.13). -/
def cfgReset (a : Nat) : Nat :=
  if a = 0x8 then 60 * 2 ^ 52 + 1024 * 2 ^ 40 + 4 * 2 ^ 32 + 16 * 2 ^ 16 + 4
  else if a = 0x10 then 2300
  else if 0x10000 ≤ a ∧ a < 0x14000 then
    let o := a % 0x1000
    if o < 0x200 then (if o / 8 < 60 then 2 ^ 31 + o / 8 % 16 else 0)
    else if o = 0x200 then 4
    else if o = 0x208 then 1
    else 0
  else if a = 0x20000 then 0x800 * 2 ^ 48 + 250 * 2 ^ 32
  else 0

/-- A configuration register. -/
def Package.reg (p : Package) (a : Nat) : Nat := ngetD p.cfg a (cfgReset a)

/-- Stores a configuration register. -/
def Package.setReg (p : Package) (a v : Nat) : Package := { p with cfg := nset p.cfg a v }

/-- PARTn (Table 19.1). -/
def Package.part (p : Package) (n : Nat) : Nat := p.reg (0x100 + 8 * n)
/-- Whether partition n is configured. -/
def Package.partValid (p : Package) (n : Nat) : Bool := decide (n < 8) && (p.part n).testBit 31
/-- The granules of partition n. -/
def Package.partMask (p : Package) (n : Nat) : Nat := p.part n % 256
/-- The domain of partition n. -/
def Package.partDomain (p : Package) (n : Nat) : Nat := bitsHL (p.part n) 19 8

/-- The granule of an endpoint (R23). -/
def granuleOf (ep : Nat) : Option Nat :=
  if ep < 0x400 then some (ep / 256 * 2 + ep / 16 % 16 / 8)
  else if ep < 0x500 then some ((ep - 0x400) / 32)
  else none

/-- The valid partition that holds a granule. -/
def Package.partOfGranule (p : Package) (g : Nat) : Option Nat :=
  (List.range 8).find? (fun n => p.partValid n && (p.partMask n).testBit g)

/-- The partition of a rank. -/
def State.partOf (s : State) (rank : Nat) : Option Nat :=
  (granuleOf (epOf rank)).bind (s.pkg (pkgOf rank)).partOfGranule

/-- Whether a packet issued under partition part of package pkg may reach a rank (R23, R329): inside the package the
partition must be the same; elsewhere the rank must lie in a valid partition of the same domain. -/
def State.mayReach (s : State) (pkg part rank : Nat) : Bool :=
  match s.partOf rank with
  | none => false
  | some n =>
    if pkgOf rank = pkg then decide (n = part)
    else decide ((s.pkg (pkgOf rank)).partDomain n = (s.pkg pkg).partDomain part)

/-! ## The health table -/

/-- The health entry of an endpoint: a tile or a vault (R337). -/
def healthEntry (ep : Nat) : Nat := if ep < 1024 then ep else 1088 + (ep - 0x400)

/-- A health entry without TESTAGE. -/
def Package.healthOf (p : Package) (e : Nat) : Nat := ngetD p.health e 0

/-- FENCED of an entry. -/
def Package.isFenced (p : Package) (e : Nat) : Bool := (p.healthOf e).testBit 63
/-- SPARED of an entry. -/
def Package.isSpared (p : Package) (e : Nat) : Bool := (p.healthOf e).testBit 62

/-- Sets a bit field [hi:lo] of a number. -/
def putBits (v hi lo x : Nat) : Nat := v - bitsHL v hi lo * 2 ^ lo + x % 2 ^ (hi + 1 - lo) * 2 ^ lo

/-- Adds one to a saturating field of a health entry. -/
def Package.bumpHealth (p : Package) (e hi lo : Nat) : Package :=
  let v := p.healthOf e
  { p with health := nset p.health e (putBits v hi lo (min (bitsHL v hi lo + 1) (2 ^ (hi + 1 - lo) - 1))) }

/-- TESTAGE of an entry, in ms (Table 19.10): the reset value for a unit that has passed no test. -/
def State.testAge (s : State) (pkg e : Nat) : Nat :=
  match nget (s.pkg pkg).lastPass e with
  | some t => min ((s.podTime - t) / 1000000) 0xFFFFFF
  | none => 0

/-- A health entry as HEALTHRD writes it. -/
def State.healthWord (s : State) (pkg e : Nat) : Nat :=
  putBits ((s.pkg pkg).healthOf e) 23 0 (s.testAge pkg e)

/-- Whether the management core of a stack is down (R132). -/
def Package.smcDown (p : Package) (k : Nat) : Bool := p.smcOff.contains k

/-- REASON of a stack's entry, while it is not fenced: a fence keeps its own (log entry 98). -/
def Package.setReason (p : Package) (k r : Nat) : Package :=
  let e := 2368 + k
  if p.isFenced e then p else { p with health := nset p.health e (putBits (p.healthOf e) 61 56 r) }

/-- The spare tiles of a die that are in use. -/
def Package.sparesUsed (p : Package) (die : Nat) : Nat :=
  ((List.range 16).filter (fun c => p.isSpared (1024 + 16 * die + c) || p.isFenced (1024 + 16 * die + c))).length

/-- SPAREMIN (Table 19.5). -/
def Package.spareMin (p : Package) : Nat := ((List.range 4).map (fun d => 16 - p.sparesUsed d)).foldl min 16

/-- NFENCED: units fenced and not repaired by a spare. -/
def Package.nfenced (p : Package) : Nat := (p.health.filter (fun e => e.2.testBit 63)).length

/-- DEVST (Table 19.5). -/
def Package.devst (p : Package) : Nat :=
  p.clk * 2 ^ 32 + p.nfenced % 2 ^ 16 * 2 ^ 16 + p.spareMin * 2 ^ 8 + p.stage * 2 ^ 5
    + (if p.failed then 2 ^ 4 else 0) + (if p.clk < 25 then 2 ^ 3 else 0)
    + (if 0 < p.nfenced ∨ p.degradedSmc then 2 ^ 2 else 0) + (if p.replaceReq then 2 else 0) + (if p.ready then 1 else 0)

/-- Whether a lane carries nothing because it is fenced. -/
def Package.laneFenced (p : Package) (l : Nat) : Bool := p.isFenced (1344 + l)

/-- The default position of a lane (R137). -/
def lanePos (l : Nat) : Nat := if l = 1023 then 0 else l % 31 + 1

/-- The position to which a lane is tuned. -/
def Package.pos (p : Package) (l : Nat) : Nat := ngetD p.lane l (lanePos l)

/-- The lanes in service that point at a position. -/
def Package.lanesAt (p : Package) (g : Nat) : Nat :=
  ((List.range 1024).filter (fun l => decide (p.pos l = g) && !p.laneFenced l && !p.homing.contains l)).length

/-- A condition of R343 that a CFGWR of DEVST bit 1 may not clear: the spare-count and vault conditions (Table 19.5). -/
def Package.spareOrVault (p : Package) : Bool :=
  (List.range 4).any (fun d => decide (16 - p.sparesUsed d < p.reg 8 % 256))
    || (List.range 256).any (fun v => p.isFenced (1088 + v))

/-- Whether the k-th condition of R343 holds. -/
def Package.replaceCond (p : Package) (k : Nat) : Bool :=
  match k with
  | 0 => (List.range 4).any (fun d => decide (16 - p.sparesUsed d < p.reg 8 % 256))
  | 1 => (List.range 1024).any (fun e => p.isFenced e &&
          (p.isSpared (1024 + e / 256 * 16 + e % 16) || p.isFenced (1024 + e / 256 * 16 + e % 16)))
  | 2 => (List.range 256).any (fun v => p.isFenced (1088 + v))
  | 3 => (List.range 8).any (fun k => decide (3 ≤ ngetD p.smcFails k 0))
  | _ => (List.range 31).any (fun j => (List.range 33).all (fun i => p.laneFenced (31 * i + j)))

/-- The conditions of R343 that hold. -/
def Package.replaceNow (p : Package) : List Nat := (List.range 5).filter p.replaceCond

/-- Sets REPLACE_REQUESTED and writes its record when a condition of R343 first holds: when it holds and did not at the last look
(DESIGN CHOICE, log entry 98). -/
def checkReplace (s : State) (pkg : Nat) : State :=
  let now := (s.pkg pkg).replaceNow
  let first := now.any (fun k => !(s.pkg pkg).replaceOn.contains k)
  let s := s.modPkg pkg (fun p => { p with replaceOn := now, replaceReq := p.replaceReq || first })
  if first then blackBox s pkg 0x0012 (Config.noUnit 0x0012 pkg) (s.pkg pkg).devst else s

/-- The UNIT of a record about a health entry (Table 19.7): the rank of a tile or vault, else the entry number. -/
def unitOfEntry (pkg e : Nat) : Nat :=
  if e < 1024 then pkg * 4096 + e
  else if 1088 ≤ e ∧ e < 1344 then pkg * 4096 + 0x400 + (e - 1088)
  else e

/-- A fresh number of a launch, a graph or a phase: one counter for all of them (DESIGN CHOICE, log entry 105). -/
def freshNum (s : State) : Nat × State := (s.nextNum, { s with nextNum := s.nextNum + 1 })

/-- n bytes of a launch record at an offset, as a number (Table 17.2). -/
def Launch.f (l : Launch) (off n : Nat) : Nat := leNat ((l.image.drop off).take n)

/-- QID of a launch. -/
def Launch.qid (l : Launch) : Nat := l.f 48 1
/-- DUAL of a launch. -/
def Launch.dual (l : Launch) : Bool := (l.f 50 1).testBit 1

/-- The launch on system queue 60 that tests a tile (R306, R338). -/
def systemTest (num pkg e : Nat) : Launch :=
  { num := num, job := 0, pkg := pkg, image := List.replicate 48 0 ++ [60], test := some e }

/-- The launches after a tile has left service: a test of it is gone, and a gang that waits holds no plane there, nor at the
other tile of a pair (R308, R314). -/
def dropHeld (l : List Launch) (pkg e : Nat) : List Launch :=
  (l.filter (fun l => !decide (l.pkg = pkg ∧ l.test = some e))).map (fun l =>
    { l with heldPlanes := l.heldPlanes.filter (fun x =>
        decide (x.1 ≠ pkg * 4096 + e) && (!l.dual || decide (x.1 / 2 ≠ (pkg * 4096 + e) / 2))) })

/-- Queues a field test of a unit, which waits until the unit is idle (R338); how it comes out is free. A tile's is a launch on
system queue 60. A fenced unit is not tested. -/
def queueTest (s : State) (pkg e : Nat) : State :=
  if (s.pkg pkg).isFenced e then s
  else if e < 1024 then
    if s.launches.any (fun l => decide (l.pkg = pkg ∧ l.test = some e)) then s
    else
      let (num, s) := freshNum s
      emitOnce { s with launches := s.launches ++ [systemTest num pkg e] } (.placementDecision pkg (e / 256))
  else if s.agenda.any (fun d => decide (d.ev = .fieldTest pkg e true ∨ d.ev = .fieldTest pkg e false)) then s
  else emit s (.fieldTest pkg e (Config.testPasses s.tick e))

/-- The spare of an entry repairs no tile from now on: each fenced tile of its column at which a task is suspended has its fence
notice due again, for the coordinator ends that task (R299). -/
def columnLost (s : State) (pkg e : Nat) : State :=
  (List.range 16).foldl (fun s y =>
    let r := pkg * 4096 + (e - 1024) / 16 * 256 + 16 * y + e % 16
    if (s.tile r).fenced && s.suspended.any (fun u => decide (u.rank = r)) then emitOnce s (.fenceNotice r r) else s) s

/-- Marks a unit fenced with a REASON of Table 19.10, with its FENCE record (R339); nothing when it is fenced already. -/
def fenceEntry (s : State) (pkg e reason : Nat) : State :=
  if (s.pkg pkg).isFenced e then s
  else
    let s := s.modPkg pkg (fun p =>
      { p with health := nset p.health e (putBits (putBits (p.healthOf e) 63 63 1) 61 56 reason) })
    let s := blackBox s pkg 0x0010 (unitOfEntry pkg e) (reason + e * 2 ^ 16)
    let s := if 1088 ≤ e ∧ e < 1344 then
        s.modVault (pkg * 4096 + 0x400 + (e - 1088)) (fun v => { v with fenced := true })
      else s
    let s := if e < 1024 then emitOnce { s with launches := dropHeld s.launches pkg e } (.spareRepair pkg e) else s
    let s := if 1024 ≤ e ∧ e < 1088 then columnLost s pkg e else s
    checkReplace s pkg

/-- The tile of a health entry. -/
def tileOfEntry (pkg e : Nat) : Option Nat := if e < 1024 then some (pkg * 4096 + e) else none

/-- Fences a unit (R339, R340). A tile leaves the network at once; the rest of its fence, the coordinator's work of R314, is
due as a fence notice from the tile to itself. -/
def fenceUnit (s : State) (pkg e reason : Nat) : State :=
  if (s.pkg pkg).isFenced e then s
  else
    let s := fenceEntry s pkg e reason
    match tileOfEntry pkg e with
    | some r => emitOnce (s.modTile r (fun t => { t with fenced := true, monitor := false, running := none })) (.fenceNotice r r)
    | none => s

/-- The window in which a unit's events are counted now (Table 19.11): a second for a lane, an hour for a tile or a vault. -/
def windowOf (s : State) (e : Nat) : Nat := s.podTime / (if 1344 ≤ e ∧ e < 2368 then 1000000000 else 3600000000000)

/-- Counts an event against a limit of HLIMITS within its window, and fences the unit that reaches it (R339). -/
def countWindow (s : State) (pkg e lim reason : Nat) : State :=
  let w := windowOf s e
  let old := ngetD (s.pkg pkg).windowCount e (w, 0)
  let n := if old.1 = w then old.2 + 1 else 1
  let s := s.modPkg pkg (fun p => { p with windowCount := nset p.windowCount e (w, n) })
  if lim ≤ n then fenceUnit s pkg e reason else s

end Sys2Proof.Machine
end

