-- ==== Sys2Proof/Machine/Object.lean ====
section
/-! DEFINITION. What stands behind a device-physical address: pages, slice entries and frames (R322 to R324), granules that cannot be
read (R326), and the reduction objects whose sums a read completes (R106, R117). -/

namespace Sys2Proof.Machine

/-! ## Frames -/

/-- The 64 KiB device-physical page of a DPA (R322). -/
def dpn64 (dpa : Nat) : Nat := bitsHL dpa 38 16

/-- A slice entry (Table 18.4); at reset it names the nominal place. -/
def Package.sliceOf (p : Package) (dpn : Nat) : Nat :=
  ngetD p.slice dpn (dpn / 2 ^ 20 % 8 * 2 ^ 28 + dpn % 32 * 2 ^ 23 + dpn / 32 % 2 ^ 15 * 2 ^ 8)

/-- MOVING of a slice entry. -/
def Package.isMoving (p : Package) (dpn : Nat) : Bool := (p.sliceOf dpn).testBit 31

/-- The rank of the nominal vault of a DPA. -/
def nominalVault (pkg dpa : Nat) : Nat := pkg * 4096 + 0x400 + dpa / 2 ^ 36 % 8 * 32 + dpa / 2 ^ 16 % 32

/-- The rank of the vault that holds a DPA's page now. -/
def State.holdingVault (s : State) (pkg dpa : Nat) : Nat :=
  let e := (s.pkg pkg).sliceOf (dpn64 dpa)
  pkg * 4096 + 0x400 + bitsHL e 30 28 * 32 + bitsHL e 27 23

/-- The address in memory of a DPA, through the slice entry of its page. -/
def State.dpaAddr (s : State) (pkg dpa : Nat) : Nat :=
  let e := (s.pkg pkg).sliceOf (dpn64 dpa)
  vaultAddr pkg (bitsHL e 30 28) (bitsHL e 27 23) (bitsHL e 22 8) (dpa % 65536)

/-- Whether the granule of a vault address cannot be read: its vault is fenced (R340), or it has an uncorrectable error
(R326). -/
def State.memBad (s : State) (pkg dpa : Nat) : Bool :=
  let v := s.vault (s.holdingVault pkg dpa)
  let g := s.dpaAddr pkg dpa / 16
  v.fenced || v.bad.contains g || Config.memError s.tick g

/-- Bytes of vault memory by DPA. -/
def State.dpaBytes (s : State) (pkg dpa n : Nat) : List Byte :=
  (List.range n).map (fun i => memGet s.mem (s.dpaAddr pkg (dpa + i)))

/-- Writes bytes of vault memory by DPA; a granule written whole has good check bits again (R326). -/
def State.dpaStore (s : State) (pkg dpa : Nat) (bytes : List Byte) : State :=
  { s with
    mem := (List.range bytes.length).foldl (fun m i => memPut m (s.dpaAddr pkg (dpa + i)) ((bytes[i]?).getD 0)) s.mem }

/-- The DPAs of the granules of n bytes. -/
def granDpas (dpa n : Nat) : List Nat :=
  if n = 0 then [] else (List.range ((dpa + n - 1) / 16 + 1 - dpa / 16)).map (fun i => (dpa / 16 + i) * 16)

/-- The first granule of n bytes that cannot be read (R326). -/
def firstBad (s : State) (pkg dpa n : Nat) : Option Nat := (granDpas dpa n).find? (fun g => s.memBad pkg g)

/-! ## Reduction objects (R106, R117) -/

/-- The bytes of the WRITTEN bitmap of an object of n slots (Table 6.3). -/
def bitmapLen (n : Nat) : Nat := 64 * ((n + 511) / 512)

/-- Whether an object of n slots is one (R117). -/
def objOk (base n : Nat) : Bool := decide (1 ≤ n ∧ n ≤ 15872 ∧ base % 65536 + 64 + bitmapLen n + 4 * n ≤ 65536)

/-- A slot as the sum counts it: +0 when it is not written. -/
def slotBits (s : State) (pkg base n k : Nat) : Nat :=
  if (leNat (s.dpaBytes pkg (base + 64 + k / 8) 1)).testBit (k % 8) then leNat (s.dpaBytes pkg (base + 64 + bitmapLen n + 4 * k) 4)
  else 0

/-- The sum of R106. -/
def redSum (s : State) (pkg base n : Nat) : Nat :=
  let l := (List.range n).map (slotBits s pkg base n)
  if l.any (fun x => (f32.decode x).isNan) then 0x7FC00000
  else (l.drop 1).foldl (fun a x => (fadd f32 .rne (f32.decode a) (f32.decode x)).1) (l.headD 0)

/-- Completes the sum of a dirty object into its RESULT, and the object is clean. An object whose header is out of range
leaves the table; one with an unreadable granule gives that granule. -/
def completeSum (s : State) (home pkg base : Nat) : State × Option Nat :=
  match firstBad s pkg base 16 with
  | some g => (s, some g)
  | none =>
    let n := leNat (s.dpaBytes pkg (base + 4) 4)
    if !objOk base n then (s.modVault home (fun v => { v with objects := v.objects.filter (fun o => decide (o.1 ≠ base)) }), none)
    else
      match firstBad s pkg (base + 64) (bitmapLen n + 4 * n) with
      | some g => (s, some g)
      | none =>
        let s := s.dpaStore pkg base (leBytes 4 (redSum s pkg base n))
        (s.modVault home (fun v => { v with objects := v.objects.map (fun o => if o.1 = base then (base, false) else o) }), none)

/-- An object moved to the place of the most recently used. -/
def useObj (v : Vault) (base : Nat) : Vault :=
  { v with objects := v.objects.filter (fun o => decide (o.1 ≠ base)) ++ v.objects.filter (fun o => decide (o.1 = base)) }

/-- What precedes a read of n bytes: sums of the dirty objects whose RESULT granule it covers; the granule that stands in the
way. -/
def readPrep (s : State) (home pkg dpa n : Nat) : State × Option Nat :=
  let l := (s.vault home).objects.filter (fun o => (granDpas dpa n).contains o.1)
  l.foldl (fun (x : State × Option Nat) o =>
    match x.2 with
    | some _ => x
    | none => if o.2 then completeSum (x.1.modVault home (fun v => useObj v o.1)) home pkg o.1
              else (x.1.modVault home (fun v => useObj v o.1), none)) (s, none)

/-! ## Granules that are read and written -/

/-- An uncorrectable error: the granule keeps it, and it is counted and recorded (R326, R337, R339, Table 19.9). -/
def memFault (s : State) (pkg dpa : Nat) : State :=
  let home := s.holdingVault pkg dpa
  let g := s.dpaAddr pkg dpa / 16
  let e := healthEntry (epOf home)
  let s := s.modVault home (fun v => if v.bad.contains g then v else { v with bad := v.bad ++ [g] })
  let s := countUp (blackBox (s.modPkg pkg (fun p => p.bumpHealth e 47 32)) pkg 0x0015 home (dpa % 2 ^ 42)) pkg 4
  countWindow s pkg e (bitsHL ((s.pkg pkg).reg 8) 39 32) 5

/-- A granule that could not be read: an error of the granule is counted and recorded, a vault's fence is not (R326, R340). -/
def noteBad (s : State) (pkg dpa : Nat) : State :=
  if (s.vault (s.holdingVault pkg dpa)).fenced then s else memFault s pkg dpa

/-- Writes the bytes of one granule: written whole, it has good check bits again (R326). -/
def storeGran (s : State) (pkg dpa : Nat) (b : List Byte) : State :=
  let g := s.dpaAddr pkg dpa / 16
  let h := s.holdingVault pkg dpa
  let s := s.dpaStore pkg dpa b
  if b.length = 16 ∧ (s.vault h).bad.contains g then s.modVault h (fun v => { v with bad := v.bad.erase g }) else s

/-- Writes bytes granule by granule in ascending order (R97); the answer is the state, the bytes written and the granule
that a partial write could not change. -/
def storeBytes (pkg : Nat) : List Nat → Nat → List Byte → State → State × Nat × Option Nat
  | [], _, _, s => (s, 0, none)
  | g :: r, dpa, b, s =>
    let n := min (g + 16 - dpa) b.length
    if n < 16 ∧ s.memBad pkg g = true then (s, 0, some g)
    else
      let x := storeBytes pkg r (dpa + n) (b.drop n) (storeGran s pkg dpa (b.take n))
      (x.1, x.2.1 + n, x.2.2)

/-- A read of n bytes by DPA in the vault order: the bytes, or the granule that cannot be read. -/
def vaultRead (s : State) (home pkg dpa n : Nat) : State × Except Nat (List Byte) :=
  match firstBad s pkg dpa n with
  | some g => (s, .error g)
  | none =>
    match readPrep s home pkg dpa n with
    | (s, some g) => (s, .error g)
    | (s, none) => (s, .ok (s.dpaBytes pkg dpa n))

end Sys2Proof.Machine
end

