-- ==== Sys2Proof/Machine/Operands.lean ====
section
/-! DEFINITION. The operand forms: immediates (R157), vector fields absolute and relative (R160), task addresses with
their checks (R19, R20, R219), and the tile-store accesses of every path with escrow, copy windows, protected buffers and
the races of unordered paths (R75, R91 to R98, R110). -/

namespace Sys2Proof.Machine

/-! ## Fields -/

/-- A signed immediate of an SI word, sign-extended (R157). -/
def simm (i : Imm) : Word := wrap64 (i.sval 10 9)

/-- An unsigned immediate. -/
def zimm (i : Imm) : Word := BitVec.ofNat 64 i.raw

/-- The vector register that a field names with its high bit (R160): absolute, or relative to an index register. -/
def vecField (s : State) (f hi : Nat) (rel : Bool) : Chk Nat :=
  if rel then checkV s ((readI s (f / 8 % 4)).toInt + ((hi * 8 + f % 8 : Nat) : Int))
  else checkV s ((hi * 32 + f : Nat) : Int)

/-- The register of a V word's vd field. -/
def vdReg (s : State) (vd lv : Nat) : Chk Nat := vecField s vd (lvHD lv) (decide (lvRel lv = 3))
/-- The register of a V word's va field. -/
def vaReg (s : State) (va lv : Nat) : Chk Nat := vecField s va (lvHA lv) (decide (lvRel lv = 1))
/-- The register of a V word's vb field. -/
def vbReg (s : State) (vb lv : Nat) : Chk Nat := vecField s vb (lvHB lv) (decide (lvRel lv = 2))

/-! ## Addresses -/

/-- The end of the addresses a word may use: TSLEN − TILLSZ, or the whole store at the monitor level (R19, R288). -/
def tsLimit (s : State) : Nat := if s.mon then 0x80000 else s.regs.tslen - s.regs.tillsz

/-- The physical address of a task address (R19, R288). -/
def tsPhys (s : State) (t : Nat) : Nat := if s.mon then t else s.regs.tsbase + t

/-- Alignment (R20): UTINFO is the address. -/
def needAlign (t n : Nat) : Chk Unit := need (decide (t % n = 0)) cALIGN (BitVec.ofNat 64 t)

/-- Range (R19): UTINFO is the address of the access's first byte. -/
def needRange (s : State) (t n : Nat) : Chk Unit := need (decide (t + n ≤ tsLimit s)) cTSBOUND (BitVec.ofNat 64 t)

/-- A task address modulo 2^64 from a base and a signed offset (R221). -/
def taskAddr (base : Word) (off : Int) : Nat := (base + wrap64 off).toNat

/-! ## Paths -/

/-- The paths of Table 5.1 as mask bits. -/
def pathP : Nat := 1
/-- The copy path. -/
def pathC : Nat := 2
/-- The matrix path. -/
def pathX : Nat := 4
/-- The message path. -/
def pathN : Nat := 8

/-- Whether a mask holds a path. -/
def hasPath (mask path : Nat) : Bool := decide (mask / path % 2 = 1)

/-- A mask without a path. -/
def dropPath (mask path : Nat) : Nat := if hasPath mask path then mask - path else mask

/-- A mask without the paths of another. -/
def dropPaths (mask drop : Nat) : Nat :=
  [pathP, pathC, pathX, pathN].foldl (fun m q => if hasPath drop q then dropPath m q else m) mask

/-- The writes of a list after the paths of a mask have been ordered behind those that a test picks: they see each of them,
and with it every earlier write of its granule (R92, R94, R95). -/
def orderUpTo (hit : Stale → Bool) (drop : Nat) : List Stale → List Stale
  | [] => []
  | e :: r =>
    let m := if hit e || r.any (fun f => decide (f.gran = e.gran) && hit f) then dropPaths e.paths drop else e.paths
    if m = 0 then orderUpTo hit drop r else { e with paths := m } :: orderUpTo hit drop r

/-- The bytes of a granule that an unordered read by a path may return in place of the present ones, with the place of
that choice among the writes (R93). -/
def oldGran (s : State) (r path g : Nat) : Option (List Byte) :=
  (((s.tile r).stale.filter (fun e => decide (e.gran = g) && hasPath e.paths path)).find?
    (fun e => Config.raceOld s.tick e.key)).map (·.old)

/-- A byte that a path of plane p reads at a physical address: escrow, if the plane's speculation holds it (R110), else
the tile store, old or new where a race leaves it open (R93). -/
def tsByte (s : State) (r p path a : Nat) : Byte :=
  let esc := match (s.plane r p).spec with
    | some sp => (sp.escrow.find? (fun l => decide (l.1 = a / 64))).bind (fun l => nget l.2 (a % 64))
    | none => none
  match esc with
  | some b => b
  | none =>
    match oldGran s r path (a / 16) with
    | some old => (old[a % 16]?).getD 0
    | none => memGet s.mem (tsAddr r a)

/-- The n bytes that a path reads from a physical address. -/
def tsBytes (s : State) (r p path a n : Nat) : List Byte := (List.range n).map (fun i => tsByte s r p path (a + i))

/-- The writes of a list after a path has read the granules that a test picks: it has seen every write up to the first that
raced turns down (R111, CoRR). turned lists the granules in which one has been turned down. -/
def seeUpTo (picked raced : Stale → Bool) (path : Nat) : List Stale → List Nat → List Stale
  | [], _ => []
  | e :: r, turned =>
    if !picked e || turned.contains e.gran then e :: seeUpTo picked raced path r turned
    else if !hasPath e.paths path then { e with seen := e.seen ||| path } :: seeUpTo picked raced path r turned
    else if raced e then e :: seeUpTo picked raced path r (e.gran :: turned)
    else
      let m := dropPath e.paths path
      let r' := seeUpTo picked raced path r turned
      if m = 0 then r' else { e with paths := m, seen := e.seen ||| path } :: r'

/-- After a read, the path no longer sees bytes older than those it read (R111, CoRR). -/
def tsSeen (s : State) (r path a n : Nat) : State :=
  if (s.tile r).stale.isEmpty then s
  else
    let picked := fun (e : Stale) => decide (a / 16 ≤ e.gran ∧ e.gran ≤ (a + n - 1) / 16)
    let raced := fun (e : Stale) => Config.raceOld s.tick e.key
    s.modTile r (fun t => { t with stale := seeUpTo picked raced path t.stale [] })

/-- A granule's 16 bytes with the part of a byte list from address a on that falls in granule g. -/
def overGran (old : List Byte) (a : Nat) (bytes : List Byte) (g : Nat) : List Byte :=
  (List.range 16).map (fun i =>
    if a ≤ 16 * g + i ∧ 16 * g + i < a + bytes.length then (bytes[16 * g + i - a]?).getD 0 else (old[i]?).getD 0)

/-- Whether a plane's matrix engine is at an access of many granules, each of which it reads by itself (R97): an MMA or an MLDACC. -/
def Plane.mxReads (pl : Plane) : Bool :=
  match pl.mx.head? with
  | some { op := .mma _, .. } => true
  | some { op := .mldacc _, .. } => true
  | _ => false

/-- The write of a granule that has taken its place after every other: the writing path has seen all of them. A copy's
write is ordered by its watermark, so that every path sees it (R96), but for an access of the matrix engine that is under way (R97);
of another's, the others may still miss it (R93). -/
def pushWrite (l : List Stale) (g path op : Nat) (old : List Byte) (mx : Bool) : List Stale :=
  let w : Stale := { gran := g, old := old, op := op, path := path, paths := 15 - path, seen := path, key := 64 * g + op }
  if path = pathC then l.filter (fun e => decide (e.gran ≠ g)) ++ (if mx then [{ w with paths := pathX }] else [])
  else orderUpTo (fun e => decide (e.gran = g)) path (l.map (fun e => if e.gran = g then { e with seen := e.seen ||| path } else e)) ++ [w]

/-- The writes of a list with one put in place before the first write e of its granule that it loses to (R93): the loser's
bytes are those before e. -/
def underWrite (l : List Stale) (e : Stale) (path op : Nat) (new : List Byte) : List Stale :=
  let pre := l.takeWhile (fun f => decide (f ≠ e))
  let post := (l.dropWhile (fun f => decide (f ≠ e))).drop 1
  let w : Stale := { gran := e.gran, old := e.old, op := op, path := path, paths := dropPath e.paths path, seen := path,
                     key := 64 * e.gran + op }
  (if path = pathC then pre.filter (fun f => decide (f.gran ≠ e.gran)) else pre ++ (if w.paths = 0 then [] else [w]))
    ++ { e with old := new } :: post

/-- Writes the part of a byte list that falls in granule g (R93). When a write of another path stands that the writing path
is not ordered behind, the granule is left with the whole value of one of the two: this write loses, or it stands on the bytes
before that one. -/
def tsWriteGran (s : State) (r path op a : Nat) (bytes : List Byte) (g : Nat) : State :=
  let l := (s.tile r).stale
  let cur := memRead s.mem (tsAddr r (16 * g)) 16
  match l.find? (fun e => decide (e.gran = g) && hasPath e.paths path) with
  | none =>
    let lo := max a (16 * g)
    let hi := min (a + bytes.length) (16 * g + 16)
    let s' := { s with mem := memWrite s.mem (tsAddr r lo) ((bytes.drop (lo - a)).take (hi - lo)) }
    s'.modTile r (fun t => { t with stale := pushWrite t.stale g path op cur (t.plane0.mxReads || t.plane1.mxReads) })
  | some e =>
    if Config.raceOld s.tick e.key then
      s.modTile r (fun t => { t with stale := underWrite t.stale e path op (overGran e.old a bytes g) })
    else
      let s' := { s with mem := memWrite s.mem (tsAddr r (16 * g)) (overGran e.old a bytes g) }
      s'.modTile r (fun t => { t with stale := pushWrite t.stale g path op cur (t.plane0.mxReads || t.plane1.mxReads) })

/-- Writes bytes to the tile store by a path, granule by granule in ascending address order (R97). -/
def tsStore (s : State) (r path op a : Nat) (bytes : List Byte) : State :=
  if bytes.isEmpty then s
  else (List.range ((a + bytes.length - 1) / 16 + 1 - a / 16)).foldl
    (fun s i => tsWriteGran s r path op a bytes (a / 16 + i)) s

/-- The escrow lines with one byte written, a new line last (R44). -/
def escPut (ls : List (Nat × NMap Byte)) (a : Nat) (b : Byte) : List (Nat × NMap Byte) :=
  if ls.any (fun l => decide (l.1 = a / 64)) then
    ls.map (fun l => if l.1 = a / 64 then (l.1, nset l.2 (a % 64) b) else l)
  else ls ++ [(a / 64, [(a % 64, b)])]

/-- The escrow lines with a byte list written. -/
def escWrite (ls : List (Nat × NMap Byte)) (a : Nat) : List Byte → List (Nat × NMap Byte)
  | [] => ls
  | b :: r => escWrite (escPut ls a b) (a + 1) r

/-- Writes by an operation issued under the plane's open speculation go to escrow (Table 2.6). -/
def escStore (s : State) (r p a : Nat) (bytes : List Byte) : State :=
  s.modPlane r p (fun pl =>
    match pl.spec with
    | some sp => { pl with spec := some { sp with escrow := escWrite sp.escrow a bytes } }
    | none => pl)

/-- Whether escrow has room for the lines of a write: 256 lines (Table 1.2). -/
def escRoom (pl : Plane) (a n : Nat) : Bool :=
  match pl.spec with
  | some sp =>
    let fresh := (List.range ((a + n - 1) / 64 + 1 - a / 64)).filter
      (fun i => !(sp.escrow.any (fun l => decide (l.1 = a / 64 + i))))
    decide (sp.escrow.length + fresh.length ≤ 256)
  | none => true

/-- The 64-byte lines of a speculative read are tracked (R41). -/
def track (s : State) (r p a n : Nat) : State :=
  if n = 0 then s
  else s.modPlane r p (fun pl =>
    match pl.spec with
    | some sp =>
      let ls := (List.range ((a + n - 1) / 64 + 1 - a / 64)).map (a / 64 + ·)
      { pl with spec := some { sp with tracked := sp.tracked ++ ls.filter (fun l => !(sp.tracked.contains l)) } }
    | none => pl)

/-! ## Windows, protected buffers and drains -/

/-- What an access meets at the windows of a plane's channels (R96): nothing, a window to wait for, or a faulted one with
the faulted copy's flag. Addresses are physical. skip is the accessing channel. -/
inductive WinSt where
  | clear
  | wait
  | faulted (fn : Nat)
  deriving DecidableEq, Repr

/-- The window of channel k against an access. -/
def winOne (pl : Plane) (a n k : Nat) : WinSt :=
  match (pl.window[k]?).getD none with
  | none => .clear
  | some w =>
    if n ≠ 0 ∧ a ≤ w.hi ∧ max w.lo ((pl.regs.wmark[k]?).getD 0 + w.base) < a + n then
      match (pl.wfault[k]?).getD none with
      | some fn => .faulted fn
      | none => .wait
    else .clear

/-- All four windows of a plane, but channel skip's own. -/
def winPlane (pl : Plane) (a n skip : Nat) : WinSt :=
  (List.range 4).foldl (fun w k => if k = skip then w else
    match w with
    | .clear => winOne pl a n k
    | w => w) .clear

/-- The windows of both planes of a tile. -/
def winTile (t : Tile) (p a n skip : Nat) : WinSt :=
  match winPlane (t.pl p) a n skip with
  | .clear => winPlane (t.pl (1 - p)) a n 4
  | w => w

/-- Whether two byte ranges share a 64-byte line. -/
def sameLine (a n b m : Nat) : Bool :=
  decide (n ≠ 0 ∧ m ≠ 0 ∧ a / 64 ≤ (b + m - 1) / 64 ∧ b / 64 ≤ (a + n - 1) / 64)

/-- Whether an engine's read meets a line of a copy unit that a channel other than skip holds locked (R98). The lock is off
while the tile runs the monitor (R99). -/
def lockMeets (t : Tile) (p a n skip : Nat) : Bool :=
  let meets := fun (l : List (Nat × Nat)) => l.any (fun x => sameLine a n x.1 x.2)
  !t.monitor && ((List.range 4).any (fun k => decide (k ≠ skip) && meets (((t.pl p).lock[k]?).getD []))
    || (List.range 4).any (fun k => meets (((t.pl (1 - p)).lock[k]?).getD [])))

/-- What an engine's read meets: the windows, and then the locked units. -/
def readTile (t : Tile) (p a n skip : Nat) : WinSt :=
  match winTile t p a n skip with
  | .clear => if lockMeets t p a n skip then .wait else .clear
  | w => w

/-- Whether a write meets a line of a buffer that the message engine has still to read (R75, R237, R238, R241, R242). A
send protects its buffer until its flag is set. -/
def guarded (s : State) (r a n : Nat) : Bool :=
  let t := s.tile r
  let f := fun (pl : Plane) => pl.sends.any (fun sd => decide (sd.kind ≠ 6 ∧ sd.kind ≠ 4) && sameLine a n sd.addr sd.bytes)
  f t.plane0 || f t.plane1 || t.reqs.any (fun q => ((!q.sent && decide (q.twin = 0)) || decide (q.req.op = .query)) && sameLine a n q.addr q.len)

/-- Whether a commit drain stalls every tile-store access of the tile but deliveries (R44). -/
def draining (s : State) (r : Nat) : Bool :=
  let f := fun (pl : Plane) => match pl.spec with
    | some sp => sp.committing
    | none => false
  f (s.tile r).plane0 || f (s.tile r).plane1

/-- Whether the context plane's speculation is open. -/
def specOpen (s : State) : Bool := s.ctx.spec.isSome

/-- An M-slot access must wait for a drain or an open window, and traps ENGFAULT on a faulted one (R44, R96). -/
def mGate (s : State) (a n : Nat) : Chk Unit :=
  if draining s s.cur then stallW
  else
    match winTile s.curTile s.ctxP a n 4 with
    | .clear => .ok ()
    | .wait => stallW
    | .faulted fn => trapD cENGFAULT fn (BitVec.ofNat 64 ((s.regs.fl fn).status.toNat / 2 ^ 64))

/-- An M-slot read of n bytes at a task address whose checks have passed (R91). -/
def mRead (s : State) (t n : Nat) : Chk (List Byte × State) := do
  let a := tsPhys s t
  mGate s a n
  .ok (tsBytes s s.cur s.ctxP pathP a n, tsSeen (track s s.cur s.ctxP a n) s.cur pathP a n)

/-- An M-slot write of bytes at a task address whose checks have passed: under a speculation it goes to escrow. -/
def mWrite (s : State) (t : Nat) (bytes : List Byte) : Chk State := do
  let a := tsPhys s t
  mGate s a bytes.length
  orStall (!guarded s s.cur a bytes.length)
  if specOpen s then
    if escRoom s.ctx a bytes.length then .ok (escStore s s.cur s.ctxP a bytes) else overflowW
  else
    let (id, s) := freshId s
    .ok (tsStore s s.cur pathP id a bytes)

/-- A word that stalls while a speculation is open (Table 2.6). -/
def noSpec (s : State) : Chk Unit := orStall (!specOpen s)

end Sys2Proof.Machine
end

