-- ==== Sys2Proof/Machine/Translate.lean ====
section
/-! DEFINITION. Address translation (spec/18_sys_translation.md): range entries, page entries, the die TLB and the page
walk (R315 to R318), permissions and owner tags (R319, R320), and the accesses that the device makes in one step: spills, records and status areas. -/

namespace Sys2Proof.Machine

/-! ## Entries -/

/-- Whether an entry of a partition covers an address. -/
def Tr.covers (t : Tr) (part va : Nat) : Bool := decide (t.part = part ∧ t.lo ≤ va ∧ va ≤ t.hi)

/-- Whether an entry of a partition covers any address from lo to hi. -/
def Tr.meets (t : Tr) (part lo hi : Nat) : Bool := decide (t.part = part ∧ t.lo ≤ hi ∧ lo ≤ t.hi)

/-- The DPA of an address that an entry covers. -/
def Tr.dpaOf (t : Tr) (va : Nat) : Nat := t.dpa + (va - t.lo)

/-- A range entry RNGp.n as a translation (Table 18.2), when it is valid. -/
def rangeTr (part n v : Nat) : Option Tr :=
  if v.testBit 0 then
    some { part := part, range := true, n := n, lo := bitsHL v 127 100 * 2 ^ 20,
           hi := bitsHL v 99 72 * 2 ^ 20 + (2 ^ 20 - 1), pkg := bitsHL v 49 38, dpa := bitsHL v 71 50 * 2 ^ 20,
           sysatom := v.testBit 4, host := v.testBit 3, w := v.testBit 2, r := v.testBit 1 }
  else none

/-- The die range entry that covers an address: the lowest n (R316). -/
def Package.rangeFor (p : Package) (part va : Nat) : Option Tr :=
  ((List.range 16).filterMap (fun n => rangeTr part n (ngetD p.rng (part * 16 + n) 0))).find? (fun t => t.covers part va)

/-- A leaf of a page table as a translation (Table 18.3). -/
def leafTr (part va size e : Nat) : Tr :=
  { part := part, range := false, n := 0, lo := va / size * size, hi := va / size * size + (size - 1),
    pkg := bitsHL e 103 92, dpa := bitsHL e 91 62 * 4096,
    own := if e.testBit 5 then some (bitsHL e 127 104) else none,
    sysatom := e.testBit 4, host := e.testBit 3, w := e.testBit 2, r := e.testBit 1 }

/-- The bytes of a page of each SIZE. -/
def pageSize (k : Nat) : Nat := if k = 0 then 4096 else if k = 1 then 65536 else if k = 2 then 2 ^ 21 else 2 ^ 30

/-- Why a walk fails: its fault code, and the granule of an entry that could not be read (R318, R326). -/
structure WalkErr where
  code : Nat
  bad : Option Nat := none
  deriving DecidableEq, Repr

/-- Reads one page-table entry by DPA, or WALKERR when the read itself faults (R318, R321). -/
def readPte (s : State) (pkg dpa : Nat) : Except WalkErr Nat :=
  if dpa / 2 ^ 39 ≠ 0 then .error { code := fcWALKERR }
  else if s.memBad pkg dpa then .error { code := fcWALKERR, bad := some dpa }
  else .ok (leNat (s.dpaBytes pkg dpa 16))

/-- Whether an entry is a valid leaf of 64 KiB. -/
def bigLeaf (e : Nat) : Bool := e.testBit 0 && !e.testBit 8 && decide (bitsHL e 7 6 = 1)

/-- What a level-0 leaf of 64 KiB comes to when the first entry of its group, which stands for it, is none (R317, R318). -/
def groupFault (head : Except WalkErr Nat) : WalkErr :=
  match head with
  | .ok h => { code := if h.testBit 0 then fcWALKERR else fcNOMAP }
  | .error e => e

/-- The walk from a table of a level on (R317, R318). At level 0 the first entry of the aligned group of 16 stands for the
whole group when it is a 64 KiB leaf; otherwise the entry of the address counts, and one that claims 64 KiB there is
resolved by the first entry, which is none (log entry 12). -/
def walkFrom (s : State) (pkg part va : Nat) : Nat → Nat → Except WalkErr Tr
  | 0, base => do
    let h := readPte s pkg (base + 16 * (bitsHL va 20 16 * 16))
    let big := h.toOption.any bigLeaf
    let e ← if big then h else readPte s pkg (base + 16 * bitsHL va 20 12)
    if bigLeaf e && !big then .error (groupFault h)
    else if !e.testBit 0 then .error { code := fcNOMAP }
    else if bitsHL e 61 9 ≠ 0 ∨ e.testBit 8 = true then .error { code := fcWALKERR }
    else if big then (if bitsHL e 91 62 % 16 ≠ 0 then .error { code := fcWALKERR } else .ok (leafTr part va 65536 e))
    else if bitsHL e 7 6 ≠ 0 then .error { code := fcWALKERR }
    else .ok (leafTr part va 4096 e)
  | k + 1, base => do
    let e ← readPte s pkg (base + 16 * (va / 2 ^ (21 + 9 * k) % 512))
    if !e.testBit 0 then .error { code := fcNOMAP }
    else if bitsHL e 61 9 ≠ 0 then .error { code := fcWALKERR }
    else if e.testBit 8 then walkFrom s pkg part va k (bitsHL e 91 62 * 4096)
    else if k = 2 ∨ bitsHL e 7 6 ≠ k + 2 ∨ bitsHL e 91 62 * 4096 % pageSize (k + 2) ≠ 0 then .error { code := fcWALKERR }
    else .ok (leafTr part va (pageSize (k + 2)) e)

/-- A page walk of a partition of a package. -/
def walk (s : State) (pkg part va : Nat) : Except WalkErr Tr :=
  let root := (s.pkg pkg).reg (0x30800 + 8 * part)
  if !root.testBit 0 then .error { code := fcWALKERR } else walkFrom s pkg part va 3 (bitsHL root 41 13 * 8192)

/-- A walk that failed: an entry that could not be read is counted and recorded (R326). -/
def noteWalk (s : State) (pkg : Nat) (e : WalkErr) : State :=
  match e.bad with
  | some dpa => noteBad s pkg dpa
  | none => s

/-! ## Lookup -/

/-- A list of entries with one moved to its end, the place of the most recently used. -/
def touchTr (l : List Tr) (t : Tr) : List Tr := l.filter (fun u => decide (u ≠ t)) ++ [t]

/-- A tile's entries with one more: at most 4 ranges and 32 pages, the least recently used replaced (R315). -/
def fillTile (l : List Tr) (t : Tr) : List Tr :=
  let l := touchTr l t
  let room := if t.range then 4 else 32
  if (l.filter (fun u => decide (u.range = t.range))).length ≤ room then l
  else
    match l.find? (fun u => decide (u.range = t.range)) with
    | some u => l.erase u
    | none => l

/-- A die TLB with one more entry of at most 4,096. -/
def fillTlb (l : List Tr) (t : Tr) : List Tr :=
  let l := touchTr l t
  if l.length ≤ 4096 then l else l.drop 1

/-- The die of an endpoint: a tile's own; for other endpoints the die that borders the stack, or die 0. -/
def dieOf (ep : Nat) : Nat := if ep < 0x400 then ep / 256 else if ep < 0x500 then (ep - 0x400) / 64 else 0

/-- Steps 1 to 4 of R315 for the tile r: the entry found, with the state in which its use is noted and the tile holds a
copy; nothing on a miss. The tile's range entries are copies of the die's, of which the one with the lowest n applies, before
any page entry (R316). -/
def lookupTile (s : State) (r part va : Nat) : Option (Tr × State) :=
  let p := s.pkg (pkgOf r)
  match p.rangeFor part va with
  | some t => some (t, s.modTile r (fun k => { k with tr := fillTile k.tr t }))
  | none =>
    match (s.tile r).tr.find? (fun u => !u.range && u.covers part va) with
    | some t => some (t, s.modTile r (fun k => { k with tr := touchTr k.tr t }))
    | none =>
      let die := dieOf (epOf r)
      let l := ngetD p.tlb die []
      match l.find? (fun u => u.covers part va) with
      | some t =>
        some (t, (s.modPkg (pkgOf r) (fun p => { p with tlb := nset p.tlb die (touchTr l t) })).modTile r
          (fun k => { k with tr := fillTile k.tr t }))
      | none => none

/-- Step 5 of R315: a walk for the tile r, whose leaf goes to the die TLB and the tile (R318). -/
def walkTile (s : State) (r part va : Nat) : Except (Nat × State) (Tr × State) :=
  match walk s (pkgOf r) part va with
  | .error e => .error (e.code, noteWalk s (pkgOf r) e)
  | .ok t =>
    let die := dieOf (epOf r)
    .ok (t, (s.modPkg (pkgOf r) (fun p => { p with tlb := nset p.tlb die (fillTlb (ngetD p.tlb die []) t) })).modTile r
      (fun k => { k with tr := fillTile k.tr t }))

/-- The entry that a request of the tile r finds now, or its walk would (R315); nothing where that faults. -/
def peekTr (s : State) (r part va : Nat) : Option Tr :=
  match lookupTile s r part va with
  | some x => some x.1
  | none =>
    match walk s (pkgOf r) part va with
    | .ok t => some t
    | .error _ => none

/-- The translation of a die's unit, without a tile: range entries, TLB, walk (R302, R315). -/
def lookupDie (s : State) (pkg die part va : Nat) : Except (Nat × State) (Tr × State) :=
  match (s.pkg pkg).rangeFor part va with
  | some t => .ok (t, s)
  | none =>
    let l := ngetD (s.pkg pkg).tlb die []
    match l.find? (fun u => u.covers part va) with
    | some t => .ok (t, s.modPkg pkg (fun p => { p with tlb := nset p.tlb die (touchTr l t) }))
    | none =>
      match walk s pkg part va with
      | .error e => .error (e.code, noteWalk s pkg e)
      | .ok t => .ok (t, s.modPkg pkg (fun p => { p with tlb := nset p.tlb die (fillTlb l t) }))

/-! ## Checks on the entry found -/

/-- The checks of R319 to R322 on an entry, for a request of a rank under a partition of a package: permissions (not for
the monitor, R288), owner, the DPA, and the partition of the target. The answer is the DPA. -/
def checkTr (s : State) (pkg part rank : Nat) (mon needR needW : Bool) (t : Tr) (va : Nat) : Except Nat Nat :=
  let dpa := t.dpaOf va
  if !mon && ((needR && !t.r) || (needW && !t.w)) then .error fcPERM
  else if t.own.isSome && decide (t.own ≠ some rank) then .error fcOWNER
  else if t.host then .ok (dpa % 2 ^ 42)
  else if dpa / 2 ^ 39 ≠ 0 then .error fcWALKERR
  else if !s.mayReach pkg part (nominalVault t.pkg dpa) then .error fcXPART
  else .ok dpa

/-! ## Accesses of the device in one step -/

/-- Pieces of at most 4 KiB of the bytes from va, none across a 4 KiB boundary. -/
def pieces (va n : Nat) : List (Nat × Nat) :=
  if n = 0 then []
  else (List.range ((va + n - 1) / 4096 + 1 - va / 4096)).map (fun i =>
    let lo := max va ((va / 4096 + i) * 4096)
    (lo, min (va + n) ((va / 4096 + i) * 4096 + 4096) - lo))

/-- Where a device access finds its bytes: the package, whether in host memory, and the address in memory of byte i. -/
structure Place where
  pkg : Nat
  host : Bool
  dpa : Nat
  deriving DecidableEq, Repr

/-- The address in memory of a byte of a place. -/
def Place.addr (s : State) (p : Place) (i : Nat) : Nat :=
  if p.host then hostAddr p.pkg (Config.windowBase p.pkg (p.dpa / 2 ^ 39) + p.dpa % 2 ^ 39 + i)
  else s.dpaAddr p.pkg (p.dpa + i)

/-- Translates one piece for the tile r's message engine, walking at once; an error comes with the state it leaves. -/
def placeTile (s : State) (r part rank : Nat) (mon rd wr : Bool) (va : Nat) : Except (Nat × State) (Place × State) :=
  if 2 ^ 48 ≤ va then .error (fcBADVA, s)
  else
    match (match lookupTile s r part va with
      | some x => Except.ok x
      | none => walkTile s r part va) with
    | .error f => .error f
    | .ok (t, s) =>
      match checkTr s (pkgOf r) part rank mon rd wr t va with
      | .error f => .error (f, s)
      | .ok dpa => .ok ({ pkg := t.pkg, host := t.host, dpa := dpa }, s)

/-- Translates one piece through a die's unit, for the scheduler (R302) or a search (R315). -/
def placeDie (s : State) (pkg die part rank : Nat) (rd wr : Bool) (va : Nat) : Except (Nat × State) (Place × State) :=
  if 2 ^ 48 ≤ va then .error (fcBADVA, s)
  else
    match lookupDie s pkg die part va with
    | .error f => .error f
    | .ok (t, s) =>
      match checkTr s pkg part rank false rd wr t va with
      | .error f => .error (f, s)
      | .ok dpa => .ok ({ pkg := t.pkg, host := t.host, dpa := dpa }, s)

/-- The n bytes of a place. -/
def Place.bytes (s : State) (p : Place) (n : Nat) : List Byte := (List.range n).map (fun i => memGet s.mem (p.addr s i))

/-- The state with bytes stored from a place on. -/
def Place.put (s : State) (p : Place) (b : List Byte) : State :=
  { s with mem := (List.range b.length).foldl (fun m i => memPut m (p.addr s i) ((b[i]?).getD 0)) s.mem }

/-- Reads n bytes of a place: through the host window, where PCIe may fail (R321), or from the vault, where a read that covers the
RESULT of a dirty object completes its sum first (R117) and an unreadable granule ends it with MEMERR (R326, R340). -/
def Place.read (s : State) (p : Place) (n : Nat) : Except (Nat × State) (List Byte × State) :=
  if p.host then (if Config.deviceFails s.tick p.dpa then .error (fcHOSTERR, s) else .ok (p.bytes s n, s))
  else
    match vaultRead s (s.holdingVault p.pkg p.dpa) p.pkg p.dpa n with
    | (s, .error g) => .error (fcMEMERR, noteBad s p.pkg g)
    | (s, .ok b) => .ok (b, s)

/-- Writes bytes at a place: through the host window, where a write that fails may have been performed all the same (R321), or to
the vault, granule by granule, where a granule with an error can be written only whole (R326) and a fenced vault not at all (R340). -/
def Place.write (s : State) (p : Place) (b : List Byte) : State × Option Nat :=
  if p.host then
    (if Config.deviceFails s.tick p.dpa then (if Config.deviceWrote s.tick p.dpa then p.put s b else s, some fcHOSTERR)
     else (p.put s b, none))
  else if (s.vault (s.holdingVault p.pkg p.dpa)).fenced then (s, some fcMEMERR)
  else
    match storeBytes p.pkg (granDpas p.dpa b.length) p.dpa b s with
    | (s, _, some g) => (memFault s p.pkg g, some fcMEMERR)
    | (s, _, none) => (s, none)

/-- Reads bytes through a translation function, piece by piece. -/
def readBy (tr : State → Nat → Except (Nat × State) (Place × State)) :
    List (Nat × Nat) → State → Except (Nat × State) (List Byte × State)
  | [], s => .ok ([], s)
  | (va, n) :: r, s => do
    let (p, s) ← tr s va
    let (b, s) ← p.read s n
    let (bs, s) ← readBy tr r s
    .ok (b ++ bs, s)

/-- Writes bytes through a translation function, piece by piece; pieces before a fault are written. -/
def writeBy (tr : State → Nat → Except (Nat × State) (Place × State)) :
    List (Nat × Nat) → List Byte → State → State × Option Nat
  | [], _, s => (s, none)
  | (va, n) :: r, bs, s =>
    match tr s va with
    | .error (f, s) => (s, some f)
    | .ok (p, s) =>
      match p.write s (bs.take n) with
      | (s, some f) => (s, some f)
      | (s, none) => writeBy tr r (bs.drop n) s

/-- An access from a task's tile, under the task's rank and partition (R187, R288, R297); R and W are checked at the user
level alone (R319). -/
def spillPlace (r : Nat) (pl : Plane) (wr : Bool) (s : State) (va : Nat) : Except (Nat × State) (Place × State) :=
  placeTile s r pl.task.part pl.regs.myrank (s.tile r).monitor (!wr) wr va

/-- Reads n bytes of a task's spill area or other virtual memory for its tile r. -/
def spillRead (s : State) (r : Nat) (pl : Plane) (va n : Nat) : Except (Nat × State) (List Byte × State) :=
  readBy (spillPlace r pl false) (pieces va n) s

/-- Writes bytes of a task's virtual memory for its tile r: the state, and the fault that ended it. -/
def spillWrite (s : State) (r : Nat) (pl : Plane) (va : Nat) (bs : List Byte) : State × Option Nat :=
  writeBy (spillPlace r pl true) (pieces va bs.length) bs s

/-- The die of a partition's lowest-numbered granule (R304). -/
def Package.homeDie (p : Package) (part : Nat) : Nat :=
  (((List.range 8).find? (fun g => (p.partMask part).testBit g)).getD 0) / 2

/-- The rank of a package's scheduler, under which its accesses meet the owner check (R8, R320). -/
def schedRank (pkg : Nat) : Nat := pkg * 4096 + 0x511

/-- Reads n bytes for the scheduler, under a partition (R302). -/
def schedRead (s : State) (pkg part va n : Nat) : Except (Nat × State) (List Byte × State) :=
  readBy (fun s va => placeDie s pkg ((s.pkg pkg).homeDie part) part (schedRank pkg) true false va) (pieces va n) s

/-- Writes bytes for the scheduler, under a partition; a fault leaves the rest unwritten (R305). -/
def schedWrite (s : State) (pkg part va : Nat) (bs : List Byte) : State × Option Nat :=
  writeBy (fun s va => placeDie s pkg ((s.pkg pkg).homeDie part) part (schedRank pkg) false true va) (pieces va bs.length) bs s

/-- Whether every byte of an area translates for the scheduler. -/
def schedCovers (s : State) (pkg part va n : Nat) (wr : Bool) : Bool :=
  (pieces va n).all (fun p =>
    match placeDie s pkg ((s.pkg pkg).homeDie part) part (schedRank pkg) (!wr) wr p.1 with
    | .ok _ => true
    | .error _ => false)

end Sys2Proof.Machine
end

