-- ==== Sys2Proof/Machine/Csr.lean ====
section
/-! DEFINITION. The control and status registers (Tables 9.5 to 9.9, 9.12, 16.1, 17.6): which numbers are assigned, what a
read gives and what a write changes, field by field (R6, R7, R193). -/

namespace Sys2Proof.Machine

/-- The user CSRs of Table 9.5. -/
def csrUser (n : Nat) : Bool := decide (n < 0x0E ∨ (0x10 ≤ n ∧ n < 0x23))

/-- The privileged CSRs of Tables 16.1 and 17.6. -/
def csrPriv (n : Nat) : Bool := decide ((0x100 ≤ n ∧ n < 0x10C) ∨ n = 0x110 ∨ n = 0x111)

/-- The decode cause of a CSR number (R193): ILLEGAL when it is unassigned at any level, PRIV when it is privileged at the
user level. -/
def csrCause (mon : Bool) (n : Nat) : Option Nat :=
  if csrUser n then none else if csrPriv n then (if mon then none else some cPRIV) else some cILLEGAL

/-- The launch of a number. -/
def State.launchOf (s : State) (num : Nat) : Option Launch := s.launches.find? (fun l => decide (l.num = num))

/-- The outcome of a barrier group of a task's launch (Table 2.5). -/
def State.groupOut (s : State) (launch n : Nat) : Nat :=
  match s.launchOf launch with
  | some l => ((l.trees[n]?).getD {}).out
  | none => 0

/-- BSTAT (Table 2.5). -/
def bstat (s : State) : Word :=
  let l := s.ctx.task.launch
  let ph := (List.range 4).foldl (fun a n => a + (if (s.regs.ph[n]?).getD false then 2 ^ (16 + n) else 0)) 0
  BitVec.ofNat 64 (ph + s.groupOut l 3 * 2 ^ 12 + s.groupOut l 2 * 2 ^ 8 + s.groupOut l 1 * 2 ^ 4 + s.groupOut l 0)

/-- PLANESTp (Table 16.1). -/
def planest (pl : Plane) : Word :=
  BitVec.ofNat 64 (pl.task.launch % 2 ^ 16 * 2 ^ 48 + pl.regs.gridpos % 2 ^ 32 * 2 ^ 16 + (if pl.token then 8 else 0) + pl.state)

/-- ARBST (Table 17.6), of the plane whose context is named. -/
def arbst (s : State) : Word :=
  let p := s.ctx
  BitVec.ofNat 64 (p.task.trank * 2 ^ 60 + p.pass * 2 ^ 56 + p.debt % 2 ^ 22 * 2 ^ 34 + p.decl % 2 ^ 19 * 2 ^ 15 + s.curTile.wrem)

/-- The number whose binary digits are a list of bits, the first lowest. -/
def boolsNat : List Bool → Nat
  | [] => 0
  | b :: r => (if b then 1 else 0) + 2 * boolsNat r

/-- TXVAL as it reads (R290). -/
def txRead (s : State) : Word :=
  let b := s.regs.bank
  let i := s.curTile.txidx
  if i < 32 then (if b.dead.getLsbD i then 0 else (b.x[i]?).getD 0)
  else if i = 32 then BitVec.ofNat 64 (1 + 4 * boolsNat ((b.p.toList).drop 2))
  else if i = 33 then BitVec.ofNat 64 (leNat b.ix.toList)
  else 0

/-- A write of TXVAL for a tile (R290). -/
def txWrite (s : State) (r : Nat) (v : Word) : State :=
  let t := s.tile r
  s.modPlane r t.ctxPlane (fun pl =>
    let b := pl.regs.bank
    let b :=
      if t.txidx = 0 then b
      else if t.txidx < 32 then b.setX t.txidx v
      else if t.txidx = 32 then { b with p := b.p.mapIdx (fun k x => if k < 2 then x else v.getLsbD k) }
      else if t.txidx = 33 then { b with ix := b.ix.mapIdx (fun k _ => v.extractLsb' (8 * k) 8) }
      else b
    { pl with regs := { pl.regs with bank := b } })

/-- What SRSEED takes from a written value (R63): zero loads 1. -/
def seedOf (v : Word) : Word := if v = 0 then 1 else v

/-- The user CSRs as they read. -/
def csrReadUser (s : State) (n : Nat) : Word :=
  let r := s.regs
  if n = 0x00 then BitVec.ofNat 64 r.frm
  else if n = 0x01 then r.fflags.zeroExtend 64
  else if n = 0x02 then r.srseed
  else if n = 0x03 then BitVec.ofNat 64 (r.retrylim * 256 + r.boff)
  else if n = 0x04 then r.specst
  else if n = 0x05 then bstat s
  else if n = 0x06 then BitVec.ofNat 64 ((if r.deadchk && !s.mon then 256 else 0) + vallocOf s)
  else if n = 0x07 then BitVec.ofNat 64 r.hbiv
  else if n = 0x08 then BitVec.ofNat 64 r.utvec
  else if n = 0x09 then BitVec.ofNat 64 r.utpc
  else if n = 0x0A then r.utcause
  else if n = 0x0B then r.utinfo
  else if n = 0x0C then BitVec.ofNat 64 (r.bank.dead.toNat / 2 * 2)
  else if n = 0x0D then BitVec.ofNat 64 (r.vdead.toNat % 2 ^ vallocOf s)
  else if n = 0x10 then BitVec.ofNat 64 r.myrank
  else if n = 0x11 then BitVec.ofNat 64 r.gridpos
  else if n = 0x12 then r.geom
  else if n = 0x13 then BitVec.ofNat 64 r.tsbase
  else if n = 0x14 then BitVec.ofNat 64 r.tslen
  else if n = 0x15 then BitVec.ofNat 64 r.tillsz
  else if n = 0x16 then BitVec.ofNat 64 r.plen
  else if n = 0x17 then BitVec.ofNat 64 r.rsdepth
  else if n = 0x18 then BitVec.ofNat 64 r.cycle
  else if n = 0x19 then BitVec.ofNat 64 r.hbcnt
  else if n = 0x1A then BitVec.ofNat 64 s.ctxP
  else if n < 0x1B then 0
  else if n < 0x1F then BitVec.ofNat 64 ((r.route[n - 0x1B]?).getD 0)
  else BitVec.ofNat 64 ((r.wmark[n - 0x1F]?).getD 0)

/-- The privileged CSRs as they read. SCANCEL reads zero (log entry 13). -/
def csrReadPriv (s : State) (n : Nat) : Word :=
  let t := s.curTile
  if n = 0x100 then t.mtcause
  else if n = 0x101 then BitVec.ofNat 64 (t.mtpcPlane * 2 ^ 16 + t.mtpc % 2 ^ 16)
  else if n = 0x102 then t.mtinfo
  else if n = 0x103 then BitVec.ofNat 64 (t.mendCode * 2 ^ 32 + t.mendAct)
  else if n = 0x104 then t.mscratch
  else if n = 0x105 then BitVec.ofNat 64 (bitsHL s.ctx.task.spillva 47 20 * 2 ^ 20)
  else if n = 0x106 then BitVec.ofNat 64 (bitsHL s.ctx.task.lstatva 47 5 * 2 ^ 5)
  else if n = 0x107 then BitVec.ofNat 64 t.txidx
  else if n = 0x108 then txRead s
  else if n = 0x109 then planest t.plane0
  else if n = 0x10A then planest t.plane1
  else if n = 0x10B then BitVec.ofNat 64 (t.sysFcode * 256 + t.sysStatus)
  else if n = 0x110 then arbst s
  else 0

/-- A CSR as it reads. -/
def csrRead (s : State) (n : Nat) : Word := if n < 0x100 then csrReadUser s n else csrReadPriv s n

/-- A write to a CSR of the context: RO fields and RO registers ignore it (R6, R193). -/
def csrWriteRegs (r : Regs) (n : Nat) (v : Word) : Regs :=
  if n = 0x00 then { r with frm := v.toNat % 4 }
  else if n = 0x01 then { r with fflags := v.extractLsb' 0 6 }
  else if n = 0x02 then { r with srseed := seedOf v }
  else if n = 0x03 then { r with retrylim := bitsHL v.toNat 11 8, boff := v.toNat % 16 }
  else if n = 0x04 then { r with specst := v }
  else if n = 0x06 then { r with deadchk := v.getLsbD 8 }
  else if n = 0x08 then { r with utvec := bitsHL v.toNat 15 2 * 4 }
  else if n = 0x09 then { r with utpc := bitsHL v.toNat 15 2 * 4 }
  else if n = 0x0A then { r with utcause := (r.utcause &&& ~~~(1#64 <<< 16)) ||| (v &&& (1#64 <<< 16)) }
  else if 0x1B ≤ n ∧ n < 0x1F then { r with route := r.route.setIfInBounds (n - 0x1B) (v.toNat % 2 ^ 32) }
  else r

/-- A write to a CSR. A write of SCANCEL is the step SCANCEL_WRITE, which is then due for the task that MTPC.PLANE names at
the write (R313). -/
def csrWrite (s : State) (n : Nat) (v : Word) : State :=
  if n < 0x100 then s.modRegs (fun r => csrWriteRegs r n v)
  else if n = 0x101 then
    s.modTile s.cur (fun t => { t with mtpcPlane := bitsHL v.toNat 16 16, mtpc := bitsHL v.toNat 15 2 * 4 })
  else if n = 0x103 then
    s.modTile s.cur (fun t =>
      { t with mendCode := bitsHL v.toNat 63 32, mendAct := if v.toNat % 16 < 3 then v.toNat % 16 else 1 })
  else if n = 0x104 then s.modTile s.cur (fun t => { t with mscratch := v })
  else if n = 0x107 then s.modTile s.cur (fun t => { t with txidx := v.toNat % 64 })
  else if n = 0x108 then txWrite s s.cur v
  else if n = 0x111 then emit s (.scancelWrite s.cur (s.ctx.task.launch * 2 ^ 64 + v.toNat))
  else s

end Sys2Proof.Machine
end

