-- ==== Sys2Proof/Machine/Control.lean ====
section
/-! DEFINITION. The S slot's control transfers, task control, barriers, flags, CSR access and program traps
(spec/09_isa_scalar.md R185 to R196; spec/02_execution.md R30, R34 to R45), and the header words (R153 to R155). -/

namespace Sys2Proof.Machine

/-! ## Control transfers -/

/-- The end of the addresses that fetch may use: PLEN, or 16 KiB at the monitor level (R288). -/
def fetchLimit (s : State) : Nat := if s.mon then 16384 else s.regs.plen

/-- A transfer's target as an integer: inside the plane, or FETCHEND (R158, R185). -/
def needTarget (s : State) (t : Int) : Chk Nat :=
  if 0 ≤ t ∧ t < (fetchLimit s : Int) then .ok t.toNat else trapW cFETCHEND (wrap64 t)

/-- The transfer taken when the bundle completes. -/
def jumpTo (s : State) (t : Nat) : State := { s with bundle := { s.bundle with jump := some t } }

/-- The target of an SB or LOOP offset (R158). -/
def relTarget (s : State) (off : Int) : Int := (s.bundle.start : Int) + 4 * off

/-- BR (R185). -/
def execBr (f : SB) (s : State) : Host.Outcome State Fault Refusal :=
  runWord 0 f.g s (fun s => do
    let t ← needTarget s (relTarget s (f.imm.sval 21 9))
    .ok (jumpTo s t))

/-- BRI (R185): a byte offset, a multiple of 4. -/
def execBri (f : RA) (s : State) : Host.Outcome State Fault Refusal :=
  runWord 0 f.g s (fun s => do
    let a ← readX s f.ra
    let _ ← need (decide (a.toNat % 4 = 0)) cFETCHEND a
    let t ← needTarget s (a.toNat : Int)
    .ok (jumpTo (killX s f.la f.ra) t))

/-- Changes the depth that RSDEPTH reads; the monitor's bank has none (R288). -/
def setDepth (s : State) (d : Nat) : State := if s.mon then s else s.modRegs (fun r => { r with rsdepth := d })

/-- The depth of the return stack in force (R187, R288). -/
def rsDepth (s : State) : Nat := if s.mon then s.bank.ret.length else s.regs.rsdepth

/-- The state after an access of a task's spill area, or CALLSPILL with DETAIL and the fault code (R187, Table 16.2). -/
def spillOr (detail : Nat) (x : State × Option Nat) : Chk State :=
  match x.2 with
  | none => .ok x.1
  | some fc => trapD cCALLSPILL detail (BitVec.ofNat 64 fc)

/-- CALL (R187). A monitor CALL at depth 16 is a monitor fault (R289), which any trap at that level is. -/
def execCall (f : SB) (s : State) : Host.Outcome State Fault Refusal :=
  runWord 0 f.g s (fun s => do
    let t ← needTarget s (relTarget s (f.imm.sval 21 9))
    let d := rsDepth s
    let _ ← (if d = (if s.mon then 16 else 4096) then trapD cCALLSPILL 0 0 else .ok ())
    let s ←
      if s.bank.ret.length < 16 then .ok s
      else do
        let _ ← noSpec s
        let oldest := (s.bank.ret.getLast?).getD 0
        let s ← spillOr 2 (spillWrite s s.cur s.ctx (s.ctx.task.spillva + 2 * (d - 16)) (leBytes 2 oldest))
        .ok (s.modBank (fun b => { b with ret := b.ret.dropLast }))
    let ra := s.bundle.next / 4
    .ok (jumpTo (setDepth (s.modBank (fun b => { b with ret := ra :: b.ret })) (d + 1)) t))

/-- RET (R187). -/
def execRet (f : G0) (s : State) : Host.Outcome State Fault Refusal :=
  runWord 0 f.g s (fun s => do
    let d := rsDepth s
    let _ ← (if d = 0 then trapD cCALLSPILL 1 0 else .ok ())
    let s ←
      if s.bank.ret ≠ [] then .ok s
      else do
        let _ ← noSpec s
        match spillRead s s.cur s.ctx (s.ctx.task.spillva + 2 * (d - 1)) 2 with
        | .error (fc, _) => trapD cCALLSPILL 3 (BitVec.ofNat 64 fc)
        | .ok (b, s) => .ok (s.modBank (fun k => { k with ret := [leNat b % 2 ^ 15] }))
    let t ← needTarget s (4 * (s.bank.ret.headD 0) : Nat)
    .ok (jumpTo (setDepth (s.modBank (fun b => { b with ret := b.ret.tail })) (d - 1)) t))

/-- LOOP (R186). -/
def execLoop (f : ID) (s : State) : Host.Outcome State Fault Refusal :=
  runWord 0 f.g s (fun s => do
    let t ← needTarget s (relTarget s (f.imm.sval 10 9))
    let x ← readX s f.rd
    let c := x - 1
    let s := setX s f.rd c
    .ok (if c = 0 then s else jumpTo s t))

/-! ## Task control -/

/-- YIELD (R188): stalls while a speculation is open; the declaration takes effect at the end of the bundle. -/
def execYield (f : IU) (s : State) : Host.Outcome State Fault Refusal :=
  runWord 0 f.g s (fun s => do
    let _ ← noSpec s
    .ok { s with bundle := { s.bundle with yielding := some f.imm.raw } })

/-- EXIT (R189): the task's ending is then due, and the tile waits for it. The monitor has no task to end, so its EXIT never
completes (log entry 14). -/
def execExit (f : G0) (s : State) : Host.Outcome State Fault Refusal :=
  runWord 0 f.g s (fun s => do
    let _ ← orStall (!s.mon)
    let _ ← noSpec s
    let st := s.bundle.start
    .ok (emitOnce (s.modCtx (fun p => { p with exiting := some st })) (.taskEnd s.cur s.ctxP)))

/-- HBEAT (R190). -/
def execHbeat (f : G0) (s : State) : Host.Outcome State Fault Refusal :=
  runWord 0 f.g s (fun s => .ok (s.modRegs (fun r => { r with hbcnt := 0 })))

/-! ## Barriers -/

/-- ILLEGAL for a word found bad when it executes: MTINFO is the word (Table 16.2). -/
def illegal {α : Type} (i : Instr) : Chk α := trapW cILLEGAL (BitVec.ofNat 64 (i.word % 2 ^ 32))

/-- A group must be in the launch's BGROUPS (R191). Its ILLEGAL counts as an execution cause in the order of R169 (DEDUCED, log entry
29). -/
def needGroup (s : State) (n : Nat) (i : Instr) : Chk Unit :=
  if s.ctx.task.bgroups.testBit n then .ok () else illegal i

/-- Whether a request holds back an ARRIVE's signal: a put, an atomic, a reduction or an FSHIP (R37, R104). -/
def isWrite : VOp → Bool
  | .get => false
  | .query => false
  | _ => true

/-- Whether an operation still holds back an ARRIVE that follows it (R37): a send or a forward that has not settled, a RECVF
not matched yet, or a request not acknowledged. -/
def stillHolds (t : Tile) (p id : Nat) : Bool :=
  let pl := t.pl p
  pl.sends.any (fun sd => decide (sd.id = id) && sd.copies.any (fun c => !c.settled))
    || pl.prq.any (fun e => decide (e.id = id) && e.fwd.isSome)
    || pl.deliveries.any (fun d => decide (d.recv.id = id) && d.recv.fwd.isSome && d.fwd.isNone)
    || t.reqs.any (fun q => decide (q.req.id = id) && isWrite q.req.op)

/-- The operations that an ARRIVE waits for (R37). -/
def arriveWaits (t : Tile) (p : Nat) : List Nat :=
  let pl := t.pl p
  (pl.sends.map (·.id) ++ pl.prq.map (·.id) ++ pl.deliveries.map (·.recv.id)
    ++ (t.reqs.filter (fun q => decide (q.req.plane = p ∧ q.owner = .flag))).map (·.req.id)).filter (stillHolds t p)

/-- The even tile of a DUAL pair (R46). -/
def evenOf (r : Nat) : Nat := r / 2 * 2

/-- An ARRIVE on group n by plane p of tile r (R36): the phase bit is inverted, and the signal is held until R37 lets it
leave. A group that has been released takes no signal (R40). In a DUAL pair the tiles' ARRIVEs are compared first (R39, R46). -/
def arriveAt (s : State) (r p n : Nat) : State :=
  let pl := s.plane r p
  let ph := (pl.regs.ph[n]?).getD false
  let w := arriveWaits (s.tile r) p
  let s := s.modPlane r p (fun pl =>
    { pl with regs := { pl.regs with ph := pl.regs.ph.setIfInBounds n (!ph) },
              arrives := pl.arrives.setIfInBounds n ((pl.arrives[n]?).getD 0 + 1) })
  let s := if pl.task.dual then pushDual s r p (.arrive n) else s
  if s.groupOut pl.task.launch n ≠ 0 then s
  else
    emitOnce (s.modPlane r p (fun pl => { pl with held := pl.held ++ [{ group := n, phase := ph, waits := w }] }))
      (.arriveSignalRelease r p)

/-- ARRIVE (R36, R191). A WAIT after it is a new one, with no rollbacks (R43). -/
def execArrive (f : GB) (s : State) : Host.Outcome State Fault Refusal :=
  runWord 0 f.g s (fun s => do
    let _ ← needGroup s f.n (.arrive f)
    let _ ← noSpec s
    .ok (arriveAt (s.modCtx (fun p => { p with rollbacks := 0 })) s.cur s.ctxP f.n))

/-- Whether a WAIT completes: no earlier ARRIVE, a released group, or a tree past the phase of the latest ARRIVE (R36,
R40). -/
def waitDone (s : State) (n : Nat) : Bool :=
  match s.launchOf s.ctx.task.launch with
  | none => true
  | some l =>
    let t := (l.trees[n]?).getD {}
    decide (t.out ≠ 0) || decide ((s.ctx.arrives[n]?).getD 0 ≤ t.done)

/-- One added to a 16-bit field of SPECST, which saturates (Table 2.7). -/
def bumpSpecst (v : Word) (lo : Nat) : Word :=
  BitVec.ofNat 64 (putBits v.toNat (lo + 15) lo (min (bitsHL v.toNat (lo + 15) lo + 1) 0xFFFF))

/-- Whether a WAIT may open a speculation (R41, R43, R282). -/
def maySpeculate (s : State) (n : Nat) : Bool :=
  let p := s.ctx
  !s.mon && p.task.specs.testBit n && decide (p.task.specmax ≠ 0) && p.spec.isNone && decide (p.rollbacks < p.task.specmax)
    && decide (p.plain ≠ some s.bundle.start)

/-- Whether the next speculation number is in use still (R282). -/
def numberInUse (p : Plane) : Bool := p.releasing.any (fun q => decide (q.number = (p.specCount + 1).toNat))

/-- Opens a speculation at a WAIT (R41, R282): the counter advances, SPECS counts it, and the checkpoint is taken. -/
def openSpec (s : State) (n : Nat) : State :=
  let id := s.nextId
  let st := s.bundle.start
  s.modCtx (fun p =>
    let rg := { p.regs with specst := bumpSpecst p.regs.specst 32 }
    { p with
      regs := rg
      specCount := p.specCount + 1
      spec := some { ckpt := rg, number := (p.specCount + 1).toNat, group := n, phase := !((p.regs.ph[n]?).getD false),
                     awaits := (p.arrives[n]?).getD 0, pc := st, firstOp := id } })

/-- WAIT (R36, R41, R191). One that finds the next speculation number in use waits plainly to its end (R282). -/
def execWait (f : GB) (s : State) : Host.Outcome State Fault Refusal :=
  runWord 0 f.g s (fun s => do
    let _ ← needGroup s f.n (.wait f)
    if waitDone s f.n then
      .ok (s.modCtx (fun p => { p with rollbacks := if p.spec.isNone then 0 else p.rollbacks, plain := none }))
    else if maySpeculate s f.n then
      (if numberInUse s.ctx then .error (.held (s.modCtx (fun p => { p with plain := some s.bundle.start })))
       else .ok (openSpec s f.n))
    else stallW)

/-! ## Flags -/

/-- The trap that a WAITF takes on a status record, if any (R192). -/
def waitfCause (q : Quad) : Option Nat :=
  let fc := recFcode q
  let k := recKind q
  if recStatus q = stFAULT ∧ 7 ≤ k ∧ k ≤ 14 then
    some (if fc = fcENGFAULT then cENGFAULT else if fc = fcMRES then cMRES else if fc = fcHATOM then cHATOM
          else if k = 7 then cENGFAULT else cVAULTFAULT)
  else if recStatus q = stCANCELLED ∧ fc = fcMRES then some cMRES
  else none

/-- The acquire of R95: every write of the operation is visible to every path. -/
def acquire (s : State) (op : Nat) : State :=
  if op = 0 then s else s.modTile s.cur (fun t => { t with stale := orderUpTo (fun e => decide (e.op = op)) 15 t.stale })

/-- The flag of the faulted copy that holds the channel in which the operation id waits unstarted (R122). -/
def heldBehind (p : Plane) (id : Nat) : Option Nat :=
  (List.range 4).findSome? (fun k =>
    if ((p.chan[k]?).getD []).any (fun c => decide (c.id = id) && !c.started && !c.mon) then (p.hold[k]?).getD none else none)

/-- WAITF (R192). A flag of a copy that a faulted copy's channel holds traps ENGFAULT for that copy (R122). -/
def execWaitf (f : GF) (s : State) : Host.Outcome State Fault Refusal :=
  runWord 0 f.g s (fun s => do
    let fl := s.regs.fl f.fn
    let _ ← (match fl.bound.bind (heldBehind s.ctx) with
      | some h => if fl.on then .ok () else trapD cENGFAULT h (BitVec.ofNat 64 ((s.regs.fl h).status.toNat / 2 ^ 64))
      | none => .ok ())
    let _ ← orStall fl.on
    match waitfCause fl.status with
    | some c => .error (.trap { cause := c, detail := f.fn, info := BitVec.ofNat 64 (fl.status.toNat / 2 ^ 64),
                                acc := if c = cMRES then some (recAux fl.status) else none })
    | none => .ok (acquire s fl.last))

/-! ## CSR access and traps -/

/-- The check of a CSR number (R193): MTINFO is the word. -/
def needCsr (s : State) (n : Nat) (i : Instr) : Chk Unit :=
  match csrCause s.mon n with
  | none => .ok ()
  | some c => trapW c (BitVec.ofNat 64 (i.word % 2 ^ 32))

/-- CSRR (R193). -/
def execCsrr (f : CR) (s : State) : Host.Outcome State Fault Refusal :=
  runWord 0 f.g s (fun s => do
    let _ ← needCsr s f.csr (.csrr f)
    .ok (setX s f.rd (csrRead s f.csr)))

/-- CSRW (R193, R194): a write of SPECST stalls while a speculation is open. -/
def execCsrw (f : CW) (s : State) : Host.Outcome State Fault Refusal :=
  runWord 0 f.g s (fun s => do
    let _ ← needCsr s f.csr (.csrw f)
    let a ← readX s f.ra
    let _ ← (if f.csr = 4 then noSpec s else .ok ())
    .ok (csrWrite (killX s f.la f.ra) f.csr a))

/-- TRAP (R196). -/
def execTrap (f : IU) (s : State) : Host.Outcome State Fault Refusal :=
  runWord 0 f.g s (fun _ => trapW cTRAPI (zimm f.imm))

/-- MONCALL (R196). -/
def execMoncall (f : IU) (s : State) : Host.Outcome State Fault Refusal :=
  runWord 0 f.g s (fun _ => trapW cMONCALL (zimm f.imm))

/-! ## Headers -/

/-- A lend header (R154): it frames its bundle and has no effect of its own; the bundle in progress notes it. -/
def execLendHeader (h : Lend) (s : State) : Host.Outcome State Fault Refusal :=
  .next { s with bundle := { s.bundle with hdr := some h } }

/-- An idle header (R155): empty bundles have no effect but time, which the step adds. -/
def execIdleHeader (_y : Bool) (_n : Nat) (s : State) : Host.Outcome State Fault Refusal := .next s

end Sys2Proof.Machine
end

