-- ==== Sys2Proof/Machine/Arbiter.lean ====
section
/-! DEFINITION. The tile arbiter (R310, R311): windows, the decision at a drain point, the end of a YIELD's segment, and the
start of a plane that holds a swap token (R299, R301). -/

namespace Sys2Proof.Machine

/-- Whether a plane is ready (R310): it holds a resident task or a swap token and is not in the monitor. -/
def Plane.isReady (p : Plane) : Bool := decide (p.state = 3) || (p.token && decide (p.state = 2))

/-- A plane at the start of a window, when b holds (R310): one that was ready throughout the last and never ran in it
ages. -/
def Plane.windowIf (p : Plane) (b running : Bool) : Plane :=
  { p with pass := if b && p.readyAll && !p.ran then min (p.pass + 1) 8 else p.pass,
           readyAll := if b then p.isReady else p.readyAll, ran := if b then running else p.ran }

/-- A new window of a tile when b holds; otherwise the counter stands at w (R310). -/
def Tile.windowIf (t : Tile) (b : Bool) (w : Nat) : Tile :=
  { t with plane0 := t.plane0.windowIf b (decide (t.running = some 0) && !t.monitor),
           plane1 := t.plane1.windowIf b (decide (t.running = some 1) && !t.monitor), wrem := if b then 25600 else w }

/-- A new window of a tile (R310). -/
def Tile.newWindow (t : Tile) : Tile := t.windowIf true 0

/-- The rank at which a plane competes (R311). -/
def Plane.eff (p : Plane) : Nat := if p.pass = 8 then 15 else p.task.trank

/-- Whether a plane fits in what is left of the window (R311). -/
def Plane.fits (p : Plane) (wrem : Nat) : Bool := decide (p.decl + p.debt ≤ wrem ∨ wrem = 25600)

/-- The winner among the planes that a test admits: the highest effective rank, and on a tie the plane other than last. -/
def Tile.winner (t : Tile) (ok : Plane → Bool) (last : Option Nat) : Option Nat :=
  match ok t.plane0, ok t.plane1 with
  | false, false => none
  | true, false => some 0
  | false, true => some 1
  | true, true =>
    if t.plane1.eff < t.plane0.eff then some 0
    else if t.plane0.eff < t.plane1.eff then some 1
    else if last = some 0 then some 1 else some 0

/-- Gives the tile to plane p: its PASS returns to 0, and it has run in this window. Its segment goes on if it was
interrupted (R298); a YIELD has begun a new one. -/
def Tile.grant (t : Tile) (p : Nat) : Tile :=
  let t := t.setPl p { t.pl p with pass := 0, ran := true }
  { t with running := some p }

/-- Starts a plane that holds a swap token, when it is granted the tile (R301): a task begins or, with a token of the
resume kind, the plane enters the monitor with PREEMPT, DETAIL 1 (R299). -/
def startToken (s : State) (r p : Nat) : State :=
  let pl := s.plane r p
  if pl.token && decide (pl.state = 2) then
    let s := s.modPlane r p (fun pl => { pl with token := false, state := 3 })
    if pl.resumeKind then
      monitorEntry (s.modPlane r p (fun pl => { pl with resumeKind := false })) r p
        { cause := cPREEMPT, detail := 1, slot := 3, info := BitVec.ofNat 64 (pkgOf r * 4096 + 0x511) } pl.resume
        (npcAt s r p pl.resume)
    else s
  else s

/-- A decision at a drain point (R311): last is the plane that was running. A window that it starts has seen no plane run yet. -/
def decideTile (s : State) (r : Nat) (last : Option Nat) : State :=
  let t := s.tile r
  if t.fenced || t.monitor then s
  else
    let fit := t.winner (fun p => p.isReady && p.fits t.wrem) last
    match fit with
    | some w => startToken (s.setTile r (t.grant w)) r w
    | none =>
      match t.winner Plane.isReady last with
      | none => s.setTile r { t with running := none }
      | some _ =>
        let t := { t with running := none }.newWindow
        match t.winner Plane.isReady last with
        | some w => startToken (s.setTile r (t.grant w)) r w
        | none => s

/-- A plane's accounts at the end of a YIELD bundle (R311): the overrun is charged and the declaration is kept. -/
def Plane.declare (pl : Plane) (imm : Nat) : Plane :=
  { pl with debt := if pl.declared then min (pl.debt + pl.seg - pl.decl) 4194303 else pl.debt,
            decl := imm, declared := true, seg := 0 }

/-- The end of a YIELD bundle of the running plane (R188, R311): its accounts, and a decision. -/
def yieldTile (s : State) (r p imm : Nat) : State :=
  decideTile (s.modPlane r p (fun pl => pl.declare imm)) r (some p)

end Sys2Proof.Machine
end

