-- ==== Sys2Proof/Machine/TileStore.lean ====
section
/-! DEFINITION. The M slot's tile-store words (spec/11_isa_memory.md R221 to R224), the fences (spec/05_memory_model.md
R94, R103) and the flag words (R235, R247). -/

namespace Sys2Proof.Machine

/-! ## Shapes -/

/-- The access size of a W field (Table 11.2). -/
def wSize (w : Nat) : Nat := 2 ^ (w % 4)

/-- The value that LD writes: zero-extended, or sign-extended for W from 4 on (Table 11.2). -/
def ldValue (w : Nat) (b : List Byte) : Word :=
  if w < 4 then BitVec.ofNat 64 (leNat b) else wrap64 (sextN (8 * wSize w) (leNat b))

/-- A vector register from bytes, byte 0 lowest. -/
def vOfBytes (b : List Byte) : VReg := BitVec.ofNat 1024 (leNat b)

/-- The n bytes of a vector register from byte k on. -/
def vBytes (v : VReg) (k n : Nat) : List Byte := leBytes n (v.toNat / 2 ^ (8 * k))

/-- The address of LD and ST (R221). -/
def ldAddr (x : Word) (f : ML) : Nat := taskAddr x (f.off.sval 8 8 * (wSize f.w : Nat))

/-- The address of VLD and VST (R222). -/
def vldAddr (x : Word) (f : MV) : Nat := taskAddr x (f.off.sval 11 7)

/-- The address of granule k of VLDS and VSTS (R223). -/
def strideAddr (x : Word) (f : MV) (k : Nat) : Nat := taskAddr x ((k : Int) * f.off.sval 11 7)

/-- The address of element j of VGATH and VSCAT (R224). -/
def gathAddr (x : Word) (f : MV) (ix : VReg) (j : Nat) : Nat :=
  taskAddr x (f.off.sval 11 7 + ((ix.toNat / 2 ^ (32 * j) % 2 ^ 32 : Nat) : Int))

/-- Checks a list of addresses, first their alignment and then their range; the first that fails is reported (R169, R223,
R224). -/
def needAll (s : State) (as : List Nat) (al n : Nat) : Chk Unit := do
  let _ ← (match as.find? (fun a => decide (a % al ≠ 0)) with
    | some a => trapW cALIGN (BitVec.ofNat 64 a)
    | none => .ok ())
  match as.find? (fun a => decide (tsLimit s < a + n)) with
  | some a => trapW cTSBOUND (BitVec.ofNat 64 a)
  | none => .ok ()

/-- Reads n bytes at each of a list of addresses, in order, joined. -/
def mReads (n : Nat) : List Nat → State → Chk (List Byte × State)
  | [], s => .ok ([], s)
  | a :: r, s => do
    let (b, s) ← mRead s a n
    let (bs, s) ← mReads n r s
    .ok (b ++ bs, s)

/-- Writes n bytes of a list at each of a list of addresses, in order. -/
def mWrites (n : Nat) : List Nat → List Byte → State → Chk State
  | [], _, s => .ok s
  | a :: r, bs, s => do
    let s ← mWrite s a (bs.take n)
    mWrites n r (bs.drop n) s

/-! ## Loads and stores -/

/-- LD (R221). -/
def execLd (f : ML) (s : State) : Host.Outcome State Fault Refusal :=
  runWord 2 f.g s (fun s => do
    let x ← readX s f.xa
    let t := ldAddr x f
    let _ ← needAlign t (wSize f.w)
    let _ ← needRange s t (wSize f.w)
    let (b, s) ← mRead s t (wSize f.w)
    .ok (setX s f.rd (ldValue f.w b)))

/-- ST (R221). -/
def execSt (f : ML) (s : State) : Host.Outcome State Fault Refusal :=
  runWord 2 f.g s (fun s => do
    let x ← readX s f.xa
    let v ← readX s f.rd
    let t := ldAddr x f
    let _ ← needAlign t (wSize f.w)
    let _ ← needRange s t (wSize f.w)
    mWrite s t (leBytes (wSize f.w) v.toNat))

/-- VLD (R222). -/
def execVld (f : MV) (s : State) : Host.Outcome State Fault Refusal :=
  runWord 2 f.g s (fun s => do
    let d ← checkV s f.vd
    let x ← readX s f.xa
    let t := vldAddr x f
    let _ ← needAlign t 64
    let _ ← needRange s t 128
    let (b, s) ← mRead s t 128
    .ok (setV s d (vOfBytes b)))

/-- VST (R222). -/
def execVst (f : MV) (s : State) : Host.Outcome State Fault Refusal :=
  runWord 2 f.g s (fun s => do
    let d ← checkV s f.vd
    let x ← readX s f.xa
    let v ← readV s d
    let t := vldAddr x f
    let _ ← needAlign t 64
    let _ ← needRange s t 128
    mWrite s t (vBytes v 0 128))

/-- VLDS (R223). -/
def execVlds (f : MV) (s : State) : Host.Outcome State Fault Refusal :=
  runWord 2 f.g s (fun s => do
    let d ← checkV s f.vd
    let x ← readX s f.xa
    let as := (List.range 8).map (strideAddr x f)
    let _ ← needAll s as 16 16
    let (b, s) ← mReads 16 as s
    .ok (setV s d (vOfBytes b)))

/-- VSTS (R223): a higher granule stays where two meet. -/
def execVsts (f : MV) (s : State) : Host.Outcome State Fault Refusal :=
  runWord 2 f.g s (fun s => do
    let d ← checkV s f.vd
    let x ← readX s f.xa
    let v ← readV s d
    let as := (List.range 8).map (strideAddr x f)
    let _ ← needAll s as 16 16
    mWrites 16 as (vBytes v 0 128) s)

/-- VGATH (R224): every address is checked before any byte moves. -/
def execVgath (f : MV) (s : State) : Host.Outcome State Fault Refusal :=
  runWord 2 f.g s (fun s => do
    let d ← checkV s f.vd
    let i ← checkV s (f.vd + 1)
    let x ← readX s f.xa
    let ix ← readV s i
    let as := (List.range 32).map (gathAddr x f ix)
    let _ ← needAll s as 4 4
    let (b, s) ← mReads 4 as s
    .ok (setV s d (vOfBytes b)))

/-- VSCAT (R224). -/
def execVscat (f : MV) (s : State) : Host.Outcome State Fault Refusal :=
  runWord 2 f.g s (fun s => do
    let d ← checkV s f.vd
    let i ← checkV s (f.vd + 1)
    let x ← readX s f.xa
    let v ← readV s d
    let ix ← readV s i
    let as := (List.range 32).map (gathAddr x f ix)
    let _ ← needAll s as 4 4
    mWrites 4 as (vBytes v 0 128) s)

/-! ## Fences -/

/-- Whether a matrix instruction accesses tile store. -/
def MxOp.touches : MxOp → Bool
  | .mma _ => true
  | .mldacc _ => true
  | .mstacc _ => true
  | .mzero _ => false
  | .msend _ _ => false

/-- Done(C) and Done(X) and Done(N) of R94 for the context plane; Done(P) always holds, since M-slot accesses are performed
with their bundles. -/
def fenceDone (s : State) (frm : Nat) : Bool :=
  let p := s.ctx
  (!hasPath frm pathC || (List.range 4).all (fun k => ((p.chan[k]?).getD []).isEmpty))
    && (!hasPath frm pathX || p.mx.all (fun e => !e.op.touches))
    && (!hasPath frm pathN || p.sends.all (fun sd => !sd.eager || sd.held || sd.spec || decide (sd.kind = 4 ∨ sd.kind = 6)))

/-- FENCE.P (R94): after it, the paths of TO see every write that a path of FROM has made or read; a write that a path of FROM is only
ordered behind has no fence between it and TO (R93). -/
def execFenceP (f : MFp) (s : State) : Host.Outcome State Fault Refusal :=
  runWord 2 f.g s (fun s => do
    if f.frm = 0 ∨ f.tom = 0 then .ok s
    else do
      let _ ← orStall (fenceDone s f.frm)
      .ok (s.modTile s.cur (fun t =>
        { t with stale := orderUpTo (fun e => [pathP, pathC, pathX, pathN].any (fun q => hasPath f.frm q && hasPath e.seen q)) f.tom t.stale })))

/-! ## Flags -/

/-- MSTAT (R235). -/
def execMstat (f : MSt) (s : State) : Host.Outcome State Fault Refusal :=
  runWord 2 f.g s (fun s => do
    let _ ← freeFlag s f.fn
    let q := (s.regs.fl f.fn).status
    .ok (setX s f.rd (if f.h then q.extractLsb' 64 64 else q.extractLsb' 0 64)))

/-- Sets or clears a flag bit alone; a flag changed so acquires nothing, and notes its place among the plane's stores (R17,
R95, R228, R247), and releases a COPYQ that waits for it. -/
def putFlag (s : State) (fn : Nat) (b : Bool) : State :=
  let (id, s) := freshId s
  s.modCtx (fun pl => Plane.fire { pl with regs := pl.regs.setFl fn { pl.regs.fl fn with on := b, last := id, soft := b } })

/-- FLCLR (R247). -/
def execFlclr (f : MF) (s : State) : Host.Outcome State Fault Refusal :=
  runWord 2 f.g s (fun s => do
    let _ ← freeFlag s f.fn
    .ok (putFlag s f.fn false))

/-- FLSET (R247). -/
def execFlset (f : MF) (s : State) : Host.Outcome State Fault Refusal :=
  runWord 2 f.g s (fun s => do
    let _ ← freeFlag s f.fn
    .ok (putFlag s f.fn true))

end Sys2Proof.Machine
end

