-- ==== Sys2Proof/Machine/Request.lean ====
section
/-! DEFINITION. The message engine's side of vault and host requests (R101, R112, R236 to R242, R315 to R326): which
granules a request occupies, its translation, its transmission, and its completion. -/

namespace Sys2Proof.Machine

/-! ## Granules -/

/-- Where byte i of a request lies: the package, whether in host memory, and the DPA; as it was translated, or as a
translation finds it now. Nothing where that faults. -/
def reqPlace (s : State) (q : Req) (i : Nat) : Option (Nat × Bool × Nat) :=
  if q.vault ≠ 0 ∧ q.base ≤ i ∧ (i < q.upto ∨ i = 0) then some (q.pkg, q.host, q.dpa + (i - q.base))
  else
    (peekTr s q.rank q.part (q.va + i)).map (fun t =>
      (t.pkg, t.host, if t.host then t.dpaOf (q.va + i) % 2 ^ 42 else t.dpaOf (q.va + i)))

/-- The virtual spans that a request occupies (R101): a REDF its slot and its WRITTEN bit, with the N that the header holds
now (log entry 16); a QUERY none. -/
def reqSpans (s : State) (q : Req) : List (Nat × Nat) :=
  match q.op with
  | .get => [(q.va, q.len)]
  | .put => [(q.va, q.len)]
  | .atom _ w => [(q.va, if w then 16 else 8)]
  | .red _ w => [(q.va, if w then 8 else 4)]
  | .redf slot =>
    match reqPlace s q 0 with
    | some (pkg, false, dpa) =>
      let n := leNat (s.dpaBytes pkg (dpa + 4) 4)
      [(q.va + 64 + slot / 8, 1), (q.va + 64 + bitmapLen n + 4 * slot, 4)]
    | _ => []
  | .fship _ => [(q.va, 64)]
  | .query => []

/-- Whether two spans share a granule. -/
def shareGranule (x y : Nat × Nat) : Bool :=
  decide (x.2 ≠ 0 ∧ y.2 ≠ 0 ∧ x.1 / 16 ≤ (y.1 + y.2 - 1) / 16 ∧ y.1 / 16 ≤ (x.1 + x.2 - 1) / 16)

/-- The places that a request occupies, each with its package, whether in host memory, its DPA and its length. The object of a REDF
lies from its header's DPA on (R117); a span of another request is cut where a leaf may end (R315). -/
def reqPlaces (s : State) (q : Req) : List (Nat × Bool × (Nat × Nat)) :=
  match q.op with
  | .redf _ =>
    match reqPlace s q 0 with
    | some x => (reqSpans s q).map (fun k => (x.1, x.2.1, (k.1 - q.va + x.2.2, k.2)))
    | none => []
  | _ =>
    (((reqSpans s q).flatMap (fun k => pieces k.1 k.2)).filterMap (fun k =>
      (reqPlace s q (k.1 - q.va)).map (fun x => (x.1, x.2.1, (x.2.2, k.2)))))

/-- Whether two requests of one tile occupy a common granule: by virtual address in one partition, or by the place that the
addresses translate to. -/
def reqsMeet (s : State) (p q : Req) : Bool :=
  let a := reqSpans s p
  let b := reqSpans s q
  (decide (p.part = q.part ∧ pkgOf p.rank = pkgOf q.rank) && a.any (fun x => b.any (shareGranule x)))
    || (reqPlaces s p).any (fun x => (reqPlaces s q).any (fun y =>
          decide (x.1 = y.1 ∧ x.2.1 = y.2.1) && shareGranule x.2.2 y.2.2))

/-- Whether a request waits behind an earlier one to one of its granules (R101). -/
def reqBlocked (s : State) (r : Nat) (q : ReqSt) : Bool :=
  ((s.tile r).reqs.takeWhile (fun e => decide (e.req.id ≠ q.req.id))).any (fun e => reqsMeet s e.req q.req)

/-- Replaces a request of a tile. -/
def putReq (s : State) (r : Nat) (q : ReqSt) : State :=
  s.modTile r (fun t => { t with reqs := t.reqs.map (fun e => if e.req.id = q.req.id then q else e) })

/-- Removes a request of a tile. -/
def dropReq (s : State) (r id : Nat) : State :=
  s.modTile r (fun t => { t with reqs := t.reqs.filter (fun e => decide (e.req.id ≠ id)) })

/-! ## Completion -/

/-- KIND of a request (Table 11.6). -/
def reqKind : VOp → Nat
  | .get => 9
  | .put => 10
  | .atom _ _ => 11
  | .red _ _ => 10
  | .redf _ => 10
  | .fship _ => 11
  | .query => 12

/-- LENGTH of a request's record (Table 11.6): done is what its reply gives. -/
def reqLength (q : Req) (done : Nat) : Nat :=
  match q.op with
  | .get => q.len
  | .put => done
  | .atom _ w => if w then 16 else 8
  | .red _ _ => done
  | .redf _ => done
  | .fship _ => 64
  | .query => done

/-- The tag of a QUERY's block (Table 6.8). -/
def queryTag (block : List Byte) : Nat := leNat ((block.drop 4).take 2)

/-- The record of a request (Table 11.6). home is the rank that answered; dlen the bytes written to tile store. -/
def reqRecord (q : Req) (status fcode home done dlen : Nat) : Quad :=
  RecF.bits { peer := home, tag := if q.op = .query then queryTag q.data else 0, status := status, kind := reqKind q.op,
              fcode := fcode, length := reqLength q done, dlen := dlen }

/-! ## Network -/

/-- The offset of a peer in a package's shelf group (R134); nothing for a package of another group. -/
def offsetOf (pkg peer : Nat) : Option Nat :=
  if pkg / 32 = peer / 32 then some ((peer % 32 + 32 - pkg % 32) % 32) else none

/-- VALID, OFFSET, LANES and LEN of a slot entry (Table 7.2). -/
def slotValid (e : Nat) : Bool := e.testBit 31
/-- OFFSET. -/
def slotOff (e : Nat) : Nat := bitsHL e 30 26
/-- LANES. -/
def slotLanes (e : Nat) : Nat := bitsHL e 25 16
/-- LEN in ns. -/
def slotNs (e : Nat) : Nat := e % 1024 * 1000

/-- Whether packets from a package to a peer go over Ultra Ethernet: the peer is of another shelf group, every lane to it is
fenced (R134, R138), or in slotted mode no valid slot names it (R146). -/
def overEthernet (s : State) (pkg peer : Nat) : Bool :=
  let p := s.pkg pkg
  match offsetOf pkg peer with
  | none => true
  | some o =>
    decide (o ≠ 0) &&
      (if p.slotted then !p.rota.slots.any (fun e => slotValid e.2 && decide (slotOff e.2 = o)) else decide (p.lanesAt o = 0))

/-- The number of the send queue of a package for a peer offset (R139). -/
def queueKey (pkg o : Nat) : Nat := o + 4096 * pkg

/-- Where a packet with a number of payload flits waits (R139, R146, R147): in the send queue of its peer, for a lane that
points there. Control traffic travels in the sidebands (R136), and waits in slotted mode alone. A packet inside the package or over
Ultra Ethernet waits nowhere. -/
def netVia (s : State) (src dst flits : Nat) : Option (Nat × Nat) :=
  let k := pkgOf src
  match offsetOf k (pkgOf dst) with
  | some o =>
    if o = 0 ∨ ((s.pkg k).slotted = false ∧ flits = 0) then none
    else if overEthernet s k (pkgOf dst) then none
    else some (queueKey k o, flits)
  | none => none

/-- The flits of a queue that have not left, those that still wait at a message engine included. -/
def queueFlits (s : State) (key : Nat) : Nat :=
  (s.agenda.map (fun d => match d.via with
    | some (k, f) => if k = key then f else 0
    | none => 0)).sum

/-- The flits for which the send queue towards a rank has room, of 256 KiB (R139); nothing where no queue lies on the way. -/
def queueRoom (s : State) (src dst : Nat) : Option Nat := (netVia s src dst 1).map (fun v => 4096 - queueFlits s v.1)

/-- Whether the send queue towards a rank takes n bytes now. A message engine that would read more waits. -/
def queueTakes (s : State) (src dst n : Nat) : Bool :=
  match queueRoom s src dst with
  | some k => decide ((n + 63) / 64 ≤ k)
  | none => true

/-- A packet with n bytes of payload goes from a rank towards another and is due there as a step. While it waits in a send queue, the
queues of its package are looked at. -/
def emitNet (s : State) (src dst n : Nat) (ev : Instr) : State :=
  let v := netVia s src dst ((n + 63) / 64)
  let look : Due := { ev := .slotStart (pkgOf src) 0 }
  { s with agenda := s.agenda ++ [{ ev := ev, via := v }] ++ (if v.isSome && !s.agenda.contains look then [look] else []) }

/-- The step that a request is at its target. -/
def reqEvent (q : Req) : Instr :=
  if q.host then .hostWindowRequest q
  else
    match q.op with
    | .get => .vaultGet q
    | .put => .vaultPut q
    | .atom _ _ => .vaultAtom q
    | .red _ _ => .vaultRed q
    | .redf _ => .vaultRedf q
    | .fship _ => .vaultFship q
    | .query => .vaultQuery q

/-- A request as it travels: a GET takes no bytes with it, and a PUT those from base to upto. -/
def reqLoad (q : Req) : Nat :=
  match q.op with
  | .get => 0
  | .put => q.upto - q.base
  | _ => q.data.length

/-- Sends a request towards its target. -/
def emitReq (s : State) (q : Req) : State :=
  emitNet s q.rank q.vault (reqLoad q) (reqEvent (if q.op = .get then { q with data := [] } else q))

/-! ## Transmission -/

/-- Whether a request needs R and W (R319). -/
def needRW : VOp → Bool × Bool
  | .get => (true, false)
  | .put => (false, true)
  | .atom _ _ => (true, true)
  | .red _ _ => (false, true)
  | .redf _ => (false, true)
  | .fship _ => (true, true)
  | .query => (true, false)

/-- What R108 and R242 refuse of a request to a host page. -/
def hostRefuses (q : Req) (sysatom : Bool) : Option Nat :=
  match q.op with
  | .get => none
  | .put => none
  | .atom op w => if sysatom && decide (op = 9 ∨ (w = false ∧ (op = 0 ∨ op = 8))) then none else some fcHATOM
  | .query => some fcQBAD
  | _ => some fcHATOM

/-- A tile engine's read of tile store: the bytes, or a wait, or the flag of a faulted copy window (R44, R96, R98). -/
def engineRead (s : State) (r p path skip a n : Nat) : Except WinSt (List Byte) :=
  if n = 0 then .ok []
  else if draining s r then .error .wait
  else
    match readTile (s.tile r) p a n skip with
    | .clear => .ok (tsBytes s r p path a n)
    | w => .error w

/-- The location cache of a tile with a page's vault noted, 16 entries (R323). -/
def noteLoc (l : List (Nat × Nat)) (key vault : Nat) : List (Nat × Nat) :=
  let l := l.filter (fun e => decide (e.1 ≠ key)) ++ [(key, vault)]
  if l.length ≤ 16 then l else l.drop 1

/-- The key of a page in the location cache. -/
def locKey (pkg dpa : Nat) : Nat := pkg * 2 ^ 23 + dpn64 dpa

/-- The target of an access of the tile r (R321 to R323): the host window, the cached vault or the nominal one. -/
def trTarget (s : State) (r : Nat) (t : Tr) (dpa : Nat) : Nat :=
  if t.host then t.pkg * 4096 + 0x500 + dpa % 2 ^ 42 / 2 ^ 39
  else (((s.tile r).loc.find? (fun e => decide (e.1 = locKey t.pkg dpa))).map (·.2)).getD (nominalVault t.pkg dpa)

/-- The address of the first byte that a request has still to translate. -/
def nextVa (q : Req) : Nat := q.va + q.base

/-- A request with the translation of the bytes from base on, as far as the entry covers them (R315). -/
def withTr (s : State) (q : Req) (t : Tr) (dpa : Nat) : Req :=
  { q with pkg := t.pkg, dpa := dpa, host := t.host, sysatom := t.sysatom, vault := trTarget s q.rank t dpa,
           upto := min q.len (t.hi + 1 - q.va), done := q.base }

/-- Ends a request that a check refuses, by an answer of its own tile: it completes FAULT and reaches no vault (R236,
R326). One that R108 refuses names the host window to which R321 sends it (Table 11.6); of one that is refused before it has a
target the table's PEER has no rank, and the model gives 0 (DESIGN CHOICE, log entry 95). A PUT counts the bytes of its parts that
were performed. -/
def refuseReq (s : State) (r : Nat) (q : ReqSt) (fc : Nat) : State :=
  emit (putReq s r { q with sent := true, full := false })
    (.vaultReply { req := q.req, status := stFAULT, fcode := fc, data := [], done := if q.req.op = .put then q.req.base else 0,
                   home := if q.req.host then q.req.vault else 0 })

/-- A marked read at transmission (R123, R282): the mark of the speculation that is open and issued it; none after its end;
nothing while a ninth vault would be touched: the read then waits for the end of the speculation, as one that met a full
filter does (R44, R123). -/
def markRead (s : State) (r : Nat) (q : Req) (under : Bool) : Option (Req × State) :=
  let pl := s.plane r q.plane
  match q.op, pl.spec with
  | .get, some sp =>
    if !under || sp.committing then some ({ q with spec := false }, s)
    else if sp.vaults.contains q.vault ∨ q.host then
      some ({ q with spec := !q.host, number := sp.number, sgroup := sp.group, sphase := if sp.phase then 1 else 0 }, s)
    else if sp.vaults.length < 8 then
      some ({ q with spec := true, number := sp.number, sgroup := sp.group, sphase := if sp.phase then 1 else 0 },
        s.modPlane r q.plane (fun pl => { pl with spec := pl.spec.map (fun sp => { sp with vaults := sp.vaults ++ [q.vault] }) }))
    else none
  | _, _ => some ({ q with spec := false }, s)

/-- The bytes that the engine reads at transmission: a QUERY's first 128, else the whole protected area (R237 to R242). -/
def readLen (q : ReqSt) : Nat := if q.req.op = .query then min q.len 128 else q.len

/-- A request with the bytes read at transmission: an ATOM's and an FSHIP's operands (R238, R241), else its data. -/
def withData (q : Req) (b : List Byte) : Req :=
  match q.op with
  | .atom _ w =>
    let n := if w then 16 else 8
    { q with a := leNat (b.take n), b := leNat ((b.drop 16).take n) }
  | .fship _ => { q with a := leNat (b.take 8), b := leNat ((b.drop 8).take 8) }
  | _ => { q with data := b }

/-- The bytes that a request carries to its target, once it has been read. -/
def reqBytes (q : ReqSt) : Nat :=
  match q.req.op with
  | .get => 0
  | .put => q.req.upto - q.req.base
  | _ => max q.req.data.length (readLen q)

/-- Transmits a translated request, when nothing holds it and its send queue has room: the engine reads its bytes, and the request
leaves. -/
def sendReq (s : State) (r : Nat) (q : ReqSt) : State :=
  if reqBlocked s r q || !queueTakes s r q.req.vault (reqBytes q) then s
  else
    match engineRead s r q.req.plane pathN 4 q.addr (readLen q) with
    | .error .wait => s
    | .error .clear => s
    | .error (.faulted _) => refuseReq s r q fcENGFAULT
    | .ok b =>
      match markRead (tsSeen s r pathN q.addr (readLen q)) r (if q.len = 0 then q.req else withData q.req b) q.under with
      | none =>
        (putReq s r { q with full := true }).modPlane r q.req.plane (fun pl =>
          { pl with regs := { pl.regs with specst := bumpSpecst pl.regs.specst 48 } })
      | some (q', s) => emitReq (putReq s r { q with req := q', sent := true, len := if q'.op = .query then q.len else 0 }) q'

/-- A request whose entry has been found: its checks (R319 to R322), and its transmission. -/
def withEntry (s : State) (r : Nat) (q : ReqSt) (t : Tr) : State :=
  let rw := needRW q.req.op
  match checkTr s (pkgOf r) q.req.part (s.plane r q.req.plane).regs.myrank q.req.mon rw.1 rw.2 t (nextVa q.req) with
  | .error fc => refuseReq s r q fc
  | .ok dpa =>
    match (if t.host then hostRefuses q.req t.sysatom else none) with
    | some fc => refuseReq s r { q with req := withTr s q.req t dpa } fc
    | none =>
      let q := { q with req := withTr s q.req t dpa }
      sendReq (putReq s r q) r q

/-- The length and crossing check of a GET or PUT, and the alignment checks, of R236. -/
def reqCheck (q : Req) : Option Nat :=
  if 2 ^ 48 ≤ q.va then some fcBADVA
  else
    match q.op with
    | .get => if q.len < 1 ∨ 256 < q.len ∨ q.va / 65536 ≠ (q.va + q.len - 1) / 65536 then some fcBADLEN else none
    | .put => if q.len < 1 ∨ 256 < q.len ∨ q.va / 65536 ≠ (q.va + q.len - 1) / 65536 then some fcBADLEN else none
    | .atom _ w => if q.va % (if w then 16 else 8) ≠ 0 then some fcBADALIGN else none
    | .red _ w => if q.va % (if w then 8 else 4) ≠ 0 then some fcBADALIGN else none
    | .redf slot => if q.va % 64 ≠ 0 then some fcBADALIGN else if 65536 ≤ slot then some fcREDSLOT else none
    | .fship _ => if q.va % 64 ≠ 0 then some fcBADALIGN else none
    | .query => if q.va % 64 ≠ 0 then some fcQBAD else none

/-- A request that no entry translates (R318): it joins the walk of its 4 KiB page that is in progress at its die, starts
one when fewer than 64 are, or waits for a walker. -/
def missWalk (s : State) (r : Nat) (q : ReqSt) : State :=
  let p := s.pkg (pkgOf r)
  let die := dieOf (epOf r)
  let me := (r, q.req.id)
  let same := fun (w : Walk) => decide (w.die = die ∧ w.part = q.req.part ∧ w.page = (nextVa q.req) / 4096)
  if p.walkWait.contains me || p.walks.any (fun w => w.reqs.contains me) then s
  else if p.walks.any same then
    s.modPkg (pkgOf r) (fun p => { p with walks := p.walks.map (fun w => if same w then { w with reqs := w.reqs ++ [me] } else w) })
  else if (p.walks.filter (fun w => decide (w.die = die))).length < 64 then
    emit (s.modPkg (pkgOf r) (fun p =>
      { p with walks := p.walks ++ [{ die := die, part := q.req.part, page := (nextVa q.req) / 4096, reqs := [me] }] })) (.pageWalkEnd q.req)
  else s.modPkg (pkgOf r) (fun p => { p with walkWait := p.walkWait ++ [me] })

/-- Tries to send a request whose address is known (R101, R315): it waits behind an earlier request to a granule of its, is
translated, or has a walk due. -/
def tryKnown (s : State) (r : Nat) (q : ReqSt) : State :=
  if q.req.vault ≠ 0 then sendReq s r q
  else if reqBlocked s r q then s
  else
    match lookupTile s r q.req.part (nextVa q.req) with
    | some (t, s) => withEntry s r q t
    | none => missWalk s r q

/-- Reads a QUERY's block, whose SHARD0 is the address that is checked and translated (R242). -/
def tryQuery (s : State) (r : Nat) (q : ReqSt) : State :=
  if q.req.data ≠ [] then tryKnown s r q
  else
    match engineRead s r q.req.plane pathN 4 q.addr 128 with
    | .error (.faulted _) => refuseReq s r q fcENGFAULT
    | .error _ => s
    | .ok b =>
      let q := { q with req := { q.req with data := b, va := leNat ((b.drop 64).take 8) } }
      let s := putReq s r q
      match reqCheck q.req with
      | some fc => refuseReq s r q fc
      | none => tryKnown s r q

/-- Tries to send a request. -/
def tryReq (s : State) (r : Nat) (q : ReqSt) : State :=
  if q.sent || !q.ready || q.full then s
  else if q.req.op = .query then tryQuery s r q
  else tryKnown s r q

/-- Tries every request of a tile that has not been sent, in issue order. -/
def pumpReqs (s : State) (r : Nat) : State :=
  (s.tile r).reqs.foldl (fun s q =>
    match (s.tile r).reqs.find? (fun e => decide (e.req.id = q.req.id)) with
    | some q => tryReq s r q
    | none => s) s

/-- The phase vector of a plane (R38). -/
def phaseVec (r : Regs) : Nat :=
  (List.range 4).foldl (fun a n => a + (if (r.ph[n]?).getD false then 2 ^ n else 0)) 0

/-- A request of the current tile's context plane with the fields that its task gives (R38, R112). -/
def newReq (s : State) (id flag : Nat) (op : VOp) (va len : Nat) : Req :=
  let p := s.ctx
  { id := id, rank := s.cur, plane := s.ctxP, job := p.task.job, part := p.task.part, flag := flag, op := op, va := va,
    len := len, a := 0, b := 0, data := [], dst := 0, mv := p.task.bgroups, pv := phaseVec p.regs, spec := false, number := 0,
    sgroup := 0, sphase := 0, mon := s.mon, pkg := 0, dpa := 0, host := false, sysatom := false, vault := 0, tries := 0 }

end Sys2Proof.Machine
end

