-- ==== Sys2Proof/Machine/Spec.lean ====
section
/-! DEFINITION. Rollback and commit of a speculation (R42 to R45, R110, R250, R282), the release flits, and what a rollback
keeps. -/

namespace Sys2Proof.Machine

/-- NSTEP of xc (Table 12.2). -/
def xcSteps (x : Word) : Nat := bitsHL x.toNat 63 60 + 1
/-- BCOL. -/
def xcBcol (x : Word) : Nat := bitsHL x.toNat 59 40
/-- KORG, or the column of MLDACC and MSTACC. -/
def xcKorg (x : Word) : Nat := bitsHL x.toNat 39 20
/-- AROW. -/
def xcArow (x : Word) : Nat := bitsHL x.toNat 19 0

/-- The matrix instruction at the head of a plane's queue has its next step due: none of a halted plane that has not started
(R298), and no step past an MMA's last (R259). -/
def mxKick (s : State) (r p : Nat) : State :=
  let pl := s.plane r p
  match pl.mx.head? with
  | none => s
  | some e =>
    if pl.halted && !e.started then s
    else
      match e.op with
      | .mma _ =>
        if e.started && decide (xcSteps e.xv ≤ e.step) then emitOnce s (.matrixOpComplete r p)
        else if s.agenda.any (fun d => match d.ev with
            | .mmaStep a b _ => decide (a = r ∧ b = p)
            | _ => false) then s
        else emit s (.mmaStep r p (Config.residue s.tick % 3))
      | .msend _ _ => emitOnce s (.msendSnapshot r p)
      | _ => emitOnce s (.matrixOpComplete r p)

/-- Whether a plane's heartbeat has reached HBIV (R35). -/
def Plane.missed (pl : Plane) : Bool := decide (pl.regs.hbiv ≤ pl.regs.hbcnt)

/-- Whether a plane's commit drain is under way (R44). -/
def Plane.drains (p : Plane) : Bool :=
  match p.spec with
  | some sp => sp.committing
  | none => false

/-- Whether a marked read of a speculation has still to be answered (R282). -/
def marksOut (t : Tile) (p number : Nat) : Bool :=
  t.reqs.any (fun q => q.sent && q.req.spec && decide (q.req.plane = p ∧ q.req.number = number))

/-- Sends the release flits of ended speculations whose marked reads have all been answered (R282). A speculation whose
flits have all been acknowledged leaves the list, and its number is free again. -/
def pumpRelease (s : State) (r p : Nat) : State :=
  let l := (s.plane r p).releasing
  let s := l.foldl (fun s e =>
    if e.toSend.isEmpty ∨ marksOut (s.tile r) p e.number = true then s
    else e.toSend.foldl (fun s v => emitNet s r v 0 (.releaseFlit { vault := v, rank := r, plane := p, number := e.number })) s) s
  let t := s.tile r
  s.modPlane r p (fun pl =>
    { pl with releasing := (pl.releasing.map (fun e =>
        if e.toSend.isEmpty ∨ marksOut t p e.number = true then e
        else { e with toSend := [], waiting := e.waiting ++ e.toSend })).filter (fun e => !(e.toSend.isEmpty && e.waiting.isEmpty)) })

/-- The flags of a checkpoint with those set that operations issued before the speculation completed during it (R250). -/
def keepFlags (ck : Regs) (done : List (Nat × Nat × Quad)) : Regs :=
  done.foldl (fun r d => r.setFl d.1 { on := true, status := d.2.2, bound := none, last := d.2.1 }) ck

/-- The registers after a rollback: the checkpoint, with the flags of earlier operations, the heartbeat, CYCLE and SPECST,
the accumulators that earlier operations wrote, and the watermarks of earlier copies (R41, R110, R250). -/
def restored (pl : Plane) (sp : Spec) : Regs :=
  let now := pl.regs
  let r := keepFlags sp.ckpt sp.doneFlags
  { r with
    pc := sp.pc
    acc := now.acc
    fflags := r.fflags ||| sp.early
    hbcnt := now.hbcnt
    cycle := now.cycle
    specst := bumpSpecst now.specst 0
    wmark := now.wmark.mapIdx (fun k w => if sp.chans.contains k then (sp.ckpt.wmark[k]?).getD 0 else w) }

/-- Where a plane's task resumes: the bundle of an EXIT that waits, else its PC; a token of the resume kind names its own. -/
def Plane.resumePoint (pl : Plane) : Nat :=
  if pl.resumeKind then pl.resume else pl.exiting.getD pl.regs.pc

/-- A plane after a rollback (R42, R250): held sends, copies and matrix words of the speculation are gone, with what its copies
left on their channels, windows and holds included (R110). counts says whether the rollback counts against SPECMAX (R40, R43). -/
def rolled (pl : Plane) (sp : Spec) (counts : Bool) : Plane :=
  { pl with
    regs := restored pl sp
    sends := pl.sends.filter (fun sd => !sd.spec)
    window := pl.window.mapIdx (fun k w => if sp.chans.contains k then none else w)
    lock := pl.lock.mapIdx (fun k w => if sp.chans.contains k then [] else w)
    wfault := pl.wfault.mapIdx (fun k w => if sp.chans.contains k then none else w)
    hold := pl.hold.mapIdx (fun k w => if sp.chans.contains k then none else w)
    chan := pl.chan.map (fun l => l.filter (fun c => !c.spec))
    mx := pl.mx.filter (fun m => !m.spec)
    askIds := pl.askIds.filter (fun i => decide (i < sp.firstOp))
    spec := none
    exiting := none
    rollbacks := if counts then pl.rollbacks + 1 else pl.rollbacks
    releasing := pl.releasing ++ [{ number := sp.number, toSend := sp.vaults, waiting := [] }] }

/-- Whether a request belongs to the open speculation of plane p. -/
def ReqSt.isUnder (q : ReqSt) (p : Nat) : Bool := q.under && decide (q.req.plane = p)

/-- The requests of a tile after a rollback of plane p: a read of the speculation that has left is answered to nobody, and one
that has not is gone (R250). -/
def rolledReqs (reqs : List ReqSt) (p : Nat) : List ReqSt :=
  (reqs.filter (fun q => q.sent || !q.isUnder p)).map (fun q => if q.isUnder p then { q with dropped := true } else q)

/-- The operations that wait for a DUAL partner's, after a rollback of plane p: a probe or a question of the speculation is gone
(R250, R252). -/
def rolledDual (l : List (Nat × Nat × DualOp)) (p first : Nat) : List (Nat × Nat × DualOp) :=
  l.filter (fun e => decide (e.1 ≠ p) || (match e.2.2 with
    | .probe _ id _ => decide (id < first)
    | .ask a => decide (a.id < first)
    | _ => true))

/-- The requests of a tile after a commit of plane p: they are ordinary ones, and a read that met a full filter may go (R123). -/
def committedReqs (reqs : List ReqSt) (p : Nat) : List ReqSt :=
  reqs.map (fun q => if q.isUnder p then { q with under := false, full := false } else q)

/-- The ARRIVEs that copies made during a speculation are signalled after its end (R229). -/
def lateArrives (s : State) (r p : Nat) : State :=
  let l := (s.plane r p).arrWait
  l.foldl (fun s n => arriveAt s r p n) (s.modPlane r p (fun pl => { pl with arrWait := [] }))

/-- Rolls back the open speculation of a plane (R42); nothing while none is open or its commit drain is under way. -/
def rollbackOne (s : State) (r p : Nat) (counts : Bool) : State :=
  match (s.plane r p).spec with
  | none => s
  | some sp =>
    if sp.committing then s
    else
      let s := s.modTile r (fun t =>
        { t.setPl p (rolled (t.pl p) sp counts).fire with reqs := rolledReqs t.reqs p,
                                                          dualq := rolledDual t.dualq p sp.firstOp })
      mxKick (pumpRelease (lateArrives s r p) r p) r p

/-- The plane of a tile that holds a task of a launch with an index. -/
def planeOfTask (t : Tile) (launch index : Nat) : Option Nat :=
  if t.plane0.state ≠ 0 ∧ t.plane0.task.launch = launch ∧ t.plane0.task.index = index then some 0
  else if t.plane1.state ≠ 0 ∧ t.plane1.task.launch = launch ∧ t.plane1.task.index = index then some 1
  else none

/-- The tile and plane that hold a DUAL task's other copy (R46). -/
def partnerOf (s : State) (r p : Nat) : Option (Nat × Nat) :=
  let k := (s.plane r p).task
  if k.dual then (planeOfTask (s.tile k.partner) k.launch k.index).map (fun q => (k.partner, q)) else none

/-- Rolls back a plane's speculation, and its DUAL partner's (R46). -/
def rollback (s : State) (r p : Nat) (counts : Bool) : State :=
  let s := rollbackOne s r p counts
  match partnerOf s r p with
  | some (r2, p2) => rollbackOne s r2 p2 counts
  | none => s

/-- Whether a commit drain is under way in a plane of a tile. -/
def Tile.drains (t : Tile) : Bool := t.plane0.drains || t.plane1.drains

/-- Rolls back whatever speculation is open at a tile, for a cause that takes the tile from its program: a pre-emption, a heartbeat
miss or a mismatch (R45, R292). -/
def rollPlanes (s : State) (r : Nat) : State := rollback (rollback s r 0 true) r 1 true

/-- The tree of group n has completed a number of phases: a speculation that awaits no more begins its commit (R44). -/
def beginCommit (s : State) (r p n done : Nat) : State :=
  match (s.plane r p).spec with
  | none => s
  | some sp =>
    if sp.group = n ∧ sp.awaits ≤ done ∧ sp.committing = false then
      emit (s.modPlane r p (fun pl => { pl with spec := some { sp with committing := true } })) (.escrowDrainEnd r p)
    else s

/-- Drains lines of escrow to the tile store, in order (R44, R110); what a race had left open in those granules is settled. -/
def drainEscrow (s : State) (r : Nat) (lines : List (Nat × NMap Byte)) : State :=
  let s := lines.foldl (fun s l => l.2.foldl (fun s b => { s with mem := memPut s.mem (tsAddr r (64 * l.1 + b.1)) b.2 }) s) s
  s.modTile r (fun t => { t with stale := t.stale.filter (fun e =>
    !(lines.any (fun l => decide (l.1 = e.gran / 4) && l.2.any (fun b => decide ((64 * l.1 + b.1) / 16 = e.gran))))) })

/-- The accumulators with the shadows in their places (R44). -/
def takeShadows (r : Regs) (sh : NMap Acc) : Regs := { r with acc := r.acc.mapIdx (fun k a => ngetD sh k a) }

/-- A plane after its commit (R44): shadows are accumulators, COMMITS counts it, held sends may go, copies and matrix words
go on as ordinary ones, and the vaults touched have release flits to come. -/
def committed (pl : Plane) (sp : Spec) : Plane :=
  let r := takeShadows pl.regs sp.shadow
  { pl with
    regs := { r with specst := bumpSpecst r.specst 16 }
    sends := pl.sends.map (fun sd => { sd with spec := false })
    chan := pl.chan.map (fun l => l.map (fun c => { c with spec := false }))
    mx := pl.mx.map (fun m => { m with spec := false })
    spec := none
    rollbacks := 0
    releasing := pl.releasing ++ [{ number := sp.number, toSend := sp.vaults, waiting := [] }] }

/-- Whether a packet's vectors are old-phase for group n and awaited phase P (R38). -/
def oldPhase (mv pv n : Nat) (phase : Bool) : Bool := mv.testBit n && decide (pv.testBit n = phase)

/-- A delivery with vectors mv and pv writes n bytes at a physical address: an old-phase one into a tracked line rolls back
the plane's speculation (R42). -/
def deliveryConflict (s : State) (r p mv pv a n : Nat) : State :=
  match (s.plane r p).spec with
  | none => s
  | some sp =>
    if oldPhase mv pv sp.group sp.phase && sp.tracked.any (fun l => sameLine a n (64 * l) 64) then rollback s r p true else s

end Sys2Proof.Machine
end

