-- ==== Sys2Proof/Machine/Message.lean ====
section
/-! DEFINITION. The message and matching engines (spec/04_messages.md): groups, streams, the till, matching, delivery,
settlement, refusal and completion. -/

namespace Sys2Proof.Machine

/-! ## Groups (R70) -/

/-- The active job of a number on a package (log entry 17). -/
def State.jobAt (s : State) (num pkg : Nat) : Option Job :=
  s.jobs.find? (fun j => decide (j.num = num ∧ j.pkg = pkg) && !j.fin)

/-- Whether a rank is a compute tile of a job's partition on its package: a member of group 0. -/
def jobTile (s : State) (job rank : Nat) : Bool :=
  decide (epOf rank < 0x400) &&
    match s.jobAt job (pkgOf rank) with
    | some j => decide (s.partOf rank = some j.part)
    | none => false

/-- The 4-byte numbers of a byte list. -/
def words4 (b : List Byte) : List Nat := (List.range (b.length / 4)).map (fun i => leNat ((b.drop (4 * i)).take 4))

/-- The ranks that entry g of a job's group table lists, read through the job's partition of a package (R302), with the state that
the reads leave. A table that cannot be read lists none (log entry 18). -/
def readGroup (s : State) (pkg part groupva g : Nat) : List Nat × State :=
  match schedRead s pkg part (groupva + 8 * g) 8 with
  | .error e => ([], e.2)
  | .ok (b, s) =>
    match schedRead s pkg part (leNat b % 2 ^ 48) (4 * (leNat b / 2 ^ 48)) with
    | .error e => ([], e.2)
    | .ok (b, s) => (words4 b, s)

/-- The groups of a job's table that list a rank, as JOBRUN finds them: they do not change while the job runs (R70). -/
def readGroups (s : State) (pkg part groupva : Nat) : NMap (List Nat) × State :=
  ((List.range 256).drop 1).foldl (fun x g =>
    let y := readGroup x.2 pkg part groupva g
    (if y.1 = [] then x.1 else x.1 ++ [(g, y.1)], y.2)) ([], s)

/-- The ranks of group g of a job, as its package has them. -/
def groupRanks (s : State) (job pkg g : Nat) : List Nat :=
  ((s.jobAt job pkg).map (fun j => ngetD j.groups g [])).getD []

/-- Whether a rank is a member of group g of a job, as package pkg reads its table. -/
def isMember (s : State) (job pkg g rank : Nat) : Bool :=
  if g = 0 then jobTile s job rank else (groupRanks s job pkg g).contains rank

/-- The members of a group, in ascending order of rank. -/
def members (s : State) (job pkg g : Nat) : List Nat :=
  if g = 0 then
    (s.jobs.filter (fun j => decide (j.num = job) && !j.fin)).flatMap (fun j =>
      ((List.range 1024).map (fun e => j.pkg * 4096 + e)).filter (jobTile s job))
  else groupRanks s job pkg g

/-- Whether a message of a rank may go to another in a group (R10, R23, R70). -/
def routeOk (s : State) (job part src dst g : Nat) : Bool :=
  decide (epOf dst < 0x400) && isMember s job (pkgOf src) g src && isMember s job (pkgOf src) g dst
    && s.mayReach (pkgOf src) part dst

/-- A header fits a receive (R69). -/
def fits (src tag group : Nat) (h : Msg) : Bool :=
  decide (group = h.group ∧ (src = 0xFFFFFF ∨ src = h.src) ∧ (tag = 0xFFFF ∨ tag = h.tag))

/-! ## Streams (R71, R72) -/

/-- Whether a record is the stream of a job between a tile and a peer. -/
def Stream.isOf (x : Stream) (job tile peer group : Nat) (sending : Bool) : Bool :=
  decide (x.job = job ∧ x.tile = tile ∧ x.peer = peer ∧ x.group = group ∧ x.sending = sending)

/-- A stream; one with no entry stands at its initial state. -/
def State.stream (s : State) (job tile peer group : Nat) (sending : Bool) : Stream :=
  (s.streams.find? (fun x => x.isOf job tile peer group sending)).getD
    { pkg := pkgOf tile, job := job, tile := tile, peer := peer, group := group, sending := sending }

/-- Whether the stream table of a tile can be reached through the translation of its job's partition (R72): both ends of its
256 KiB. A job that is no longer active has none, and its arrivals are answered by rank (log entry 41). -/
def State.streamTable (s : State) (job tile : Nat) : Bool :=
  match s.jobAt job (pkgOf tile) with
  | none => true
  | some j =>
    let a := j.streamva + 262144 * epOf tile
    schedCovers s (pkgOf tile) j.part a 1 true && schedCovers s (pkgOf tile) j.part (a + 262143) 1 true

/-- Whether a stream has an entry, or its tile's table has room for one: 16,384 entries. -/
def State.streamRoom (s : State) (job tile peer group : Nat) (sending : Bool) : Bool :=
  s.streams.any (fun x => x.isOf job tile peer group sending)
    || (decide ((s.streams.filter (fun x => decide (x.job = job ∧ x.tile = tile))).length < 16384) && s.streamTable job tile)

/-- Stores a stream. -/
def State.putStream (s : State) (x : Stream) : State :=
  { s with streams :=
      if s.streams.any (fun y => y.isOf x.job x.tile x.peer x.group x.sending) then
        s.streams.map (fun y => if y.isOf x.job x.tile x.peer x.group x.sending then x else y)
      else s.streams ++ [x] }

/-- How far b lies after a, modulo 2^32. -/
def seqDist (a b : Nat) : Nat := (b + 2 ^ 32 - a) % 2 ^ 32

/-- The stream past the abandoned numbers at its head. -/
def Stream.skip : Nat → Stream → Stream
  | 0, x => x
  | n + 1, x =>
    if x.abandoned.contains x.next then
      Stream.skip n { x with next := (x.next + 1) % 2 ^ 32, abandoned := x.abandoned.erase x.next }
    else x

/-- The stream after its next message is admitted or abandoned. -/
def Stream.advance (x : Stream) : Stream := Stream.skip x.abandoned.length { x with next := (x.next + 1) % 2 ^ 32 }

/-- The stream with a number marked abandoned (R80). -/
def Stream.abandon (x : Stream) (q : Nat) : Stream :=
  let x := { x with refused := x.refused.erase q }
  if x.next = q then x.advance
  else if seqDist x.next q < 2 ^ 31 then { x with abandoned := x.abandoned ++ [q] }
  else x

/-! ## The till and stubs (R78) -/

/-- The lines of a till entry. -/
def tillNeed (len : Nat) : Nat := max 1 ((len + 63) / 64)

/-- Whether till lines are held: by an entry, or by a copy out of the till that has not ended (R77). -/
def Plane.tillHeld (pl : Plane) (k n : Nat) : Bool :=
  pl.uq.any (fun u => decide (u.line < k + n ∧ k < u.line + u.lines))
    || pl.deliveries.any (fun d => decide (d.line < k + n ∧ k < d.line + d.lines))

/-- TillAlloc: the lowest run of free lines. -/
def Plane.tillAlloc (pl : Plane) (len : Nat) : Option Nat :=
  let n := tillNeed len
  (List.range (pl.regs.tillsz / 64 + 1 - n)).find? (fun k => !pl.tillHeld k n)

/-- Whether a stub entry is free: 256. -/
def Plane.stubFree (pl : Plane) : Bool := decide ((pl.uq.filter (fun u => decide (u.lines = 0))).length < 256)

/-- The physical address of a till line. -/
def Plane.tillAddr (pl : Plane) (k : Nat) : Nat := pl.regs.tsbase + pl.regs.tslen - pl.regs.tillsz + 64 * k

/-- Where an arrival went. -/
inductive Placed where
  | matched
  | till
  | stub
  | refused
  | dropped
  deriving DecidableEq, Repr

/-- Stores an arrival as a till entry, or as a stub, or refuses it; must says that a stub is kept even beyond the 256, at
the odd tile of a DUAL pair whose even tile has placed the message (R46). held says that the message comes from the spill queue:
its sender has been answered, so a stub of an eager one keeps its payload (R298, R299). -/
def storeMsg (s : State) (r p : Nat) (m : Msg) (admitted must held : Bool) : Placed × State :=
  let pl := s.plane r p
  let hdr := { m with payload := [] }
  let keep := held && decide (m.proto = 0)
  match (if m.proto = 0 then pl.tillAlloc m.len else none) with
  | some k =>
    let (id, s) := freshId s
    let s := tsStore s r pathN id (pl.tillAddr k) m.payload
    (.till, s.modPlane r p (fun pl =>
      { pl with uq := pl.uq ++ [{ hdr := hdr, line := k, lines := tillNeed m.len, admitted := admitted }] }))
  | none =>
    if pl.stubFree || must then
      (.stub, s.modPlane r p (fun pl =>
        { pl with uq := pl.uq ++ [{ hdr := if keep then m else hdr, admitted := admitted, kept := keep }] }))
    else (.refused, s)

/-! ## Records -/

/-- The record of a receive (R87). -/
def recvRecord (e : Recv) (peer tag status fcode length dlen fwd : Nat) : Quad :=
  RecF.bits { peer := peer, group := e.group, tag := tag, status := status, kind := if e.fwd.isSome then 4 else 3,
              fcode := fcode, length := length, aux := if e.fwd.isSome then fwd else 0, dlen := dlen }

/-- Completes a receive without a match (CANCELLED, NOROUTE, PEERDOWN). -/
def endRecv (s : State) (r p : Nat) (e : Recv) (status : Nat) : State :=
  completeFlag s r p e.flag e.id (recvRecord e 0 0 status 0 0 0 15)

/-- The status of a send whose copies have all ended, and its fault code (R73, R79, R85). Of copies that ended FAULT with
different codes, the first in the order of the destinations gives the code: R85 names none (DESIGN CHOICE, log entry 85). -/
def sendStatus (sd : Send) : Nat × Nat :=
  let fins := sd.copies.filterMap (·.fin)
  let st := ([stFAULT, stPEERDOWN, stNOROUTE, stOVERRUN, stCANCELLED, stSTUBBED].find? (fun c => fins.any (fun f => decide (f.1 = c)))).getD stOK
  let fc := ((fins.find? (fun f => decide (f.1 = st))).map (·.2)).getD 0
  (if st = stOK ∧ sd.bytes < sd.len then stTRUNC else st, fc)

/-- The record of a send (R73, R85, Table 4.5). -/
def sendRecord (myrank : Nat) (sd : Send) : Quad :=
  let st := sendStatus sd
  let bad := (sd.copies.filter (fun c => match c.fin with
    | some f => decide (f.1 ≠ stOK ∧ f.1 ≠ stSTUBBED)
    | none => false)).length
  RecF.bits {
    peer := if sd.kind = 2 then myrank else ((sd.copies.head?).map (·.dst)).getD 0
    group := sd.group
    tag := sd.tag
    status := st.1
    kind := sd.kind
    fcode := st.2
    length := sd.len
    aux := if sd.kind = 6 then sd.acc else 0
    dlen := if sd.kind = 2 then bad else if st.1 = stOK ∨ st.1 = stTRUNC ∨ st.1 = stSTUBBED then sd.bytes else 0 }

/-- Whether every copy of a send has ended; that of a DUAL task ends after its comparison (R46). -/
def Send.done (sd : Send) : Bool :=
  sd.numbered && (sd.paired || decide (sd.twin ≠ 0)) && sd.copies.all (fun c => c.fin.isSome)

/-- Completes the sends of a plane that are done: flags and records, and the receives that forward by them (R86). -/
def Plane.finSends (pl : Plane) : Plane :=
  let l := pl.sends.filter Send.done
  l.foldl (fun pl sd =>
    let pl := match sd.flag with
      | some fn => pl.complete fn sd.id (sendRecord pl.regs.myrank sd)
      | none => pl
    if sd.kind = 4 then
      { pl with deliveries := pl.deliveries.map (fun d => if d.fwd = some sd.id then { d with fwdSt := (sendStatus sd).1 } else d) }
    else pl) { pl with sends := pl.sends.filter (fun sd => !sd.done) }

/-- Completes what is done at a plane; receives whose forward has completed are due. -/
def finSends (s : State) (r p : Nat) : State :=
  let s := s.modPlane r p Plane.finSends
  (s.plane r p).deliveries.foldl (fun s d => if d.fwdSt = 15 then s else emitOnce s (.deliveryComplete r p d.did)) s

/-! ## Sends -/

/-- The plane of a tile that holds a send. -/
def planeOfSend (t : Tile) (id : Nat) : Option Nat :=
  if t.plane0.sends.any (fun sd => decide (sd.id = id)) then some 0
  else if t.plane1.sends.any (fun sd => decide (sd.id = id)) then some 1
  else none

/-- A plane with the send id changed, and with it the partner's of a DUAL pair. -/
def Plane.modSend (pl : Plane) (id : Nat) (f : Send → Send) : Plane :=
  { pl with sends := pl.sends.map (fun sd => if sd.id = id ∨ (sd.twin = id ∧ sd.twin ≠ 0) then f sd else sd) }

/-- Changes a send of the tile of a rank, of a task suspended there, or of the partner of its DUAL task, and completes what
is then done. -/
def withSend (s : State) (rank id : Nat) (f : Send → Send) : State :=
  match planeOfSend (s.tile rank) id with
  | some p =>
    let tw := partnerOf s rank p
    let s := finSends (s.modPlane rank p (fun pl => pl.modSend id f)) rank p
    match tw with
    | some (r2, p2) => finSends (s.modPlane r2 p2 (fun pl => pl.modSend id f)) r2 p2
    | none => s
  | none =>
    { s with suspended := s.suspended.map (fun u =>
        if u.rank = rank then { u with plane := (u.plane.modSend id f).finSends } else u) }

/-- Changes the copy of a send for a destination. -/
def onCopy (dst : Nat) (f : SendCopy → SendCopy) (sd : Send) : Send :=
  { sd with copies := sd.copies.map (fun c => if c.dst = dst ∧ c.fin = none then f c else c) }

/-- A copy that has ended. -/
def SendCopy.finish (st fc : Nat) (c : SendCopy) : SendCopy := { c with settled := true, fin := some (st, fc) }

/-- The header of a send's copy (Table 4.1). -/
def mkMsg (pl : Plane) (sd : Send) (c : SendCopy) (proto : Nat) : Msg :=
  { src := pl.regs.myrank, dst := c.dst, group := sd.group, tag := sd.tag, len := sd.bytes, seq := c.seq, proto := proto,
    mv := sd.mv, pv := sd.pv, job := pl.task.job, sid := sd.id, query := false, retry := c.retry,
    payload := if proto = 0 then sd.payload else [] }

/-- Sends the abandon header of a copy's number (R80). -/
def emitAbandon (s : State) (r p : Nat) (sd : Send) (c : SendCopy) : State :=
  if sd.twin ≠ 0 then s else emitNet s r c.dst 0 (.abandon (mkMsg (s.plane r p) sd c 2))

/-- Gives the copies of a send their stream numbers; one that may not go completes NOROUTE or STREAMFULL (R70, R72). -/
def numberSend (s : State) (r p : Nat) (sd : Send) : State :=
  let k := (s.plane r p).task
  let me := (s.plane r p).regs.myrank
  let x := sd.copies.foldl (fun (a : State × List SendCopy) c =>
    if c.fin.isSome then (a.1, a.2 ++ [c])
    else if !routeOk a.1 k.job k.part me c.dst sd.group then (a.1, a.2 ++ [c.finish stNOROUTE 0])
    else if !a.1.streamRoom k.job me c.dst sd.group true then (a.1, a.2 ++ [c.finish stFAULT fcSTREAMFULL])
    else
      let st := a.1.stream k.job me c.dst sd.group true
      (a.1.putStream { st with next := (st.next + 1) % 2 ^ 32 }, a.2 ++ [{ c with seq := st.next }])) (s, [])
  withSend x.1 r sd.id (fun sd => { sd with numbered := true, copies := x.2 })

/-- Gives its stream numbers to every send of a plane that has none, in the order of issue (R71, R264): a held one of a speculation has
not issued yet, and of a DUAL pair the even tile's is the one that goes out (R46). -/
def numberSends (s : State) (r p : Nat) : State :=
  if (s.plane r p).task.dual && decide (r % 2 = 1) then s
  else
    ((s.plane r p).sends.filter (fun sd => !sd.spec && !sd.numbered)).foldl (fun s sd => numberSend s r p sd) s

/-- n bytes of a send's payload from byte i on, as the engine reads them now: from the buffer, or from the stage of an MSEND or what a
forward has on hand (R75, R86, R264). -/
def sendBytes (s : State) (r p : Nat) (sd : Send) (i n : Nat) : Except WinSt (List Byte) :=
  if sd.kind = 4 ∨ sd.kind = 6 then .ok ((sd.payload.drop i).take n) else engineRead s r p pathN 4 (sd.addr + i) n

/-- The reading of n bytes of a send's payload has been seen by the message path. -/
def sendSeen (s : State) (r : Nat) (sd : Send) (i n : Nat) : State :=
  if sd.kind = 4 ∨ sd.kind = 6 then s else tsSeen s r pathN (sd.addr + i) n

/-- The engine's reading of a send's buffer for its transmission, or for the comparison of a DUAL pair, when nothing holds it (R75). A
window that a faulted copy left open ends the send FAULT ENGFAULT (R96). -/
def captureSend (s : State) (r p : Nat) (sd : Send) : State :=
  match engineRead s r p pathN 4 sd.addr sd.bytes with
  | .error (.faulted _) =>
    let s := sd.copies.foldl (fun s c => if sd.numbered && c.fin.isNone then emitAbandon s r p sd c else s) s
    withSend s r sd.id (fun sd =>
      { sd with numbered := true, copies := sd.copies.map (fun c => if c.fin.isSome then c else c.finish stFAULT fcENGFAULT) })
  | .error _ => s
  | .ok b =>
    (tsSeen s r pathN sd.addr sd.bytes).modPlane r p (fun pl =>
      { pl with sends := pl.sends.map (fun e => if e.id = sd.id then { e with payload := b, held := true } else e) })

/-- Whether the copy c of a send comes before the copy d of another in their stream: by their numbers, when both have them; one
that has a number comes before one that has none; otherwise the order of issue tells, by earlier. -/
def inFront (e sd : Send) (c d : SendCopy) (earlier : Bool) : Bool :=
  if e.numbered && sd.numbered then decide (c.seq ≠ d.seq ∧ seqDist c.seq d.seq < 2 ^ 31)
  else if sd.numbered then false
  else e.numbered || earlier

/-- Whether an MSEND that comes earlier in a stream of a send has still to send its header (R264). -/
def behindMsend (pl : Plane) (sd : Send) : Bool :=
  let before := (pl.sends.takeWhile (fun e => decide (e.id ≠ sd.id))).map (·.id)
  pl.sends.any (fun e =>
    decide (e.kind = 6 ∧ e.group = sd.group ∧ e.id ≠ sd.id) && e.copies.any (fun c => !c.left && c.fin.isNone
      && sd.copies.any (fun d => decide (d.dst = c.dst) && inFront e sd c d (before.contains e.id))))

/-- Whether a copy of a send may leave now: its queue has room for the payload that goes with an eager header (R74, R139). -/
def mayLeave (s : State) (r : Nat) (sd : Send) (c : SendCopy) : Bool :=
  !c.left && c.fin.isNone && (!sd.eager || queueTakes s r c.dst sd.bytes)

/-- Transmits the copies of a send that have not left: an eager payload with its header, a rendezvous header alone (R74); a copy whose
queue has no room waits (R139). -/
def transmit (s : State) (r p : Nat) (sd : Send) : State :=
  if (sd.eager && !sd.held) || behindMsend (s.plane r p) sd then s
  else
    let x := sd.copies.foldl (fun (a : State × List SendCopy) c =>
      if mayLeave a.1 r sd c then
        (emitNet a.1 r c.dst (if sd.eager then sd.bytes else 0)
          (.messageArrival (mkMsg (a.1.plane r p) sd c (if sd.eager then 0 else 1))), a.2 ++ [{ c with left := true }])
      else (a.1, a.2 ++ [c])) (s, [])
    x.1.modPlane r p (fun pl => pl.modSend sd.id (fun sd => { sd with copies := x.2 }))

/-- The send of a number at a plane. -/
def Plane.send (pl : Plane) (id : Nat) : Option Send := pl.sends.find? (fun sd => decide (sd.id = id))

/-- Runs a step on the send of a number, if it is still there. -/
def onSend (s : State) (r p id : Nat) (f : State → Send → State) : State :=
  match (s.plane r p).send id with
  | some sd => f s sd
  | none => s

/-- Whether the engine is to read a send's buffer now: an eager one's, when a copy may leave, or a DUAL task's for the comparison
(R46, R75), unless no copy may go at all (R10, R70). -/
def mustRead (s : State) (r p : Nat) (sd : Send) : Bool :=
  let k := (s.plane r p).task
  !sd.spec && !sd.held && decide (sd.kind ≠ 6 ∧ sd.kind ≠ 4) &&
    (if sd.paired then sd.eager && !behindMsend (s.plane r p) sd && sd.copies.any (mayLeave s r sd)
     else sd.copies.any (fun c => c.fin.isNone && (sd.numbered || routeOk s k.job k.part (s.plane r p).regs.myrank c.dst sd.group)))

/-- Moves one send on: its buffer is read, and its copies leave. -/
def pumpSend (s : State) (r p id : Nat) : State :=
  let s := onSend s r p id (fun s sd => if mustRead s r p sd then captureSend s r p sd else s)
  onSend s r p id (fun s sd => if sd.spec || !sd.paired || !sd.ready then s else transmit s r p sd)

/-- Whether a send still waits for the reading of its buffer. -/
def readWaits (s : State) (r p id : Nat) : Bool := ((s.plane r p).send id).any (mustRead s r p)

/-- Whether a send has an eager payload that has still to enter a send queue: one that has been issued holds the later ones back
(R272). -/
def Send.unsentEager (sd : Send) : Bool := sd.eager && !sd.spec && sd.copies.any (fun c => !c.left && c.fin.isNone)

/-- Moves sends of a plane on, in the order of issue: held says that an earlier eager payload has not entered its queue, and no later
one is read before it (R272). -/
def pumpList (r p : Nat) : List Nat → Bool → State → State
  | [], _, s => s
  | id :: l, held, s =>
    let s := if held && ((s.plane r p).send id).any (·.eager) then s else pumpSend s r p id
    pumpList r p l (held || ((s.plane r p).send id).any Send.unsentEager) s

/-- Moves every send of a plane on. -/
def pumpSends (s : State) (r p : Nat) : State :=
  finSends (pumpList r p ((s.plane r p).sends.map (·.id)) false (numberSends s r p)) r p

/-- Moves every send and request of a tile on: something that held them back has ended. -/
def pumpTile (s : State) (r : Nat) : State := pumpReqs (pumpSends (pumpSends s r 0) r 1) r

/-! ## Receives -/

/-- An answer to the sender of an arrival at its destination (R79). Only the tile that a message names answers it. -/
def answer (s : State) (r : Nat) (m : Msg) (fin : Bool) (st fc : Nat) : State :=
  if r ≠ m.dst then s
  else emitNet s m.dst m.src 0 (.sendAcknowledgement
    { rank := m.src, job := m.job, sid := m.sid, dst := m.dst, fin := fin, status := st, fcode := fc })

/-- The forwarding send of a RECVF that has matched (R86): it waits for the bytes that land. -/
def newForward (s : State) (r p : Nat) (e : Recv) (h : Msg) (want rt : Nat) : State :=
  let k := (s.plane r p).task
  let sd : Send := {
    id := e.id, kind := 4, flag := none, group := rt / 2 ^ 24 % 256, tag := h.tag, len := want, bytes := want, addr := 0,
    copies := [{ dst := rt % 2 ^ 24, seq := 0 }], eager := decide (want ≤ k.eager), ready := false, paired := !k.dual,
    mv := e.mv, pv := e.pv }
  let s := s.modPlane r p (fun pl => { pl with sends := pl.sends ++ [sd] })
  let s := if k.dual then pushDual s r p (.send e.id) else s
  pumpSends s r p

/-- How a matched message's bytes come. -/
inductive Source where
  | here (payload : List Byte) (ack stubbed : Bool)
  | till (line lines : Nat)
  | pull
  deriving DecidableEq, Repr

/-- Makes the step due that moves a delivery on. The lines of a pull come by themselves. -/
def pushDelivery (s : State) (r p did : Nat) : State :=
  match (s.plane r p).deliveries.find? (fun d => decide (d.did = did)) with
  | none => s
  | some d =>
    if d.pulling then s
    else if d.data = [] then emitOnce s (.deliveryComplete r p did)
    else if d.piped then s
    else emitOnce s (.payloadLineLands r p did)

/-- The sender of an eager message is answered when its bytes stand in the matched buffer, whatever a forward has still to do
(R37, R79). -/
def ackPlaced (s : State) (r p : Nat) (d : Delivery) : State :=
  answer (s.modPlane r p (fun pl =>
    { pl with deliveries := pl.deliveries.map (fun e => if e.did = d.did then { e with ack := false } else e) })) r d.hdr true stOK 0

/-- Replaces a delivery. -/
def putDelivery (s : State) (r p : Nat) (d : Delivery) : State :=
  s.modPlane r p (fun pl => { pl with deliveries := pl.deliveries.map (fun e => if e.did = d.did then d else e) })

/-- Bytes of a pull leave for a delivery, as the steps in which its lines land: a flit with each, through the queue of the peer (R77,
R84, R139, R147). With the last of them the pull is over; that it brings none more travels too (R273). -/
def pipe (s : State) (src r p : Nat) (d : Delivery) (b : List Byte) (last : Bool) : State :=
  let a := d.recv.addr + d.got + d.data.length
  let s := putDelivery s r p { d with data := d.data ++ b, pulling := !last }
  let n := if b = [] then 0 else (a % 64 + b.length + 63) / 64
  let s := (List.range n).foldl (fun s i => emitNet s src r (if 64 * i < b.length then 64 else 0) (.payloadLineLands r p d.did)) s
  if last && decide (b = []) then emitNet s src r 0 (.deliveryComplete r p d.did) else s

/-- Deliver (R77): starts the delivery of a message to a receive. A stub of a tile that is fenced completes PEERDOWN
(R84). -/
def deliver (s : State) (r p : Nat) (e : Recv) (h : Msg) (src : Source) : State :=
  let want := min h.len e.cap
  let (did, s) := freshId s
  let pl := s.plane r p
  let twin := pl.twinData.find? (fun m => decide (m.src = h.src ∧ m.sid = h.sid))
  let d : Delivery := { did := did, recv := e, hdr := { h with payload := [] }, want := want, fwd := e.fwd.map (fun _ => e.id) }
  let d := match src with
    | .here b a st => { d with data := b.take want, ack := a, stubbed := st }
    | .till k n => { d with data := tsBytes s r p pathN (pl.tillAddr k) want, line := k, lines := if want = 0 then 0 else n }
    | .pull => { d with pulling := true, piped := true, stubbed := decide (h.proto = 0) }
  if d.pulling && twin.isNone && (s.tile h.src).fenced then
    completeFlag s r p e.flag e.id (recvRecord e h.src h.tag stPEERDOWN 0 h.len 0 15)
  else
    let s := s.modPlane r p (fun pl => { pl with deliveries := pl.deliveries ++ [d] })
    let s := match e.fwd with
      | some rt => newForward s r p e h want rt
      | none => s
    let s := if d.ack ∧ d.data = [] then ackPlaced s r p d else s
    if d.pulling then
      match twin with
      | some m =>
        pipe (s.modPlane r p (fun pl => { pl with twinData := pl.twinData.filter (fun x => decide (x ≠ m)) })) h.src r p d
          (m.data.take want) m.whole
      | none =>
        if r = h.dst then
          emitNet s r h.src 0 (.pullRequest { rank := h.src, job := h.job, sid := h.sid, dst := h.dst, want := want, did := did })
        else s
    else pushDelivery s r p did

/-- The first posted receive that a header fits, taken from the queue. -/
def takeRecv (s : State) (r p : Nat) (h : Msg) : Option (Recv × State) :=
  match (s.plane r p).prq.find? (fun e => fits e.src e.tag e.group h) with
  | some e => some (e, s.modPlane r p (fun pl => { pl with prq := pl.prq.erase e }))
  | none => none

/-- How the bytes of an entry of the unexpected queue come. -/
def uqSource (u : Uq) : Source :=
  if u.lines ≠ 0 then .till u.line u.lines else if u.kept then .here u.hdr.payload false true else .pull

/-- Admit for an arrival (R76). held says that it comes from the spill queue, so that its sender has been answered. -/
def takeIn (s : State) (r p : Nat) (m : Msg) (must held : Bool) : Placed × State :=
  match takeRecv s r p m with
  | some (e, s) => (.matched, deliver s r p e m (if m.proto = 0 then .here m.payload (!held) false else .pull))
  | none =>
    storeMsg s r p m true must held

/-- Admits the stored messages of a stream whose turn has come (R71): each meets the posted receives, or takes the tail of
the queue. -/
def cascade : Nat → State → Nat → Nat → Nat → Nat → State
  | 0, s, _, _, _, _ => s
  | n + 1, s, r, p, src, g =>
    let pl := s.plane r p
    let x := s.stream pl.task.job r src g false
    match pl.uq.find? (fun u => !u.admitted && decide (u.hdr.src = src ∧ u.hdr.group = g ∧ u.hdr.seq = x.next)) with
    | none => s
    | some u =>
      let s := (s.modPlane r p (fun pl => { pl with uq := pl.uq.erase u })).putStream x.advance
      let s := match takeRecv s r p u.hdr with
        | some (e, s) => deliver s r p e u.hdr (uqSource u)
        | none => s.modPlane r p (fun pl => { pl with uq := pl.uq ++ [{ u with admitted := true }] })
      cascade n s r p src g

/-- Admits every stored message whose turn has come while the task was out. -/
def cascadeAll (s : State) (r p : Nat) : State :=
  ((s.plane r p).uq.filter (fun u => !u.admitted)).foldl (fun s u =>
    cascade ((s.plane r p).uq.length + 1) s r p u.hdr.src u.hdr.group) s

/-- Whether an earlier message of a stream stands refused (R80). -/
def Stream.standsRefused (x : Stream) (seq : Nat) : Bool := x.refused.any (fun q => decide (q ≠ seq ∧ seqDist q seq < 2 ^ 31))

/-- An arrival in its stream at the tile r (R71, R76, R78, R80). -/
def enter (s : State) (r p : Nat) (m : Msg) (must held : Bool) : Placed × State :=
  if m.query then takeIn s r p m must held
  else
    let x := s.stream m.job r m.src m.group false
    if x.standsRefused m.seq && !must && !held then
      (.refused, s.putStream { x with refused := x.refused.erase m.seq ++ [m.seq] })
    else
      let d := seqDist x.next m.seq
      if 2 ^ 31 ≤ d then (.dropped, s)
      else
        match (if d = 0 then takeIn s r p m must held else storeMsg s r p m false must held) with
        | (.refused, _) => (.refused, s.putStream { x with refused := x.refused.erase m.seq ++ [m.seq] })
        | (pc, s) =>
          let x := { x with refused := x.refused.erase m.seq }
          if d = 0 then (pc, cascade ((s.plane r p).uq.length + 1) (s.putStream x.advance) r p m.src m.group)
          else (pc, s.putStream x)

/-- The plane of a tile whose resident task belongs to a job (R72). -/
def hostPlane (t : Tile) (job : Nat) : Option Nat :=
  let ok := fun (pl : Plane) => decide (1 ≤ pl.state ∧ pl.state ≤ 4 ∧ pl.task.job = job)
  if ok t.plane0 then some 0 else if ok t.plane1 then some 1 else none

/-- The bytes that an entry takes in a spill queue of 256 KiB (Table 16.6): 32 and its payload (log entry 19). -/
def spillCost : SpillE → Nat
  | .msg m => 32 + m.payload.length
  | .pull _ => 32

/-- Whether a spill queue has room for an arrival. -/
def spillRoom (l : List SpillE) (m : Msg) : Bool :=
  decide ((l.map spillCost).sum + 32 + m.payload.length ≤ 262144)

/-- The bytes of an entry of a spill queue: 32 that no rule lays out, and a message's payload (log entry 19). -/
def spillBytes (tick : Nat) (e : SpillE) : List Byte :=
  (List.range 32).map (Config.recordByte tick) ++ (match e with
    | .msg m => m.payload
    | .pull _ => [])

/-- The offset in a plane's spill queue at which the next entry is written: the queue is a ring of 256 KiB (log entry 19). -/
def Plane.queueTail (pl : Plane) : Nat := (pl.queueHead + (pl.spillq.map spillCost).sum) % 262144

/-- Writes bytes of a plane's spill queue from an offset on, around its end (R298). What cannot be written is lost (log entry 19). -/
def queueWrite (s : State) (r : Nat) (pl : Plane) (off : Nat) (bs : List Byte) : State :=
  let n := min bs.length (262144 - off)
  let s := (spillWrite s r pl (pl.queueAt + off) (bs.take n)).1
  if n < bs.length then (spillWrite s r pl pl.queueAt (bs.drop n)).1 else s

/-- Reads n bytes of a plane's spill queue from an offset on, around its end, or the fault that is met (R296). -/
def queueRead (s : State) (r : Nat) (pl : Plane) (off n : Nat) : Except (Nat × State) (List Byte × State) :=
  let k := min n (262144 - off)
  match spillRead s r pl (pl.queueAt + off) k with
  | .error e => .error e
  | .ok (b, s) =>
    if k = n then .ok (b, s)
    else
      match spillRead s r pl pl.queueAt (n - k) with
      | .error e => .error e
      | .ok (c, s) => .ok (b ++ c, s)

/-- Appends an entry to the spill queue of a plane (R298). -/
def spillTo (s : State) (r p : Nat) (e : SpillE) : State :=
  let pl := s.plane r p
  (queueWrite s r pl pl.queueTail (spillBytes s.tick e)).modPlane r p (fun pl => { pl with spillq := pl.spillq ++ [e] })

/-- Appends an entry to the spill queue of a suspended task (R298). -/
def spillSusp (s : State) (u : Susp) (e : SpillE) : State :=
  let s := queueWrite s u.rank u.plane u.plane.queueTail (spillBytes s.tick e)
  { s with suspended := s.suspended.map (fun v =>
      if v = u then { v with plane := { v.plane with spillq := v.plane.spillq ++ [e] } } else v) }

/-- A refusal goes back to the sender (R80). -/
def refuse (s : State) (m : Msg) : State :=
  emitNet s m.dst m.src 0 (.refusalArrival
    { rank := m.src, job := m.job, sid := m.sid, dst := m.dst, fin := false, status := 0, fcode := 0 })

/-- An arrival placed in a spill queue settles there (R298). -/
def spillAnswer (s : State) (r : Nat) (m : Msg) : State := answer s r m (decide (m.proto = 0)) stOK 0

/-- A message joins the spill queues of the suspended halves of a task that a test names (R298, R300). -/
def spillTwin (s : State) (k : Task) (f : Susp → Bool) (m : Msg) : State :=
  (s.suspended.filter (fun v => decide (v.plane.task.launch = k.launch ∧ v.plane.task.index = k.index) && f v)).foldl
    (fun s u => spillSusp s u (.msg m)) s

/-- Hands a DUAL tile the copy of an arrival that its partner has placed (R46): to its spill queue while it is diverted. -/
def twinPut (s : State) (r p : Nat) (m : Msg) : State :=
  if (s.plane r p).diverted then spillTo s r p (.msg m)
  else (enter s r p m true false).2

/-- Hands the DUAL partner of a plane its copy of an arrival (R46), also where the partner's half of the task is suspended (R300). -/
def twinEnter (s : State) (r p : Nat) (m : Msg) : State :=
  match partnerOf s r p with
  | some (r2, p2) => twinPut s r2 p2 m
  | none =>
    let k := (s.plane r p).task
    if k.dual then spillTwin s k (fun v => decide (v.rank = k.partner)) m else s

/-- Notes that a message of a stream stands refused at the receiving tile (R80). -/
def markRefused (s : State) (r : Nat) (m : Msg) (b : Bool) : State :=
  if m.query then s
  else
    let x := s.stream m.job r m.src m.group false
    s.putStream { x with refused := x.refused.erase m.seq ++ (if b then [m.seq] else []) }

/-- An arrival for a spill queue (R298, R80): f appends it. It is refused when the queue is full, or an earlier message of its
stream stands refused. -/
def spillArrive (s : State) (r : Nat) (q : List SpillE) (m : Msg) (f : State → State) : State :=
  if spillRoom q m && (m.query || !(s.stream m.job r m.src m.group false).standsRefused m.seq) then
    spillAnswer (f (markRefused s r m false)) r m
  else refuse (markRefused s r m true) m

/-- A message header arrives (R72, R76, R298). -/
def arriveMsg (s : State) (m : Msg) : State :=
  let r := m.dst
  if (s.tile r).fenced then answer s r m true stPEERDOWN 0
  else if !m.query && !s.streamRoom m.job r m.src m.group false then answer s r m true stFAULT fcSTREAMFULL
  else
    match hostPlane (s.tile r) m.job with
    | some p =>
      if (s.plane r p).diverted then
        spillArrive s r (s.plane r p).spillq m (fun s => twinEnter (spillTo s r p (.msg m)) r p m)
      else
        match enter s r p m false false with
        | (.refused, s) => refuse s m
        | (.dropped, s) => s
        | (.till, s) => twinEnter (answer s r m true stOK 0) r p m
        | (.stub, s) => twinEnter (answer s r m false 0 0) r p m
        | (.matched, s) => twinEnter (if m.proto = 0 then s else answer s r m false 0 0) r p m
    | none =>
      match s.suspended.find? (fun u => decide (u.rank = r ∧ u.plane.task.job = m.job)) with
      | some u =>
        let k := u.plane.task
        spillArrive s r u.plane.spillq m (fun s =>
          let s := spillTwin s k (fun _ => true) m
          if k.dual then
            match planeOfTask (s.tile k.partner) k.launch k.index with
            | some p2 => twinPut s k.partner p2 m
            | none => s
          else s)
      | none =>
        let s := if m.query then s else s.putStream ((s.stream m.job r m.src m.group false).abandon m.seq)
        answer s r m true stNOROUTE 0

/-- An abandon header arrives: the number is marked, and later messages are admitted (R80). The stream belongs to the job,
whether or not a task of it is there. -/
def abandonAt (s : State) (r : Nat) (m : Msg) : State :=
  if !s.streamRoom m.job r m.src m.group false then s
  else
    let s := s.putStream ((s.stream m.job r m.src m.group false).abandon m.seq)
    match hostPlane (s.tile r) m.job with
    | some p => cascade ((s.plane r p).uq.length + 1) s r p m.src m.group
    | none => s

/-- The DUAL partner's tile of the task of a job at a tile. -/
def twinTile (s : State) (r job : Nat) : Option Nat :=
  (hostPlane (s.tile r) job).bind (fun p => (partnerOf s r p).map (·.1))

/-! ## Delivery (R77, R82, R86) -/

/-- A delivery of a plane. -/
def Plane.delivery (pl : Plane) (did : Nat) : Option Delivery := pl.deliveries.find? (fun d => decide (d.did = did))

/-- The forward of a receive takes what has landed and goes on (R86). -/
def releaseForward (s : State) (r p : Nat) (d : Delivery) : State :=
  let s := s.modPlane r p (fun pl =>
    { pl with sends := pl.sends.map (fun sd => if sd.id = d.recv.id ∧ sd.kind = 4 then
        { sd with ready := true, held := true, bytes := sd.payload.length } else sd) })
  pumpSends s r p

/-- Drops the forward of a receive that failed before a byte landed; its number is abandoned (R80, R86). -/
def dropForward (s : State) (r p : Nat) (d : Delivery) : State :=
  onSend s r p d.recv.id (fun s sd =>
    let s := sd.copies.foldl (fun s c => if sd.numbered && c.fin.isNone then emitAbandon s r p sd c else s) s
    s.modPlane r p (fun pl => { pl with sends := pl.sends.filter (fun e => decide (e.id ≠ sd.id)) }))

/-- Whether till lines or a stub entry that became free may let in the head of a spill queue (R299). -/
def wakeSpill (s : State) (r p : Nat) : State :=
  if (s.plane r p).diverted && (s.plane r p).readmit && !(s.plane r p).spillq.isEmpty then emitOnce s (.spillHeadReadmit r p) else s

/-- Ends a delivery with a status: the record, the flag, the answer to an eager sender, and the till lines (R77, R82). -/
def closeDelivery (s : State) (r p : Nat) (d : Delivery) (st fc fwd : Nat) : State :=
  let s := s.modPlane r p (fun pl => { pl with deliveries := pl.deliveries.filter (fun e => decide (e.did ≠ d.did)) })
  let s := completeFlag s r p d.recv.flag d.recv.id (recvRecord d.recv d.hdr.src d.hdr.tag st fc d.hdr.len d.got fwd)
  let s := if d.ack then answer s r d.hdr true stOK 0 else s
  wakeSpill s r p

/-- Ends a delivery that cannot go on, with PEERDOWN or FAULT: DLEN is what has landed (R84, R86). -/
def failDelivery (s : State) (r p : Nat) (d : Delivery) (st fc : Nat) : State :=
  let d := { d with fin := some (st, fc), data := [], pulling := false, lines := 0 }
  if d.fwd.isSome ∧ d.got ≠ 0 then releaseForward (putDelivery s r p d) r p d
  else closeDelivery (dropForward s r p d) r p d st fc 15

/-- The status of a delivery that has landed (R79, R82); TRUNC too where a forward carried fewer bytes than its header told
(R86). -/
def Delivery.status (d : Delivery) : Nat :=
  if d.recv.cap < d.hdr.len ∨ d.got < d.want then stTRUNC else if d.stubbed then stSTUBBED else stOK

/-- Completes a delivery once its bytes have landed and its forward has completed (R77, R86), or ends one whose pull the sender could
not serve. -/
def finishDelivery (s : State) (r p : Nat) (d : Delivery) : State :=
  if d.fin.isSome ∧ d.pulling = true then failDelivery s r p d (d.fin.getD (0, 0)).1 (d.fin.getD (0, 0)).2
  else if d.fin.isNone ∧ (d.pulling = true ∨ d.data ≠ []) then s
  else
    let st := d.fin.getD (d.status, 0)
    if d.fwd.isNone then closeDelivery s r p d st.1 st.2 15
    else if d.fwdSt ≠ 15 then closeDelivery s r p d st.1 st.2 d.fwdSt
    else releaseForward s r p d

/-- The forward of a receive takes a line that has landed (R86). The header of one that goes by rendezvous leaves with the
first; an eager one's payload leaves with its header, when all of it has landed (R74). -/
def forwardLine (s : State) (r p : Nat) (d : Delivery) (b : List Byte) : State :=
  let s := s.modPlane r p (fun pl => { pl with sends := pl.sends.map (fun sd =>
    if sd.id = d.recv.id ∧ sd.kind = 4 then { sd with payload := sd.payload ++ b, ready := sd.ready || !sd.eager } else sd) })
  if d.fwd.isSome then pumpSends s r p else s

/-- The next bytes of a delivery land: up to the end of a 64-byte line (R77). An old-phase delivery into a tracked line rolls
the speculation back (R42). -/
def landLine (s : State) (r p : Nat) (d : Delivery) : State :=
  let a := d.recv.addr + d.got
  let b := d.data.take (64 - a % 64)
  if d.lines ≠ 0 ∧ draining s r = true then emitOnce s (.payloadLineLands r p d.did)
  else
    match winTile (s.tile r) p a b.length 4 with
    | .wait => if d.piped then emit s (.payloadLineLands r p d.did) else emitOnce s (.payloadLineLands r p d.did)
    | .faulted _ => failDelivery s r p d stFAULT fcENGFAULT
    | .clear =>
      let s := tsStore s r pathN d.recv.id a b
      let rest := d.data.drop b.length
      let s := putDelivery s r p { d with got := d.got + b.length, data := rest, lines := if rest = [] then 0 else d.lines }
      let s := if rest = [] ∧ d.lines ≠ 0 then wakeSpill s r p else s
      let s := forwardLine s r p d b
      let s := if d.ack && rest.isEmpty then ackPlaced s r p d else s
      pushDelivery (deliveryConflict s r p d.hdr.mv d.hdr.pv a b.length) r p d.did

/-! ## Pulls (R77) -/

/-- The plane of a tile that holds a delivery. -/
def planeOfDelivery (t : Tile) (did : Nat) : Option Nat := [0, 1].find? (fun p => ((t.pl p).delivery did).isSome)

/-- The delivery of a plane that pulls a send of a rank. -/
def Plane.pulls (pl : Plane) (src sid : Nat) : Option Delivery :=
  pl.deliveries.find? (fun d => decide (d.hdr.src = src ∧ d.hdr.sid = sid) && d.pulling)

/-- Bytes of a pull of the send of a rank wait for the DUAL partner's own delivery (R46). -/
def keepTwin (s : State) (r p src sid : Nat) (b : List Byte) (last : Bool) : State :=
  s.modPlane r p (fun pl =>
    let old := ((pl.twinData.find? (fun m => decide (m.src = src ∧ m.sid = sid))).map (·.data)).getD []
    { pl with twinData := pl.twinData.filter (fun m => decide (m.src ≠ src ∨ m.sid ≠ sid)) ++
        [{ src := src, sid := sid, data := old ++ b, whole := last }] })

/-- Bytes of a pull leave for the delivery that asked, wherever its task stands (R296), and for its DUAL partner's (R46). -/
def pulled (s : State) (p : Pull) (src : Nat) (b : List Byte) (last : Bool) : State :=
  match (planeOfDelivery (s.tile p.dst) p.did).orElse (fun _ => hostPlane (s.tile p.dst) p.job) with
  | none => s
  | some k =>
    let s :=
      match (s.plane p.dst k).delivery p.did with
      | some d => pipe s p.rank p.dst k d b last
      | none => s
    match partnerOf s p.dst k with
    | none => s
    | some (r2, p2) =>
      match (s.plane r2 p2).pulls src p.sid with
      | some d => pipe s p.rank r2 p2 d (b.take (d.want - d.got - d.data.length)) last
      | none => keepTwin s r2 p2 src p.sid b last

/-- A delivery whose pull the sender cannot serve: what says so is on its way (R84, R273). -/
def pullEnds (s : State) (src r p : Nat) (d : Delivery) (st fc : Nat) : State :=
  emitNet (putDelivery s r p { d with fin := some (st, fc) }) src r 0 (.deliveryComplete r p d.did)

/-- A pull that cannot be served ends the receive, and its DUAL partner's (R84, R298). -/
def pullFails (s : State) (p : Pull) (st fc : Nat) : State :=
  match planeOfDelivery (s.tile p.dst) p.did with
  | none => s
  | some k =>
    match (s.plane p.dst k).delivery p.did with
    | none => s
    | some d =>
      let tw := partnerOf s p.dst k
      let s := pullEnds s p.rank p.dst k d st fc
      match tw with
      | none => s
      | some (r2, p2) =>
        match (s.plane r2 p2).pulls d.hdr.src p.sid with
        | some e => pullEnds s p.rank r2 p2 e st fc
        | none => s

/-- How many of a send's bytes stand ready for a pull: a forward's as they land, an MSEND's from its snapshot on (R86, R264). -/
def Send.onHand (sd : Send) (want : Nat) : Nat :=
  if sd.held then min want sd.bytes
  else if sd.kind = 4 then min want sd.payload.length
  else if sd.kind = 6 then 0
  else min want sd.bytes

/-- Whether a pull that has brought a number of bytes of a send has brought its last. -/
def Send.pulledOut (sd : Send) (want done : Nat) : Bool :=
  (sd.held || decide (sd.kind ≠ 4 ∧ sd.kind ≠ 6)) && decide (min want sd.bytes ≤ done)

/-- A pull is served at the plane that holds its send (R75, R77, R79): the engine reads what the pull still wants, as far as it stands
ready and the queue of the peer has room (R82, R86, R139), and sends it; with the last of it the send's copy completes. -/
def pullFrom (s : State) (p : Nat) (sd : Send) (q : Pull) : State :=
  let n := min (sd.onHand q.want - q.done) (64 * ((queueRoom s q.rank q.dst).getD q.want))
  let last := sd.pulledOut q.want (q.done + n)
  if n = 0 ∧ last = false then emitOnce s (.pullRequest q)
  else
    match sendBytes s q.rank p sd q.done n with
    | .error (.faulted _) =>
      pullFails (withSend s q.rank q.sid (onCopy q.dst (SendCopy.finish stFAULT fcENGFAULT))) q stFAULT fcENGFAULT
    | .error _ => emitOnce s (.pullRequest q)
    | .ok b =>
      let src := (s.plane q.rank p).regs.myrank
      let s := sendSeen s q.rank sd q.done n
      if last then
        pulled (withSend s q.rank q.sid (onCopy q.dst (SendCopy.finish (if sd.eager then stSTUBBED else stOK) 0))) q src b true
      else emit (pulled s q src b false) (.pullRequest { q with done := q.done + n })

/-- A pull request reaches the sender. While the task is diverted or out, the pull waits in the spill queue (R298). -/
def servePull (s : State) (q : Pull) (direct : Bool) : State :=
  let t := s.tile q.rank
  match planeOfSend t q.sid with
  | some p =>
    if (s.plane q.rank p).diverted && !direct then
      spillTo s q.rank p (.pull q)
    else
      match (s.plane q.rank p).send q.sid with
      | none => s
      | some sd => pullFrom s p sd q
  | none =>
    match s.suspended.find? (fun u => decide (u.rank = q.rank) && (u.plane.send q.sid).isSome) with
    | none => pullFails s q stPEERDOWN 0
    | some u =>
      match planeOfTask t u.plane.task.launch u.plane.task.index with
      | some p => spillTo s q.rank p (.pull q)
      | none => spillSusp s u (.pull q)

end Sys2Proof.Machine
end

