-- ==== Sys2Proof/Machine/Lane.lean ====
section
/-! DEFINITION. The lane manager (spec/07_optical_fabric.md R134 to R149): lane positions, leases, slotted mode, and the
answers to LEASEQ and SLOTQ (R243 to R246). -/

namespace Sys2Proof.Machine

/-! ## Lanes -/

/-- Tunes a lane. -/
def Package.tune (p : Package) (l g : Nat) : Package :=
  { p with lane := if g = lanePos l then ndel p.lane l else nset p.lane l g }

/-- Whether a lane is under a lease. -/
def Package.leased (p : Package) (l : Nat) : Bool := p.leases.any (fun x => x.lanes.any (fun e => decide (e.1 = l)))

/-- The lanes in service that point at a position and are under no lease: those that a peer keeps when leases end. -/
def Package.ownLanes (p : Package) (g : Nat) : Nat :=
  ((List.range 1024).filter (fun l => decide (p.pos l = g) && !p.laneFenced l && !p.leased l && !p.homing.contains l)).length

/-- A lane that waits to go home does so when its default position is free on its fibre: no two lanes of a fibre stand at one position
(R135; DESIGN CHOICE, log entry 86). Its retune then takes 150 ns from now (R144). -/
def Package.goHome1 (now : Nat) (p : Package) (l : Nat) : Package :=
  if (List.range 8).any (fun k => decide (8 * (l / 8) + k ≠ l ∧ p.pos (8 * (l / 8) + k) = lanePos l)) then p
  else
    { p.tune l (lanePos l) with
      homing := p.homing.filter (fun k => decide (k ≠ l))
      leases := p.leases.map (fun x => { x with back := x.back.map (fun t => if t.1 = l then (l, now + 150) else t) }) }

/-- The lanes that wait to go home, until none moves: one that goes home may free the position of another. -/
def Package.goHome (p : Package) (now : Nat) : Package :=
  (List.range p.homing.length).foldl (fun p _ => p.homing.foldl (Package.goHome1 now) p) p

/-- Sends lanes to their default positions. -/
def Package.sendHome (p : Package) (ls : List Nat) (now : Nat) : Package :=
  Package.goHome { p with homing := p.homing ++ ls.filter (fun l => !p.homing.contains l) } now

/-- Whether a fibre has a lane at a position. -/
def Package.fibreAt (p : Package) (f g : Nat) : Bool := (List.range 8).any (fun k => decide (p.pos (8 * f + k) = g))

/-- The lane of a donor that R142 takes for a target: the highest-numbered that serves it by default on a fibre with no lane at
the target. Only a lane whose default position is the donor's counts, not one that a repair of R138 has retuned to it (DESIGN
CHOICE, log entry 101). -/
def Package.donorLane (p : Package) (o t : Nat) : Option Nat :=
  (List.range 1024).reverse.find? (fun l =>
    decide (l ≠ 1023 ∧ lanePos l = o ∧ p.pos l = o) && !p.leased l && !p.laneFenced l && !p.fibreAt (l / 8) t)

/-- The peer package at an offset of a package (R134). -/
def peerAt (pkg o : Nat) : Nat := pkg / 32 * 32 + (pkg % 32 + o) % 32

/-- The rank of a package's lane manager. -/
def laneManager (pkg : Nat) : Nat := pkg * 4096 + 0x510

/-! ## Leases -/

/-- PEER, LANES and DUR of a request (Table 11.5). -/
def leasePeer (v : Word) : Nat := v.toNat % 4096
/-- LANES. -/
def leaseLanes (v : Word) : Nat := bitsHL v.toNat 21 12
/-- DUR in µs. -/
def leaseDur (v : Word) : Nat := bitsHL v.toNat 35 22

/-- The record of a lease request (R143). -/
def leaseRecord (peer status num lanes aux : Nat) : Quad :=
  RecF.bits { peer := laneManager peer, status := status, kind := 13, length := num, aux := aux, dlen := lanes }

/-- Changes both planes of a tile and the tasks suspended there: an answer of the lane manager finds its operation wherever its task
stands (R298). -/
def onOwner (s : State) (r : Nat) (f : Plane → Plane) : State :=
  let s := (s.modPlane r 0 f).modPlane r 1 f
  { s with suspended := s.suspended.map (fun u => if u.rank = r then { u with plane := f u.plane } else u) }

/-- Completes operation id on a flag at a tile, and operation twin on the same flag at the odd tile of its DUAL pair (R46,
R252); nothing for a task that has ended. -/
def completePair (s : State) (r fn id twin : Nat) (q : Quad) : State :=
  let s := onOwner s r (fun pl => pl.complete fn id q)
  if twin = 0 then s else onOwner s (r + 1) (fun pl => pl.complete fn twin q)

/-- Whether R140 turns a request away at once. -/
def leaseBad (s : State) (pkg : Nat) (v : Word) : Bool :=
  (s.pkg pkg).slotted
    || (match offsetOf pkg (leasePeer v) with
        | some o => decide (o = 0)
        | none => true)
    || decide (leaseLanes v < 1 ∨ 126 < leaseLanes v ∨ leaseDur v < 1 ∨ 10000 < leaseDur v)

/-- A lease request reaches the lane manager of its package (R140, R141). -/
def leasePost (s : State) (r p fn id twin : Nat) (v : Word) : State :=
  let pkg := pkgOf r
  if leaseBad s pkg v then completePair s r fn id twin (leaseRecord (leasePeer v) stNOROUTE 0 0 3)
  else
    let q : LeaseReq := { rank := r, plane := p, job := (s.plane r p).task.job, fn := fn, id := id, twin := twin, val := v }
    emit (s.modPkg pkg (fun k => { k with leaseReqs := k.leaseReqs ++ [q] })) (.leaseServe pkg)

/-- Whether a lane that has left a lease has still to finish its retune: it waits for its position, or its 150 ns are not over
(R144). -/
def Package.onWay (p : Package) (now : Nat) (t : Nat × Nat) : Bool := p.homing.contains t.1 || decide (now < t.2)

/-- The lanes that a job holds in leases, those on their way back included (R142, R144). -/
def Package.held (p : Package) (job now : Nat) : Nat :=
  (((p.leases.filter (fun l => decide (l.job = job))).map (fun l => l.lanes.length + (l.back.filter (p.onWay now)).length))).sum

/-- LTHRESH in flits (Table 7.1). -/
def Package.lthresh (p : Package) : Nat := bitsHL (p.reg 0x20000) 63 48

/-- Whether the send queue of a package for a peer offset stands at or above LTHRESH (R139, R142): its flits, up to 256 KiB. -/
def queueHigh (s : State) (pkg o : Nat) : Bool := decide ((s.pkg pkg).lthresh ≤ min 4096 (queueFlits s (queueKey pkg o)))

/-- One pass over the donors of R142: the package and the lanes taken. lanes(o) is read as the lanes that the peer keeps when every
lease has ended, so that the floor of R138 holds then too (DESIGN CHOICE, log entry 86). -/
def leasePass (s : State) (pkg t n quota held0 : Nat) (x : Package × List (Nat × Nat)) : Package × List (Nat × Nat) :=
  (List.range 31).foldl (fun x i =>
    let o := i + 1
    let g := x.2.length
    if o ≠ t ∧ g < n ∧ g < quota - held0 ∧ 2 < x.1.ownLanes o ∧ queueHigh s pkg o = false then
      match x.1.donorLane o t with
      | some l => (x.1.tune l t, x.2 ++ [(l, o)])
      | none => x
    else x) x

/-- The passes of R142, until one takes nothing. -/
def leasePasses (s : State) (pkg t n quota held0 : Nat) : Nat → Package × List (Nat × Nat) → Package × List (Nat × Nat)
  | 0, x => x
  | k + 1, x =>
    let y := leasePass s pkg t n quota held0 x
    if y.2.length = x.2.length then y else leasePasses s pkg t n quota held0 k y

/-- The request that is served next (R141): the first of the job that follows the one served last. -/
def Package.nextReq (p : Package) : Option LeaseReq :=
  let js := (p.leaseReqs.map (·.job))
  let next := ((js.filter (fun j => decide (p.lastJob < j))).min?).orElse (fun _ => js.min?)
  next.bind (fun j => p.leaseReqs.find? (fun q => decide (q.job = j)))

/-- A lease that stands: a lane of it has not left. -/
def Lease.live (x : Lease) : Bool := !x.lanes.isEmpty

/-- The package without leases of which nothing is left to report or to count (R144). -/
def Package.tidyLeases (p : Package) (now : Nat) : Package :=
  { p with leases := p.leases.filter (fun x => x.live || !x.reported || x.back.any (p.onWay now)) }

/-- Serves one request (R141 to R143). A request that was accepted in default mode and is served after the switch into slotted mode
completes as one made there; a lease's duration counts from the moment it is served (DESIGN CHOICE, log entry 87). -/
def leaseServeAt (s : State) (pkg : Nat) : State :=
  let p := (s.pkg pkg).tidyLeases s.podTime
  match p.nextReq with
  | none => s
  | some q =>
    let p := { p with leaseReqs := p.leaseReqs.erase q, lastJob := q.job }
    let answer := fun (s : State) (st num lanes aux : Nat) =>
      completePair s q.rank q.fn q.id q.twin (leaseRecord (leasePeer q.val) st num lanes aux)
    if leaseBad s pkg q.val then answer (s.modPkg pkg (fun _ => p)) stNOROUTE 0 0 3
    else
      let t := (offsetOf pkg (leasePeer q.val)).getD 0
      let n := leaseLanes q.val
      let quota := ((s.jobAt q.job pkg).map (·.quota)).getD 64
      let h := p.held q.job s.podTime
      let (p, l) := leasePasses s pkg t n quota h 127 (p, [])
      let aux := if l.length = n then 0 else if quota ≤ h + l.length then 2 else 1
      if l = [] then answer (s.modPkg pkg (fun _ => p)) stOK 0 0 aux
      else
        let num := p.lastLease % 65535 + 1
        let endNs := s.podTime + leaseDur q.val * 1000
        let x : Lease := { num := num, job := q.job, off := t, lanes := l, endNs := endNs, rank := q.rank, plane := q.plane,
                           fn := q.fn, id := q.id, twin := q.twin, granted := l.length, aux := aux }
        let s := s.modPkg pkg (fun _ =>
          Package.goHome { p with leases := p.leases ++ [x], lastLease := num, leaseOff := nset p.leaseOff num t } s.podTime)
        emit (emit s (.leaseRetuneEnd pkg num)) (.leaseExpiry pkg num)

/-- Returns lanes of a lease that stands to their default positions: each is there 150 ns after its retune began (R135, R144). -/
def returnLanes (s : State) (pkg num : Nat) (which : Nat × Nat → Bool) : State :=
  s.modPkg pkg (fun p =>
    match p.leases.find? (fun x => decide (x.num = num) && x.live) with
    | none => p
    | some x =>
      let gone := x.lanes.filter which
      Package.sendHome { p with leases := p.leases.map (fun y => if y = x then
          { y with lanes := y.lanes.filter (fun l => !which l), back := y.back ++ gone.map (fun l => (l.1, s.podTime + 150)) } else y) }
        (gone.map (·.1)) s.podTime)

/-- Ends every lease of a package that a test picks (R144, R148). -/
def endLeases (s : State) (pkg : Nat) (f : Lease → Bool) : State :=
  ((s.pkg pkg).leases.filter f).foldl (fun s x => returnLanes s pkg x.num (fun _ => true)) s

/-- UNLEASE (R244): ends a lease of the job. -/
def unleaseAt (s : State) (pkg job num : Nat) : State :=
  endLeases s pkg (fun x => decide (x.num = num ∧ x.job = job))

/-- LEASE_SERVE (R142). -/
def execLeaseServe (pkg : Nat) (s : State) : Host.Outcome State Fault Refusal :=
  runEvent (Instr.leaseServe pkg).wf s (fun s => leaseServeAt s pkg)

/-- LEASE_RETUNE_END (R142, R143): the flag is set with the grant's record. -/
def execLeaseRetuneEnd (pkg lease : Nat) (s : State) : Host.Outcome State Fault Refusal :=
  runEvent (Instr.leaseRetuneEnd pkg lease).wf s (fun s =>
    match (s.pkg pkg).leases.find? (fun x => decide (x.num = lease) && !x.reported) with
    | none => s
    | some x =>
      let s := s.modPkg pkg (fun p => { p with leases := p.leases.map (fun y => if y.num = lease then { y with reported := true } else y) })
      completePair s x.rank x.fn x.id x.twin (leaseRecord (peerAt pkg x.off) stOK lease x.granted x.aux))

/-- LEASE_EXPIRY (R144): at the lease's end in pod time, and not before. -/
def execLeaseExpiry (pkg lease : Nat) (s : State) : Host.Outcome State Fault Refusal :=
  runEvent (Instr.leaseExpiry pkg lease).wf s (fun s =>
    match (s.pkg pkg).leases.find? (fun x => decide (x.num = lease) && x.live) with
    | none => s
    | some x => if s.podTime < x.endNs then emitOnce s (.leaseExpiry pkg lease) else returnLanes s pkg lease (fun _ => true))

/-- The donors of a package's leases. -/
def Package.donors (p : Package) : List Nat := (p.leases.flatMap (fun x => x.lanes.map (·.2))).dedup

/-- Looks at the queues of a package's donors (R144): one that has reached LTHRESH has a revocation due; one that has fallen
below it, or is no donor any more, is watched no more. -/
def watchDonors (s : State) (pkg : Nat) : State :=
  let d := (s.pkg pkg).donors
  let s' := s.modPkg pkg (fun p => { p with highSince := p.highSince.filter (fun e => d.contains e.1 && queueHigh s pkg e.1) })
  d.foldl (fun s o =>
    if !queueHigh s pkg o then s
    else if (nget (s.pkg pkg).highSince o).isSome then s
    else emitOnce (s.modPkg pkg (fun p => { p with highSince := nset p.highSince o s.podTime })) (.leaseRevocation pkg o)) s'

/-- A revocation: the newest lease that holds lanes of a donor loses them, and the next 50 µs count from now. -/
def revokeFrom (s : State) (pkg donor : Nat) : State :=
  match ((s.pkg pkg).leases.reverse).find? (fun x => x.lanes.any (fun l => decide (l.2 = donor))) with
  | none => s.modPkg pkg (fun p => { p with highSince := ndel p.highSince donor })
  | some x =>
    emitOnce ((returnLanes s pkg x.num (fun l => decide (l.2 = donor))).modPkg pkg (fun p =>
      { p with highSince := nset p.highSince donor s.podTime })) (.leaseRevocation pkg donor)

/-- LEASE_REVOCATION (R144): when the donor's queue has stood at or above LTHRESH for 50 µs. -/
def execLeaseRevocation (pkg donor : Nat) (s : State) : Host.Outcome State Fault Refusal :=
  runEvent (Instr.leaseRevocation pkg donor).wf s (fun s =>
    match nget (s.pkg pkg).highSince donor with
    | none => s
    | some t =>
      if !queueHigh s pkg donor then s.modPkg pkg (fun p => { p with highSince := ndel p.highSince donor })
      else if s.podTime < t + 50000 then emitOnce s (.leaseRevocation pkg donor) else revokeFrom s pkg donor)

/-! ## Slotted mode -/

/-- The slot table as its registers hold it. -/
def Package.slotRegs (p : Package) : NMap Nat := (List.range 64).map (fun n => (n, p.reg (0x20100 + 8 * n) % 2 ^ 32))

/-- GUARD of an LMCTL value: a value below 250 acts as 250. -/
def guardOf (v : Nat) : Nat := max 250 (bitsHL v 41 32)

/-- The ns of a rotation. -/
def rotNs (l : NMap Nat) : Nat := ((l.filter (fun e => slotValid e.2)).map (fun e => slotNs e.2)).sum

/-- Whether a table may not run with a guard (R149). -/
def tableBad (l : NMap Nat) (guard : Nat) : Bool :=
  let v := l.filter (fun e => slotValid e.2)
  v.isEmpty || v.any (fun e => decide (slotOff e.2 = 0 ∨ slotLanes e.2 = 0 ∨ 128 < slotLanes e.2 ∨ slotNs e.2 ≤ guard))

/-- The first rotation boundary after a time. -/
def boundaryAfter (start rot t : Nat) : Nat := if t < start ∨ rot = 0 then start else start + ((t - start) / rot + 1) * rot

/-- Whether LMCTL.SLOTTED is set, as written. -/
def Package.slotBit (p : Package) : Bool := (p.reg 0x20000).testBit 0

/-- Whether a switch is pending (PEND). -/
def Package.pending (p : Package) : Bool := p.slotBit != p.slotted

/-- LMCTL as it reads. -/
def Package.lmctl (p : Package) : Nat := putBits (p.reg 0x20000) 1 1 (if p.pending then 1 else 0)

/-- The table and guard now in the registers take effect at the next boundary of the table in force (R148). -/
def tablePending (s : State) (pkg : Nat) : State :=
  let s := s.modPkg pkg (fun p =>
    { p with pendTable := true, switchAt := some (p.switchAt.getD (boundaryAfter p.rota.start (rotNs p.rota.slots) s.podTime)) })
  emitOnce s (.modeSwitch pkg)

/-- A record of a bad slot table (R149). -/
def badSlot (s : State) (pkg : Nat) : State := blackBox s pkg 0x0020 (Config.noUnit 0x0020 pkg) (s.pkg pkg).lmctl

/-- A write that changes the slot table or GUARD: while slotted mode runs, or an entry is pending, a bad table is ignored
with BADSLOT (R148, R149). -/
def tableWrite (s : State) (pkg addr v : Nat) : State :=
  let p := s.pkg pkg
  let q := p.setReg addr v
  if (p.slotted || p.slotBit) && tableBad q.slotRegs (guardOf (q.reg 0x20000)) then badSlot s pkg
  else
    let s := s.modPkg pkg (fun _ => q)
    if p.slotted then tablePending s pkg else s

/-- A write of SLOTn or, for n = 64, of GUARD (R149). -/
def slotWrite (s : State) (pkg n v : Nat) : State :=
  if n < 64 then tableWrite s pkg (0x20100 + 8 * n) (v % 2 ^ 32 - bitsHL v 15 10 * 2 ^ 10)
  else if n = 64 then tableWrite s pkg 0x20000 (putBits ((s.pkg pkg).reg 0x20000) 41 32 v)
  else s

/-- SLOTTED written 1 (R148, R149). -/
def slottedOn (s : State) (pkg : Nat) : State :=
  let p := s.pkg pkg
  if p.slotBit then s
  else if tableBad p.slotRegs (guardOf (p.reg 0x20000)) then badSlot s pkg
  else
    let set := fun (k : Package) => k.setReg 0x20000 (putBits (k.reg 0x20000) 0 0 1)
    if p.slotted then s.modPkg pkg (fun k => { set k with switchAt := if k.pendTable then k.switchAt else none })
    else
      let st := p.reg 0x20008
      let at_ := if s.podTime < st then st else boundaryAfter st (rotNs p.slotRegs) s.podTime
      emitOnce (s.modPkg pkg (fun k => { set k with switchAt := some at_ })) (.modeSwitch pkg)

/-- SLOTTED written 0 (R148). -/
def slottedOff (s : State) (pkg : Nat) : State :=
  let p := s.pkg pkg
  let clr := fun (k : Package) => k.setReg 0x20000 (putBits (k.reg 0x20000) 0 0 0)
  if !p.slotBit then s
  else if p.slotted then
    emitOnce (s.modPkg pkg (fun k =>
      { clr k with switchAt := some (k.switchAt.getD (boundaryAfter k.rota.start (rotNs k.rota.slots) s.podTime)) }))
      (.modeSwitch pkg)
  else s.modPkg pkg (fun k => { clr k with switchAt := none })

/-- A write of LMCTL (R148, R149): LTHRESH and GUARD first, then SLOTTED. Where GUARD is ignored or SLOTTED is left at 0 with
BADSLOT, the write's other fields take effect (DESIGN CHOICE, log entry 102). -/
def lmctlWrite (s : State) (pkg v : Nat) : State :=
  let s := s.modPkg pkg (fun p => p.setReg 0x20000 (putBits (p.reg 0x20000) 63 48 (bitsHL v 63 48)))
  let s := if bitsHL ((s.pkg pkg).reg 0x20000) 41 32 = bitsHL v 41 32 then s else slotWrite s pkg 64 (bitsHL v 41 32)
  if v.testBit 0 then slottedOn s pkg else slottedOff s pkg

/-- The packets of a package for which no lane is waited for now go out: those to a peer that is reached over Ultra Ethernet (R138,
R146), and in default mode control traffic, which every peer's sidebands carry (R136). -/
def releaseFree (s : State) (pkg : Nat) : State :=
  let p := s.pkg pkg
  { s with agenda := s.agenda.map (fun d => match d.via with
      | some v =>
        if v.1 / 4096 = pkg ∧ ((v.2 = 0 ∧ p.slotted = false) ∨ overEthernet s pkg (peerAt pkg (v.1 % 4096)) = true) then { d with via := none }
        else d
      | none => d) }

/-- The switch at a boundary (R148): into slotted mode, out of it, or to a new table; not before its time. -/
def modeSwitchAt (s : State) (pkg : Nat) : State :=
  let p := s.pkg pkg
  match p.switchAt with
  | none => s
  | some t =>
    if s.podTime < t then emitOnce s (.modeSwitch pkg)
    else
      let rota : Rota := { slots := p.slotRegs, guard := guardOf (p.reg 0x20000), start := t }
      let done := fun (k : Package) => { k with switchAt := none, pendTable := false }
      if p.slotBit then
        let s := if p.slotted then s else endLeases s pkg (fun _ => true)
        emitOnce (releaseFree (s.modPkg pkg (fun k => { done k with slotted := true, rota := rota, credit := [] })) pkg) (.slotStart pkg 0)
      else emitOnce (releaseFree (s.modPkg pkg (fun k => { done k with slotted := false, slotAt := s.podTime, credit := [] })) pkg) (.slotStart pkg 0)

/-- The slots of one rotation that begins at a time: number, start and entry. -/
def slotTimes (t : Nat) : NMap Nat → List (Nat × Nat × Nat)
  | [] => []
  | (n, e) :: r => if slotValid e then (n, t, e) :: slotTimes (t + slotNs e) r else slotTimes t r

/-- The slot of a table in progress at a time. -/
def Rota.slotAt (x : Rota) (t : Nat) : Option (Nat × Nat × Nat) :=
  let rot := rotNs x.slots
  if t < x.start ∨ rot = 0 then none
  else (slotTimes (x.start + (t - x.start) / rot * rot) x.slots).find? (fun e => decide (e.2.1 ≤ t ∧ t < e.2.1 + slotNs e.2.2))

/-- Lets waiting packets of a queue go, in order, until a number of flits is spent: the packets, and the flits left. Control traffic
travels beside them (R136). -/
def drainVia (key : Nat) : List Due → Nat → List Due × Nat
  | [], n => ([], n)
  | d :: r, n =>
    match d.via with
    | some (k, f) =>
      if k ≠ key then
        let x := drainVia key r n
        (d :: x.1, x.2)
      else if f ≤ n then
        let x := drainVia key r (n - f)
        ({ d with via := none } :: x.1, x.2)
      else
        let x := drainVia key r 0
        ({ d with via := some (k, f - n) } :: x.1, x.2)
    | none =>
      let x := drainVia key r n
      (d :: x.1, x.2)

/-- A queue in default mode (R136, R139): in a number of ns each lane that points at the peer carries 8 bytes per ns of it, in
whole flits. A queue that was empty when it was last looked at has carried nothing. -/
def drainLanes (s : State) (key ns : Nat) : State :=
  let pkg := key / 4096
  let o := key % 4096
  let p := s.pkg pkg
  let c := match nget p.credit o with
    | some c => c + 8 * p.lanesAt o * ns
    | none => 0
  let x := drainVia key s.agenda (c / 64)
  let left := x.1.any (fun d => decide ((d.via.map (·.1)) = some key))
  { s with agenda := x.1 }.modPkg pkg (fun p => { p with credit := if left then nset p.credit o (c % 64) else ndel p.credit o })

/-- The send queues of a package in which packets wait. -/
def waitingKeys (s : State) (pkg : Nat) : List Nat :=
  ((s.agenda.filterMap (fun d => d.via.map (·.1))).filter (fun k => decide (k / 4096 = pkg))).dedup

/-- The message engines that the queues of their package may have held go on, when packets have waited in one (R139). -/
def pumpPkg (s : State) (pkg : Nat) (waited : Bool) : State :=
  if waited then (s.tiles.filter (fun t => decide (pkgOf t.1 = pkg))).foldl (fun s t => pumpTile s t.1) s else s

/-- The lanes carry a package's queues in default mode, for the time since they were last looked at (R139); the donors' queues are
watched (R144). While packets wait, the next look is due. -/
def lanesRun (s : State) (pkg : Nat) : State :=
  let waited := !(waitingKeys s pkg).isEmpty
  let ns := s.podTime - (s.pkg pkg).slotAt
  let s := releaseFree s pkg
  let s := ((waitingKeys s pkg).foldl (fun s k => drainLanes s k ns) s).modPkg pkg (fun p => { p with slotAt := s.podTime })
  let s := watchDonors (pumpPkg s pkg waited) pkg
  if waitingKeys s pkg = [] then s else emitOnce s (.slotStart pkg 0)

/-- The lanes of a slot that are in service: of the lanes of wavelength slot 0 of the first fibres, those that no fence holds (R146,
R340). -/
def Package.slotLanesUp (p : Package) (e : Nat) : Nat := ((List.range (slotLanes e)).filter (fun f => !p.laneFenced (8 * f))).length

/-- The slot in progress carries its peer's queue, after its guard (R146, R147); the next look at the table is then due.
slotUsed is the place, in flits from the guard's end, up to which the slot's lanes are taken: time that has passed is gone, and
what was sent off before holds the lanes. In default mode the lanes carry the queues. -/
def slotRun (s : State) (pkg : Nat) : State :=
  let p := s.pkg pkg
  if !p.slotted then lanesRun s pkg
  else
    match p.rota.slotAt s.podTime with
    | none => emitOnce s (.slotStart pkg 0)
    | some (n, t, e) =>
      let s := s.modPkg pkg (fun k => { k with slotUsed := if k.slotAt = t then k.slotUsed else 0, slotAt := t })
      let lanes := p.slotLanesUp e
      let waited := !(waitingKeys s pkg).isEmpty
      let s :=
        if s.podTime < t + p.rota.guard ∨ lanes = 0 then s
        else
          let total := lanes * (slotNs e - p.rota.guard) / 8
          let used := max (s.pkg pkg).slotUsed ((lanes * (s.podTime - (t + p.rota.guard)) + 7) / 8)
          let x := drainVia (queueKey pkg (slotOff e)) s.agenda (total - used)
          pumpPkg ({ s with agenda := x.1 }.modPkg pkg (fun k => { k with slotUsed := used + (total - used - x.2) })) pkg waited
      emitOnce s (.slotStart pkg n)

/-- SLOT_START (R139, R146, R147): a look at a package's send queues. -/
def execSlotStart (pkg slot : Nat) (s : State) : Host.Outcome State Fault Refusal :=
  runEvent (Instr.slotStart pkg slot).wf s (fun s => slotRun s pkg)

/-- MODE_SWITCH (R148). -/
def execModeSwitch (pkg : Nat) (s : State) : Host.Outcome State Fault Refusal :=
  runEvent (Instr.modeSwitch pkg).wf s (fun s => modeSwitchAt s pkg)

/-- POD_TIME_BEACON (R148): the model holds one pod time, with which every lane manager agrees (log entry 21). -/
def execPodTimeBeacon (pkg ns : Nat) (s : State) : Host.Outcome State Fault Refusal :=
  runEvent (Instr.podTimeBeacon pkg ns).wf s (fun s => s)

/-- SLOTTED_SET (R148). -/
def execSlottedSet (pkg value : Nat) (s : State) : Host.Outcome State Fault Refusal :=
  runEvent (pkgWf pkg && decide (value < 2 ^ 128)) s (fun s => lmctlWrite s pkg (putBits value 0 0 1))

/-- SLOTTED_CLEAR (R148). -/
def execSlottedClear (pkg value : Nat) (s : State) : Host.Outcome State Fault Refusal :=
  runEvent (pkgWf pkg && decide (value < 2 ^ 128)) s (fun s => lmctlWrite s pkg (putBits value 0 0 0))

/-- SLOT_TABLE_WRITE (R148, R149). -/
def execSlotTableWrite (pkg n value : Nat) (s : State) : Host.Outcome State Fault Refusal :=
  runEvent (pkgWf pkg && decide (value < 2 ^ 128)) s (fun s => slotWrite s pkg n value)

/-! ## Answers -/

/-- The record that LEASEQ gets (R245): a lease whose time is over has no lanes, whether or not the step that returns them has been
taken. A number that was never issued has no peer, and PEER is 0 (DESIGN CHOICE, log entry 100). -/
def leaseqRecord (s : State) (pkg job num : Nat) : Quad :=
  let p := s.pkg pkg
  let base : RecF := { peer := ((nget p.leaseOff num).map (fun o => laneManager (peerAt pkg o))).getD 0, kind := 13, tag := num }
  match p.leases.find? (fun x => decide (x.num = num ∧ x.job = job ∧ s.podTime < x.endNs) && x.live) with
  | none => RecF.bits base
  | some x => RecF.bits { base with dlen := x.lanes.length, length := (x.endNs - s.podTime) / 1000 }

/-- The slot of a peer in progress at a time, or the next one to start: its start and entry, from a table. -/
def nextSlot (x : Rota) (o t : Nat) : Option (Nat × Nat) :=
  let rot := rotNs x.slots
  if rot = 0 then none
  else
    let b := if t < x.start then x.start else x.start + (t - x.start) / rot * rot
    (((slotTimes b x.slots ++ slotTimes (b + rot) x.slots).find? (fun e => decide (slotOff e.2.2 = o ∧ t < e.2.1 + slotNs e.2.2)))).map
      (fun e => (e.2.1, e.2.2))

/-- The record that SLOTQ gets (R246, R149): AUX 3 for a peer reached over Ultra Ethernet. The task's own package is no peer: it gets
its lanes at position 0, the service lane, in default mode, and AUX 3 in slotted mode (DESIGN CHOICE, log entry 88). With a change
pending, a slot that lies past the boundary is looked for in the table that comes into force there. -/
def slotqRecord (s : State) (pkg peer : Nat) : Quad :=
  let p := s.pkg pkg
  let base : RecF := { peer := laneManager peer, kind := 13 }
  match offsetOf pkg peer with
  | none => RecF.bits { base with aux := 3 }
  | some o =>
    if !p.slotted then
      (if overEthernet s pkg peer then RecF.bits { base with aux := 3 } else RecF.bits { base with aux := 2, dlen := p.lanesAt o })
    else
      let found := nextSlot p.rota o s.podTime
      let new : Rota := { slots := p.slotRegs, guard := guardOf (p.reg 0x20000), start := p.switchAt.getD 0 }
      let x : Option ((Nat × Nat) × Nat) :=
        match found, p.switchAt with
        | some f, none => some (f, p.rota.guard)
        | none, none => none
        | f, some b =>
          match f.filter (fun f => decide (f.1 < b)) with
          | some f => some (f, p.rota.guard)
          | none => if p.slotBit then (nextSlot new o b).map (fun f => (f, new.guard)) else none
      match x with
      | none => RecF.bits { base with aux := 3 }
      | some ((t, e), g) =>
        let send := slotNs e - g
        if t + g ≤ s.podTime then RecF.bits { base with aux := 0, length := t + slotNs e - s.podTime, dlen := send }
        else RecF.bits { base with aux := 1, length := t + g - s.podTime, dlen := send }

/-- The answer to question id on flag fn at a plane, if it is still asked there: a rollback takes a question back (R250). -/
def Plane.answer (pl : Plane) (fn id : Nat) (q : Quad) : Plane :=
  if pl.askIds.contains id then Plane.complete { pl with askIds := pl.askIds.erase id } fn id q else pl

/-- The job of the task at a tile that asks a question. -/
def askJob (s : State) (r id : Nat) : Nat :=
  let t := s.tile r
  (((t.plane0 :: t.plane1 :: ((s.suspended.filter (fun u => decide (u.rank = r))).map (·.plane))).find?
    (fun pl => pl.askIds.contains id)).map (·.task.job)).getD 0

/-- LANE_MANAGER_ANSWER (R245, R246): the flag's record is written and the flag set; each tile of a DUAL pair has its own (R252). -/
def execLaneManagerAnswer (l : LmAsk) (s : State) : Host.Outcome State Fault Refusal :=
  runEvent (Instr.laneManagerAnswer l).wf s (fun s =>
    let pkg := pkgOf l.rank
    let q := if l.slot then slotqRecord s pkg l.what else leaseqRecord s pkg (askJob s l.rank l.id) l.what
    onOwner s l.rank (fun pl => pl.answer l.fn l.id q))

end Sys2Proof.Machine
end

