-- ==== Sys2Proof/Machine/Vector.lean ====
section
/-! DEFINITION. The V slot (spec/10_isa_vector.md R199 to R217): element-wise words under a lane predicate, compares,
conversions, moves, reductions and dot products. -/

namespace Sys2Proof.Machine

/-! ## Elements -/

/-- The element width in bytes of a type code (Table 10.1). -/
def tyW (ty : Nat) : Nat := if ty = 0 ∨ ty = 3 then 4 else if ty = 1 ∨ ty = 2 ∨ ty = 4 then 2 else 1

/-- The element count of a type. -/
def tyN (ty : Nat) : Nat := 128 / tyW ty

/-- Element j of w bytes of a register. -/
def elem (w j : Nat) (v : VReg) : Nat := v.toNat / 2 ^ (8 * w * j) % 2 ^ (8 * w)

/-- A number from elements of n bits each, the first lowest. -/
def packBits (n : Nat) : List Nat → Nat
  | [] => 0
  | a :: r => a % 2 ^ n + 2 ^ n * packBits n r

/-- A register from its elements of w bytes; bytes beyond them are zero. -/
def ofElems (w : Nat) (l : List Nat) : VReg := BitVec.ofNat 1024 (packBits (8 * w) l)

/-- Whether element j of w bytes is active under a predicate (R200). -/
def active (q : Quad) (w j : Nat) : Bool := q.getLsbD (j * w)

/-- The signed value of an element of w bytes. -/
def selem (w v : Nat) : Int := sextN (8 * w) v

/-- An integer as an element of w bytes. -/
def ielem (w : Nat) (i : Int) : Nat := (i % ((2 ^ (8 * w) : Nat) : Int)).toNat

/-- The bytes a destination keeps (R201): zero when it is dead. -/
def keepV (s : State) (n : Nat) : VReg := if s.regs.vdead.getLsbD n then 0 else (s.regs.v[n]?).getD 0

/-- The rounding of FRM. -/
def frmRnd (s : State) : Rnd := rndOf s.regs.frm

/-- An element with its flags. -/
abbrev EF := Nat × BitVec 6

/-- The flags of a list of results. -/
def orFlags (l : List EF) : BitVec 6 := l.foldl (fun f e => f ||| e.2) 0

/-- The result of an element-wise operation under a predicate (R200): op of the element's number, a, b and d. -/
def vmap (w n : Nat) (q : Quad) (a b d : VReg) (op : Nat → Nat → Nat → Nat → EF) : List EF :=
  (List.range n).map (fun j =>
    if active q w j then op j (elem w j a) (elem w j b) (elem w j d) else (elem w j d, 0))

/-- Writes the results of an element-wise word and raises its flags. -/
def putV (s : State) (n w : Nat) (r : List EF) : State := raiseF (setV s n (ofElems w (r.map (·.1)))) (orFlags r)

/-- An element-wise word of two sources (R200, R202): register fields are checked first, then dead sources, va and vb before the old
vd (DEDUCED, log entry 29); useD reads the old vd as an operand (R201). -/
def vec3 (f : V3) (s : State) (useD : Bool) (op : Nat → Nat → Nat → Nat → EF) : Host.Outcome State Fault Refusal :=
  runWord 1 f.g s (fun s => do
    let nd ← vdReg s f.vd f.lv
    let na ← vaReg s f.va f.lv
    let nb ← vbReg s f.vb f.lv
    let a ← readV s na
    let b ← readV s nb
    let d ← if useD then readV s nd else .ok (keepV s nd)
    .ok (putV (killV (killV s f.la na) f.lb nb) nd (tyW f.ty)
      (vmap (tyW f.ty) (tyN f.ty) (readQ s (lvQ f.lv)) a b d op)))

/-- An element-wise word of one source. -/
def vec2 (f : V2) (s : State) (op : Nat → EF) : Host.Outcome State Fault Refusal :=
  runWord 1 f.g s (fun s => do
    let nd ← vdReg s f.vd f.lv
    let na ← vaReg s f.va f.lv
    let a ← readV s na
    .ok (putV (killV s f.la na) nd (tyW f.ty)
      (vmap (tyW f.ty) (tyN f.ty) (readQ s (lvQ f.lv)) a a (keepV s nd) (fun _ x _ _ => op x))))

/-- An element operation by the class of its type: floating on values, integer on signed values. -/
def arith (ty : Nat) (r : Rnd) (ff : Fmt → Rnd → FV → FV → FV → EF) (fi : Int → Int → Int → Int) :
    Nat → Nat → Nat → Nat → EF := fun _ a b d =>
  if tyF ty then
    let f := fmtOf ty
    ff f r (f.decode a) (f.decode b) (f.decode d)
  else (ielem (tyW ty) (fi (selem (tyW ty) a) (selem (tyW ty) b) (selem (tyW ty) d)), 0)

/-- A floating operation of one operand on an element. -/
def arithF (ty : Nat) (r : Rnd) (ff : Fmt → Rnd → FV → EF) (a : Nat) : EF := ff (fmtOf ty) r ((fmtOf ty).decode a)

/-- VMIN and VMAX on class F (R205), on encodings; big selects VMAX. −0 counts as less than +0. -/
def fminmax (f : Fmt) (big : Bool) (a b : Nat) : Nat :=
  let x := f.decode a
  let y := f.decode b
  if x.isNan && y.isNan then f.nanBits
  else if x.isNan then b
  else if y.isNan then a
  else
    let less := x.lt y || (x.isZero true && y.isZero false)
    if big then (if less then b else a) else (if less then a else if x.eqv y && !(y.isZero true && x.isZero false) then a else b)

/-- Signed or unsigned minimum or maximum of elements. -/
def iminmax (big sgn : Bool) (w a b : Nat) : Nat :=
  let less := if sgn then decide (selem w a < selem w b) else decide (a < b)
  if big then (if less then b else a) else (if less then a else b)

/-- VMIN or VMAX of a type (R204, R205). -/
def minmaxOp (ty : Nat) (big : Bool) : Nat → Nat → Nat → Nat → EF := fun _ a b _ =>
  (if tyF ty then fminmax (fmtOf ty) big a b else iminmax big true (tyW ty) a b, 0)

/-! ## Arithmetic -/

/-- VADD (R204). -/
def execVadd (f : V3) (s : State) : Host.Outcome State Fault Refusal :=
  vec3 f s false (arith f.ty (frmRnd s) (fun f r a b _ => fadd f r a b) (fun x y _ => x + y))

/-- VSUB (R204). -/
def execVsub (f : V3) (s : State) : Host.Outcome State Fault Refusal :=
  vec3 f s false (arith f.ty (frmRnd s) (fun f r a b _ => fsub f r a b) (fun x y _ => x - y))

/-- VMUL (R204). -/
def execVmul (f : V3) (s : State) : Host.Outcome State Fault Refusal :=
  vec3 f s false (arith f.ty (frmRnd s) (fun f r a b _ => fmul f r a b) (fun x y _ => x * y))

/-- VFMA (R204). -/
def execVfma (f : V3) (s : State) : Host.Outcome State Fault Refusal :=
  vec3 f s true (arith f.ty (frmRnd s) (fun f r a b d => ffma f r a b d) (fun x y z => z + x * y))

/-- VFMS (R204). -/
def execVfms (f : V3) (s : State) : Host.Outcome State Fault Refusal :=
  vec3 f s true (arith f.ty (frmRnd s) (fun f r a b d => ffms f r a b d) (fun x y z => z - x * y))

/-- VMIN (R205). -/
def execVmin (f : V3) (s : State) : Host.Outcome State Fault Refusal := vec3 f s false (minmaxOp f.ty false)

/-- VMAX (R205). -/
def execVmax (f : V3) (s : State) : Host.Outcome State Fault Refusal := vec3 f s false (minmaxOp f.ty true)

/-- VMINN (R204). -/
def execVminn (f : V3) (s : State) : Host.Outcome State Fault Refusal :=
  vec3 f s false (fun _ a b _ => (iminmax false false (tyW f.ty) a b, 0))

/-- VMAXN (R204). -/
def execVmaxn (f : V3) (s : State) : Host.Outcome State Fault Refusal :=
  vec3 f s false (fun _ a b _ => (iminmax true false (tyW f.ty) a b, 0))

/-- VABS (R204): the sign bit is cleared for classes F and E. -/
def execVabs (f : V2) (s : State) : Host.Outcome State Fault Refusal :=
  vec2 f s (fun a =>
    (if tyI f.ty then ielem (tyW f.ty) ((selem (tyW f.ty) a).natAbs : Int) else a % 2 ^ (8 * tyW f.ty - 1), 0))

/-- VNEG (R204): the sign bit is inverted for classes F and E. -/
def execVneg (f : V2) (s : State) : Host.Outcome State Fault Refusal :=
  vec2 f s (fun a =>
    (if tyI f.ty then ielem (tyW f.ty) (-(selem (tyW f.ty) a)) else a ^^^ 2 ^ (8 * tyW f.ty - 1), 0))

/-- VDIV (R206). -/
def execVdiv (f : V3) (s : State) : Host.Outcome State Fault Refusal :=
  vec3 f s false (arith f.ty (frmRnd s) (fun f r a b _ => fdiv f r a b) (fun x _ _ => x))

/-- VSQRT (R206). -/
def execVsqrt (f : V2) (s : State) : Host.Outcome State Fault Refusal := vec2 f s (arithF f.ty (frmRnd s) fsqrt)

/-- VRCP (R206). -/
def execVrcp (f : V2) (s : State) : Host.Outcome State Fault Refusal :=
  vec2 f s (arithF f.ty (frmRnd s) (fun f r a => fdiv f r fOne a))

/-- VRSQ (R206). -/
def execVrsq (f : V2) (s : State) : Host.Outcome State Fault Refusal := vec2 f s (arithF f.ty (frmRnd s) frsq)

/-- VEXP2 (R207). -/
def execVexp2 (f : V2) (s : State) : Host.Outcome State Fault Refusal := vec2 f s (arithF f.ty (frmRnd s) fexp2)

/-! ## Logic, shifts, compares and selection -/

/-- VAND (R208). -/
def execVand (f : V3) (s : State) : Host.Outcome State Fault Refusal := vec3 f s false (fun _ a b _ => (a &&& b, 0))

/-- VOR (R208). -/
def execVor (f : V3) (s : State) : Host.Outcome State Fault Refusal := vec3 f s false (fun _ a b _ => (a ||| b, 0))

/-- VXOR (R208). -/
def execVxor (f : V3) (s : State) : Host.Outcome State Fault Refusal := vec3 f s false (fun _ a b _ => (a ^^^ b, 0))

/-- VSHL (R208): a count of the element's bits or more gives 0. -/
def execVshl (f : V3) (s : State) : Host.Outcome State Fault Refusal :=
  vec3 f s false (fun _ a b _ => (if b < 8 * tyW f.ty then a * 2 ^ b % 2 ^ (8 * tyW f.ty) else 0, 0))

/-- VSHR (R208). -/
def execVshr (f : V3) (s : State) : Host.Outcome State Fault Refusal :=
  vec3 f s false (fun _ a b _ => (if b < 8 * tyW f.ty then a / 2 ^ b else 0, 0))

/-- VSRA (R208). -/
def execVsra (f : V3) (s : State) : Host.Outcome State Fault Refusal :=
  vec3 f s false (fun _ a b _ =>
    (ielem (tyW f.ty) (selem (tyW f.ty) a / ((2 ^ min b (8 * tyW f.ty - 1) : Nat) : Int)), 0))

/-- The pair of lane predicates a compare writes (R209): element by element w bits, inactive elements clear in both. -/
def cmpPair (w n : Nat) (q : Quad) (a b : VReg) (test : Nat → Nat → Bool) : Quad × Quad :=
  let bits := fun (want : Bool) => BitVec.ofNat 128 (packBits w ((List.range n).map (fun j =>
    if active q w j && (test (elem w j a) (elem w j b) == want) then 2 ^ w - 1 else 0)))
  (bits true, bits false)

/-- A compare word (R209). -/
def vcmp (f : VC) (s : State) (test : Nat → Nat → Bool) : Host.Outcome State Fault Refusal :=
  runWord 1 f.g s (fun s => do
    let na ← vaReg s f.va f.lv
    let nb ← vbReg s f.vb f.lv
    let a ← readV s na
    let b ← readV s nb
    let p := cmpPair (tyW f.ty) (tyN f.ty) (readQ s (lvQ f.lv)) a b test
    .ok (setQ (setQ (killV (killV s f.la na) f.lb nb) f.vd p.1) (f.vd + 1) p.2))

/-- A test by the class of its type. -/
def testOf (ty : Nat) (ff : FV → FV → Bool) (fi : Int → Int → Bool) (a b : Nat) : Bool :=
  if tyF ty then ff ((fmtOf ty).decode a) ((fmtOf ty).decode b) else fi (selem (tyW ty) a) (selem (tyW ty) b)

/-- VCMP.EQ (R209). -/
def execVcmpEq (f : VC) (s : State) : Host.Outcome State Fault Refusal :=
  vcmp f s (testOf f.ty FV.eqv (fun x y => decide (x = y)))

/-- VCMP.LT (R209). -/
def execVcmpLt (f : VC) (s : State) : Host.Outcome State Fault Refusal :=
  vcmp f s (testOf f.ty FV.lt (fun x y => decide (x < y)))

/-- VCMP.LE (R209). -/
def execVcmpLe (f : VC) (s : State) : Host.Outcome State Fault Refusal :=
  vcmp f s (testOf f.ty (fun x y => x.lt y || x.eqv y) (fun x y => decide (x ≤ y)))

/-- VCMP.LTN (R209). -/
def execVcmpLtn (f : VC) (s : State) : Host.Outcome State Fault Refusal := vcmp f s (fun a b => decide (a < b))

/-- VCMP.UN (R209). -/
def execVcmpUn (f : VC) (s : State) : Host.Outcome State Fault Refusal :=
  vcmp f s (testOf f.ty (fun x y => x.isNan || y.isNan) (fun _ _ => false))

/-- VSEL (R210): QSEL selects and does not mask. -/
def execVsel (f : V3) (s : State) : Host.Outcome State Fault Refusal :=
  runWord 1 f.g s (fun s => do
    let nd ← vdReg s f.vd f.lv
    let na ← vaReg s f.va f.lv
    let nb ← vbReg s f.vb f.lv
    let a ← readV s na
    let b ← readV s nb
    let w := tyW f.ty
    let q := readQ s (lvQ f.lv)
    .ok (setV (killV (killV s f.la na) f.lb nb) nd
      (ofElems w ((List.range (tyN f.ty)).map (fun j => if active q w j then elem w j a else elem w j b)))))

/-! ## Conversions (R211, R212, Table 3.6) -/

/-- The bounds of an integer destination of w bytes. -/
def intLo (w : Nat) (uns : Bool) : Int := if uns then 0 else -((2 ^ (8 * w - 1) : Nat) : Int)
/-- The greatest value. -/
def intHi (w : Nat) (uns : Bool) : Int := if uns then ((2 ^ (8 * w) : Nat) : Int) - 1 else ((2 ^ (8 * w - 1) : Nat) : Int) - 1

/-- Float to float. -/
def cvtFF (f : Fmt) (r : Rnd) (sat : Bool) (v : FV) : EF :=
  match v with
  | .nan => (f.nanBits, 0)
  | .inf n =>
    if f.noInf then (if sat then (f.withSign n f.maxBits, fSV) else (f.nanBits, fNV)) else (f.withSign n f.infBits, 0)
  | .fin n m e => if m = 0 then (f.withSign n 0, 0) else roundFin f r sat n m e

/-- Float to integer. -/
def cvtFI (w : Nat) (uns : Bool) (r : Rnd) (sat : Bool) (v : FV) : EF :=
  match v with
  | .nan => if sat then (0, fNV ||| fSV) else (ielem w (intLo w uns), fNV)
  | .inf n =>
    if sat then (ielem w (if n then intLo w uns else intHi w uns), fSV ||| fNX) else (ielem w (intLo w uns), fNV)
  | .fin n m e =>
    let i := roundInt r n m e
    if i.1 < intLo w uns ∨ intHi w uns < i.1 then
      (if sat then (ielem w (if i.1 < intLo w uns then intLo w uns else intHi w uns), fSV ||| fNX)
       else (ielem w (intLo w uns), fNV))
    else (ielem w i.1, if i.2 then fNX else 0)

/-- Integer to float. -/
def cvtIF (f : Fmt) (r : Rnd) (sat : Bool) (i : Int) : EF :=
  if i = 0 then (0, 0) else roundFin f r sat (decide (i < 0)) i.natAbs 0

/-- Integer to integer of w bytes. -/
def cvtII (w : Nat) (uns sat : Bool) (i : Int) : EF :=
  if sat && decide (i < intLo w uns ∨ intHi w uns < i) then
    (ielem w (if i < intLo w uns then intLo w uns else intHi w uns), fSV)
  else (ielem w i, 0)

/-- The value of an integer element, signed or not. -/
def intVal (w : Nat) (uns : Bool) (a : Nat) : Int := if uns then (a : Int) else selem w a

/-- One element of VCVT from type ty to dt; g is the element's draw. -/
def cvtElem (ty dt : Nat) (sat alt : Bool) (r : Rnd) (g a : Nat) : EF :=
  if tyI ty then
    let i := intVal (tyW ty) alt a
    if tyI dt then cvtII (tyW dt) alt sat i else cvtIF (fmtOf dt) r sat i
  else
    let v := (fmtOf ty).decode a
    if tyI dt then cvtFI (tyW dt) alt r sat v else cvtFF (fmtOf dt) (if alt then .sr g else r) sat v

/-- One step of the generator of R63: the new state and the draw. -/
def srNext (st : Word) : Word × Nat :=
  let s1 := st ^^^ (st >>> 12)
  let s2 := s1 ^^^ (s1 <<< 25)
  let s3 := s2 ^^^ (s2 >>> 27)
  (s3, ((s3 * 0x2545F4914F6CDD1D#64) >>> 48).toNat)

/-- n draws: the state after them and the draws in order. -/
def srDraws (st : Word) : Nat → Word × List Nat
  | 0 => (st, [])
  | n + 1 =>
    let d := srNext st
    let r := srDraws d.1 n
    (r.1, d.2 :: r.2)

/-- VCVT (R211, R212): stochastic rounding draws once per element, active or not (R62). -/
def execVcvt (f : VCv) (s : State) : Host.Outcome State Fault Refusal :=
  runWord 1 f.g s (fun s => do
    let nd ← vdReg s f.vd f.lv
    let na ← vaReg s f.va f.lv
    let a ← readV s na
    let ws := tyW f.ty
    let wd := tyW f.dt
    let n := 128 / max ws wd
    let sr := f.alt && !tyI f.ty && !tyI f.dt
    let dr := srDraws s.regs.srseed (if sr then n else 0)
    let q := readQ s (lvQ f.lv)
    let d := keepV s nd
    let res := (List.range n).map (fun j =>
      if active q wd j then cvtElem f.ty f.dt f.sat f.alt (frmRnd s) ((dr.2[j]?).getD 0) (elem ws j a)
      else (elem wd j d, 0))
    .ok ((putV (killV s f.la na) nd wd res).modRegs (fun r => { r with srseed := dr.1 })))

/-! ## Moves and permutes (R213) -/

/-- VMOV. -/
def execVmov (f : V2) (s : State) : Host.Outcome State Fault Refusal := vec2 f s (fun a => (a, 0))

/-- A word whose source is a scalar register, element by element. -/
def vecX (f : VX) (s : State) (op : Nat → Nat → Nat) : Host.Outcome State Fault Refusal :=
  runWord 1 f.g s (fun s => do
    let nd ← vdReg s f.vd f.lv
    let x ← readX s f.xa
    let d := keepV s nd
    .ok (putV s nd (tyW f.ty) (vmap (tyW f.ty) (tyN f.ty) (readQ s (lvQ f.lv)) d d d
      (fun j _ _ _ => (op x.toNat j % 2 ^ (8 * tyW f.ty), 0)))))

/-- VBCAST. -/
def execVbcast (f : VX) (s : State) : Host.Outcome State Fault Refusal := vecX f s (fun x _ => x)

/-- VINS: element xb mod N, when it is active. -/
def execVins (f : VXX) (s : State) : Host.Outcome State Fault Refusal :=
  runWord 1 f.g s (fun s => do
    let nd ← vdReg s f.vd f.lv
    let x ← readX s f.xa
    let k ← readX s f.xb
    let d := keepV s nd
    let w := tyW f.ty
    if active (readQ s (lvQ f.lv)) w (k.toNat % tyN f.ty) then
      .ok (putV s nd w (vmap w (tyN f.ty) (readQ s 0) d d d
        (fun j _ _ o => (if j = k.toNat % tyN f.ty then x.toNat % 2 ^ (8 * w) else o, 0))))
    else .ok s)

/-- VEXT. -/
def execVext (f : VE) (s : State) : Host.Outcome State Fault Refusal :=
  runWord 1 f.g s (fun s => do
    let na ← vaReg s f.va f.lv
    let a ← readV s na
    let k ← readX s f.xb
    let e := elem (tyW f.ty) (k.toNat % tyN f.ty) a
    .ok (setX (killV s f.la na) f.xd (if tyI f.ty then wrap64 (selem (tyW f.ty) e) else BitVec.ofNat 64 e)))

/-- A permute: active element j takes the element that pick names of the sources; the old vd is read last (DEDUCED, log entry 29). -/
def vecPerm (f : V3) (s : State) (useD : Bool) (pick : Nat → Nat → VReg → VReg → Nat) :
    Host.Outcome State Fault Refusal :=
  runWord 1 f.g s (fun s => do
    let nd ← vdReg s f.vd f.lv
    let na ← vaReg s f.va f.lv
    let nb ← vbReg s f.vb f.lv
    let a ← readV s na
    let b ← readV s nb
    let d ← if useD then readV s nd else .ok (keepV s nd)
    .ok (putV (killV (killV s f.la na) f.lb nb) nd (tyW f.ty)
      (vmap (tyW f.ty) (tyN f.ty) (readQ s (lvQ f.lv)) a b d (fun _ _ y z => (pick y z a b, 0)))))

/-- VPERM: a[b[j] mod N]. -/
def execVperm (f : V3) (s : State) : Host.Outcome State Fault Refusal :=
  vecPerm f s false (fun y _ a _ => elem (tyW f.ty) (y % tyN f.ty) a)

/-- VSHUF2: by the index held in the old vd. -/
def execVshuf2 (f : V3) (s : State) : Host.Outcome State Fault Refusal :=
  vecPerm f s true (fun _ z a b =>
    let k := z % (2 * tyN f.ty)
    if k < tyN f.ty then elem (tyW f.ty) k a else elem (tyW f.ty) (k - tyN f.ty) b)

/-- A word that moves elements by a scalar distance. -/
def vecMove (f : VAX) (s : State) (src : Nat → Word → VReg → Nat) : Host.Outcome State Fault Refusal :=
  runWord 1 f.g s (fun s => do
    let nd ← vdReg s f.vd f.lv
    let na ← vaReg s f.va f.lv
    let a ← readV s na
    let x ← readX s f.xb
    .ok (putV (killV s f.la na) nd (tyW f.ty)
      (vmap (tyW f.ty) (tyN f.ty) (readQ s (lvQ f.lv)) a a (keepV s nd) (fun j _ _ _ => (src j x a, 0)))))

/-- VROT. -/
def execVrot (f : VAX) (s : State) : Host.Outcome State Fault Refusal :=
  vecMove f s (fun j x a => elem (tyW f.ty) ((j + x.toNat) % tyN f.ty) a)

/-- VSLIDE. -/
def execVslide (f : VAX) (s : State) : Host.Outcome State Fault Refusal :=
  vecMove f s (fun j x a =>
    let k := (j : Int) + x.toInt
    if 0 ≤ k ∧ k < (tyN f.ty : Int) then elem (tyW f.ty) k.toNat a else 0)

/-! ## Reductions and dot products (R65, R214, R215) -/

/-- One level of the pairwise tree; an empty lane yields to its partner. -/
def treeLevel (comb : Nat → Nat → EF) : List (Option EF) → List (Option EF)
  | a :: b :: r =>
    (match a, b with
      | none, y => y
      | x, none => x
      | some x, some y =>
        let z := comb x.1 y.1
        some (z.1, z.2 ||| x.2 ||| y.2)) :: treeLevel comb r
  | l => l

/-- The tree over 2^n lanes. -/
def treeRed (comb : Nat → Nat → EF) (l : List (Option EF)) : Nat → List (Option EF)
  | 0 => l
  | n + 1 => treeRed comb (treeLevel comb l) n

/-- A reduction word: lanes of class F widened to f32, of class I sign-extended to i32. -/
def vred (f : V2) (s : State) (cf ci : Nat → Nat → EF) : Host.Outcome State Fault Refusal :=
  runWord 1 f.g s (fun s => do
    let nd ← vdReg s f.vd f.lv
    let na ← vaReg s f.va f.lv
    let a ← readV s na
    let w := tyW f.ty
    let q := readQ s (lvQ f.lv)
    let lanes := (List.range (tyN f.ty)).map (fun j =>
      if active q w j then
        some ((if tyF f.ty then (roundFV f32 .rne ((fmtOf f.ty).decode (elem w j a))).1
               else ielem 4 (selem w (elem w j a))), (0 : BitVec 6))
      else none)
    let res := ((treeRed (if tyF f.ty then cf else ci) lanes 7).head?.getD none).getD (0, 0)
    let bits := if tyF f.ty && (f32.decode res.1).isNan then f32.nanBits else res.1
    .ok (raiseF (setV (killV s f.la na) nd (BitVec.ofNat 1024 bits)) res.2))

/-- VREDADD. -/
def execVredadd (f : V2) (s : State) : Host.Outcome State Fault Refusal :=
  vred f s (fun a b => fadd f32 (frmRnd s) (f32.decode a) (f32.decode b)) (fun a b => ((a + b) % 2 ^ 32, 0))

/-- VREDMAX. -/
def execVredmax (f : V2) (s : State) : Host.Outcome State Fault Refusal :=
  vred f s (fun a b => (fminmax f32 true a b, 0)) (fun a b => (iminmax true true 4 a b, 0))

/-- VREDMIN. -/
def execVredmin (f : V2) (s : State) : Host.Outcome State Fault Refusal :=
  vred f s (fun a b => (fminmax f32 false a b, 0)) (fun a b => (iminmax false true 4 a b, 0))

/-- A sum of products onto an accumulator, exact and rounded once, with the special cases of R66. -/
def dotFV (r : Rnd) (acc : FV) (ps : List (FV × FV)) : EF :=
  let prods := ps.map (fun p => p.1.mul p.2)
  sumFV f32 r (prods.any Option.isNone) (acc :: prods.filterMap id)

/-- VDOT4; the old vd is read last (DEDUCED, log entry 29). -/
def execVdot4 (f : V3) (s : State) : Host.Outcome State Fault Refusal :=
  runWord 1 f.g s (fun s => do
    let nd ← vdReg s f.vd f.lv
    let na ← vaReg s f.va f.lv
    let nb ← vbReg s f.vb f.lv
    let a ← readV s na
    let b ← readV s nb
    let d ← readV s nd
    let fm := fmtOf f.ty
    .ok (putV (killV (killV s f.la na) f.lb nb) nd 4
      (vmap 4 32 (readQ s (lvQ f.lv)) a b d (fun j _ _ z =>
        let ps := (List.range 4).map (fun k => (elem 1 (4 * j + k) a, elem 1 (4 * j + k) b))
        if f.ty = 5 then
          (ielem 4 (ps.foldl (fun (t : Int) p => t + selem 1 p.1 * selem 1 p.2) (selem 4 z)), 0)
        else dotFV (frmRnd s) (f32.decode z) (ps.map (fun p => (fm.decode p.1, fm.decode p.2)))))))

/-! ## Index, class, count and immediate (R216) -/

/-- VIDX. -/
def execVidx (f : VX) (s : State) : Host.Outcome State Fault Refusal := vecX f s (fun x j => x + j)

/-- The class code of a value (R216). -/
def classCode (f : Fmt) (a : Nat) : Nat :=
  match f.decode a with
  | .nan => 8
  | .inf n => if n then 0 else 7
  | .fin n m _ =>
    if m = 0 then (if n then 3 else 4)
    else if m < 2 ^ f.mb then (if n then 2 else 5)
    else (if n then 1 else 6)

/-- VCLASS. -/
def execVclass (f : V2) (s : State) : Host.Outcome State Fault Refusal := vec2 f s (fun a => (classCode (fmtOf f.ty) a, 0))

/-- The number of one bits in the low n bits of an element. -/
def popcE (v : Nat) : Nat → Nat
  | 0 => 0
  | n + 1 => (if v.testBit n then 1 else 0) + popcE v n

/-- VPOPC. -/
def execVpopc (f : V2) (s : State) : Host.Outcome State Fault Refusal :=
  vec2 f s (fun a => (popcE a (8 * tyW f.ty), 0))

/-- VLIMM. -/
def execVlimm (f : VL) (s : State) : Host.Outcome State Fault Refusal :=
  runWord 1 f.g s (fun s => do
    let nd ← vdReg s f.vd f.lv
    let d := keepV s nd
    let i := sextN 10 f.imm
    .ok (putV s nd (tyW f.ty) (vmap (tyW f.ty) (tyN f.ty) (readQ s (lvQ f.lv)) d d d
      (fun _ _ _ _ => if tyI f.ty then (ielem (tyW f.ty) i, 0) else cvtIF (fmtOf f.ty) .rne false i))))

end Sys2Proof.Machine
end

