-- ==== Sys2Proof/Machine/Matrix.lean ====
section
/-! DEFINITION. The matrix engine (spec/12_isa_matrix.md; spec/03_numbers.md R51 to R56, R66 to R68): descriptors and their
elements, the steps of an MMA, the queue and its order, the six matrix words and the engine's steps. -/

namespace Sys2Proof.Machine

/-! ## Descriptors (R54 to R56) -/

/-- A field of a descriptor (Table 3.3). -/
def TDesc.fld (d : TDesc) (hi lo : Nat) : Nat := bitsHL d.raw.toNat hi lo
/-- FMT. -/
def TDesc.fmt (d : TDesc) : Nat := d.fld 15 12
/-- SPACE: vault virtual memory. -/
def TDesc.vault (d : TDesc) : Bool := d.raw.getLsbD 11
/-- SCALED. -/
def TDesc.scaled (d : TDesc) : Bool := d.raw.getLsbD 10
/-- BASE. -/
def TDesc.base (d : TDesc) : Nat := d.fld 63 16
/-- SCBASE. -/
def TDesc.scbase (d : TDesc) : Nat := d.fld 255 208
/-- RSTRIDE. -/
def TDesc.stride (d : TDesc) : Nat := d.fld 95 64
/-- COLS. -/
def TDesc.cols (d : TDesc) : Nat := d.fld 115 96
/-- ROWS. -/
def TDesc.rows (d : TDesc) : Nat := d.fld 135 116
/-- VCOLS. -/
def TDesc.vcols (d : TDesc) : Nat := d.fld 155 136
/-- VROWS. -/
def TDesc.vrows (d : TDesc) : Nat := d.fld 175 156
/-- BH. -/
def TDesc.bh (d : TDesc) : Nat := d.fld 194 188
/-- BW. -/
def TDesc.bw (d : TDesc) : Nat := d.fld 187 181
/-- CBIDX. -/
def TDesc.cbidx (d : TDesc) : Nat := d.fld 207 195
/-- Whether the format is CB2. -/
def TDesc.cb2 (d : TDesc) : Bool := decide (d.fmt = 8)
/-- The element size, 2 for a CB2 index. -/
def TDesc.size (d : TDesc) : Nat := if d.cb2 then 2 else tyW d.fmt

/-- The formats whose blocks have 32 elements: e4m3, e5m2 and i8. -/
def mxFmt (f : Nat) : Bool := decide (f = 5 ∨ f = 6 ∨ f = 7)

/-- Whether a descriptor is valid: R55's list. TDSET may install the null descriptor, which no other word may name. -/
def TDesc.valid (d : TDesc) : Bool :=
  decide (d.fmt ≤ 8) && (!d.scaled || mxFmt d.fmt || d.cb2) && (d.scaled || !d.cb2)
    && (if d.scaled then decide (d.bh * d.bw = if d.cb2 then 64 else 32) else decide (d.bh = 0 ∧ d.bw = 0))
    && decide (d.vrows ≤ d.rows ∧ d.vcols ≤ d.cols)
    && decide (d.stride % d.size = 0 ∧ (if d.cb2 then d.cols / 8 * 2 else d.cols * d.size) ≤ d.stride)
    && (d.vault || decide (d.base < 2 ^ 19 ∧ d.scbase < 2 ^ 19)) && (d.cb2 || decide (d.cbidx = 0))
    && decide (d.fld 180 176 = 0 ∧ d.fld 9 0 = 0)

/-- Whether element (r, c) is masked. -/
def TDesc.masked (d : TDesc) (r c : Nat) : Bool := decide (d.vrows ≤ r ∨ d.vcols ≤ c)

/-- The address of element (r, c), or of the index that holds it. -/
def TDesc.elAddr (d : TDesc) (r c : Nat) : Nat := d.base + r * d.stride + (if d.cb2 then c / 8 * 2 else c * d.size)

/-- The address of an element's scale. -/
def TDesc.scAddr (d : TDesc) (r c : Nat) : Nat := d.scbase + r / d.bh * ((d.cols + d.bw - 1) / d.bw) + c / d.bw

/-- The byte ranges, by task address, of the unmasked elements of a block of rows from r0 and columns from c0, with their
scales. -/
def TDesc.spans (d : TDesc) (r0 nr c0 nc : Nat) : List (Nat × Nat) :=
  let c1 := min (c0 + nc) d.vcols
  if c1 ≤ c0 then []
  else ((List.range nr).filter (fun i => decide (r0 + i < d.vrows))).flatMap (fun i =>
    let r := r0 + i
    (d.elAddr r c0, d.elAddr r (c1 - 1) + d.size - d.elAddr r c0)
      :: (if d.scaled then [(d.scAddr r c0, d.scAddr r (c1 - 1) + 1 - d.scAddr r c0)] else []))

/-- The lowest address of a list of byte ranges that lies at or past a limit. -/
def spansPast (limit : Nat) (l : List (Nat × Nat)) : Option Nat :=
  (l.filterMap (fun x => if limit < x.1 + x.2 then some (max x.1 limit) else none)).min?

/-- A CB2 weight (R51). A magnitude of zero has no sign, which is the model's choice (log entry 31): R51 says only that it is
zero. -/
def cb2Weight (lat : List (BitVec 32)) (idx j : Nat) : FV :=
  let row := ((lat[idx / 256]?).getD 0).toNat
  let neg := ((List.range 7).filter (fun k => idx.testBit (k + 1))).length
  let s := if j = 7 then decide (neg % 2 = 1) else idx.testBit (j + 1)
  let m := bitsHL row (4 * j + 3) (4 * j)
  if m = 0 then .fin false 0 0 else .fin s m (if idx.testBit 0 then -3 else -2)

/-- The value of an element (R56), with bytes by task address; a masked one is exact zero. The zero of an i8 element, as of a
masked one, is +0, which is the model's choice (log entry 31). -/
def TDesc.elem (d : TDesc) (rd : Nat → Byte) (r c : Nat) : FV :=
  if d.masked r c then .fin false 0 0
  else
    let a := d.elAddr r c
    let v := leNat ((List.range d.size).map (fun i => rd (a + i)))
    if d.cb2 then cb2Weight d.lat v (c % 8)
    else if tyI d.fmt then FV.ofInt (sextN (8 * d.size) v)
    else (fmtOf d.fmt).decode v

/-- The scale of an element (R53): one when there is none. -/
def TDesc.scale (d : TDesc) (rd : Nat → Byte) (r c : Nat) : FV :=
  if d.masked r c || !d.scaled then fOne
  else
    let e := (rd (d.scAddr r c)).toNat
    if e = 255 then .nan else .fin false 1 ((e : Int) - 127)

/-- An element times its scale; a scale is never zero or infinite, so the product is always valid. -/
def TDesc.val (d : TDesc) (rd : Nat → Byte) (r c : Nat) : FV := ((d.elem rd r c).mul (d.scale rd r c)).getD .nan

/-! ## Steps (R66, R67) -/

/-- The K-step of a pair of operands (Table 3.8), when it is one. -/
def pairK (a b : TDesc) : Option Nat :=
  if mxFmt a.fmt && mxFmt b.fmt then some 32
  else if decide ((a.fmt = 1 ∨ a.fmt = 2) ∧ (b.fmt = 1 ∨ b.fmt = 2)) then some 16
  else if a.cb2 && (b.cb2 || (mxFmt b.fmt && b.scaled)) then some 64
  else if b.cb2 && mxFmt a.fmt && a.scaled then some 64
  else none

/-- Whether a pair may work in int32 mode. -/
def pairInt (a b : TDesc) : Bool := decide (a.fmt = 5 ∧ b.fmt = 5) && !a.scaled && !b.scaled

/-- The terms of an element. -/
def terms : List FV → List FV → List (Option FV)
  | a :: as, b :: bs => a.mul b :: terms as bs
  | _, _ => []

/-- An element of an accumulator after an FP32 step. -/
def fpEl (acc : Nat) (as bs : List FV) : EF :=
  let ts := terms as bs
  sumFV f32 .rne (ts.any Option.isNone) (f32.decode acc :: ts.map (fun t => t.getD .nan))

/-- The integer of a value that is one. -/
def FV.toInt : FV → Int
  | .fin n m _ => if n then -(m : Int) else m
  | _ => 0

/-- An element of an accumulator after an int32 step. -/
def intEl (acc : Nat) (as bs : List FV) : EF :=
  let t := (List.zipWith (fun a b => a.toInt * b.toInt) as bs).foldl (· + ·) 0
  ((((acc : Int) + t) % (2 ^ 32 : Nat)).toNat, 0)

/-- An element of an accumulator. -/
def Acc.at (a : Acc) (i j : Nat) : Nat := (ngetD a.el (32 * i + j) 0).toNat

/-- An accumulator from its 1,024 elements by a function. -/
def Acc.build (int32 : Bool) (lost : Option Nat) (l : List Nat) : Acc :=
  { int32 := int32, lost := lost,
    el := ((List.range l.length).zip l).filterMap (fun x => if x.2 = 0 then none else some (x.1, BitVec.ofNat 32 x.2)) }

/-- One step of an MMA on an accumulator, with the flags it raises. -/
def stepAcc (acc : Acc) (a b : TDesc) (rd : Nat → Byte) (ar k kn bc : Nat) : Acc × BitVec 6 :=
  let rows := (List.range 32).map (fun i => (List.range kn).map (fun kk => a.val rd (ar + i) (k + kk)))
  let cols := (List.range 32).map (fun j => (List.range kn).map (fun kk => b.val rd (k + kk) (bc + j)))
  let el := ((List.range 32).zip rows).flatMap (fun r => ((List.range 32).zip cols).map (fun c =>
    if acc.int32 then intEl (acc.at r.1 c.1) r.2 c.2 else fpEl (acc.at r.1 c.1) r.2 c.2))
  (Acc.build acc.int32 acc.lost (el.map (·.1)), orFlags el)

/-! ## Coordinates and names -/

/-- The accumulator that a matrix instruction names. -/
def MxOp.acc : MxOp → Nat
  | .mma f => f.acc
  | .mzero f => f.acc
  | .mldacc f => f.acc
  | .mstacc f => f.acc
  | .msend f _ => f.acc

/-- The flag of a matrix instruction. -/
def MxOp.flag : MxOp → Option Nat
  | .mma f => some f.fn
  | .mzero _ => none
  | .mldacc f => some f.fn
  | .mstacc f => some f.fn
  | .msend _ _ => none

/-- The descriptors that a matrix instruction names. -/
def MxOp.descs : MxOp → List Nat
  | .mma f => [f.p, f.q]
  | .mldacc f => [f.t]
  | .mstacc f => [f.t]
  | _ => []

/-- A descriptor of a plane. -/
def Regs.td (r : Regs) (n : Nat) : TDesc := (r.t[n]?).getD {}

/-- An accumulator as an instruction of the speculation (sp) or an earlier one sees it (R267). -/
def accOf (pl : Plane) (sp : Bool) (a : Nat) : Acc :=
  let own := (pl.regs.acc[a]?).getD {}
  match sp, pl.spec with
  | true, some x => ngetD x.shadow a own
  | _, _ => own

/-- Writes an accumulator, or its shadow. -/
def putAcc (pl : Plane) (sp : Bool) (a : Nat) (v : Acc) : Plane :=
  match sp, pl.spec with
  | true, some x => { pl with spec := some { x with shadow := nset x.shadow a v } }
  | _, _ => { pl with regs := { pl.regs with acc := pl.regs.acc.setIfInBounds a v } }

/-- Writes an accumulator; an instruction issued before the speculation, a follow-on that fires in it, acts on the shadow that
replaces its accumulator at the commit as well (R44, R110). -/
def putBoth (pl : Plane) (sp : Bool) (a : Nat) (v : Acc) (f : Acc → Acc) : Plane :=
  let pl := putAcc pl sp a v
  if sp then pl
  else { pl with spec := pl.spec.map (fun x => { x with shadow := x.shadow.map (fun e => if e.1 = a then (a, f e.2) else e) }) }

/-- FFLAGS of a matrix instruction (R58): those of one issued before an open speculation outlast a rollback. -/
def raiseMx (pl : Plane) (sp : Bool) (f : BitVec 6) : Plane :=
  { pl with regs := { pl.regs with fflags := pl.regs.fflags ||| f },
            spec := pl.spec.map (fun x => if sp then x else { x with early := x.early ||| f }) }

/-- The mode that accA will have when an instruction issued now is performed (R260). -/
def modeAhead (pl : Plane) (a : Nat) : Bool :=
  let now := (accOf pl true a).int32
  pl.mx.foldl (fun m e => match e.op with
    | .mzero f => if f.acc = a then f.mode else m
    | .mldacc f => if f.acc = a then decide ((pl.regs.td f.t).fmt = 3 ∨ (pl.regs.td f.t).fmt = 4 ∨ (pl.regs.td f.t).fmt = 5) else m
    | _ => m) now

/-! ## Checks at issue (R254, R260) -/

/-- Alignment of a tile-store tensor's BASE. -/
def needTensor (d : TDesc) : Chk Unit :=
  if d.vault then .ok () else need (decide (d.base % d.size = 0)) cALIGN (BitVec.ofNat 64 d.base)

/-- Every byte of a list of ranges lies in the task's range. -/
def needSpans (s : State) (l : List (Nat × Nat)) : Chk Unit :=
  match spansPast (tsLimit s) l with
  | some a => trapW cTSBOUND (BitVec.ofNat 64 a)
  | none => .ok ()

/-- The ranges that an MMA reads. -/
def mmaSpans (a b : TDesc) (kn n : Nat) (x : Word) : List (Nat × Nat) :=
  (if a.vault then [] else a.spans (xcArow x) 32 (xcKorg x) (n * kn))
    ++ (if b.vault then [] else b.spans (xcKorg x) (n * kn) (xcBcol x) 32)

/-- A matrix word that names a marked accumulator traps MRES (R68, R261). -/
def needAcc (s : State) (a : Nat) : Chk Unit :=
  match (accOf s.ctx true a).lost with
  | some fn => .error (.trap { cause := cMRES, detail := fn, info := BitVec.ofNat 64 ((s.regs.fl fn).status.toNat / 2 ^ 64), acc := some a })
  | none => .ok ()

/-- Alignment of an MMA's tensors. -/
def mmaAligned (s : State) (f : MMm) : Chk Unit := do
  let _ ← needTensor (s.regs.td f.p)
  needTensor (s.regs.td f.q)

/-- Range of an MMA's tensors, with a coordinate value. -/
def mmaInRange (s : State) (f : MMm) (x : Word) : Chk Unit :=
  match pairK (s.regs.td f.p) (s.regs.td f.q) with
  | some kn => needSpans s (mmaSpans (s.regs.td f.p) (s.regs.td f.q) kn (xcSteps x) x)
  | none => .ok ()

/-- What else an MMA must meet at issue (R259, R260); i is the word that MTINFO holds. -/
def mmaAllowed (s : State) (f : MMm) (x : Word) (i : Instr) : Chk Unit := do
  let a := s.regs.td f.p
  let b := s.regs.td f.q
  let _ ← (if a.raw = 0 ∨ b.raw = 0 ∨ a.vault = true ∨ b.vault = true then illegal i else .ok ())
  let _ ← (if (pairK a b).isNone then illegal i else .ok ())
  let _ ← (if modeAhead s.ctx f.acc && !pairInt a b then illegal i else .ok ())
  let _ ← (if (a.cb2 && decide (xcKorg x % 8 ≠ 0)) || (b.cb2 && decide (xcBcol x % 8 ≠ 0)) then illegal i else .ok ())
  needAcc s f.acc

/-- The issue checks of an MMA with a coordinate value, in the order of R169. -/
def checkMma (s : State) (f : MMm) (x : Word) (i : Instr) : Chk Unit := do
  let _ ← mmaAligned s f
  let _ ← mmaInRange s f x
  mmaAllowed s f x i

/-- The issue checks of MLDACC and MSTACC. -/
def checkMove (s : State) (f : MTa) (x : Word) (i : Instr) : Chk Unit := do
  let d := s.regs.td f.t
  let _ ← needTensor d
  let _ ← (if d.vault then .ok () else needSpans s (({ d with raw := d.raw &&& ~~~(1#256 <<< 10) } : TDesc).spans (xcArow x) 32 (xcKorg x) 32))
  let _ ← (if d.raw = 0 ∨ d.vault = true then illegal i else .ok ())
  let _ ← (if d.cb2 || d.scaled then illegal i else .ok ())
  needAcc s f.acc

/-! ## The queue -/

/-- An access of the matrix engine has ended: a later one sees what copies wrote during it (R96, R97). -/
def mxSettled (s : State) (r : Nat) : State :=
  s.modTile r (fun t => { t with stale := orderUpTo (fun e => decide (e.path = pathC)) pathX t.stale })

/-- Accepts a matrix instruction (R255). -/
def mxPush (s : State) (r p : Nat) (e : Mx) : State :=
  mxKick ((if (s.plane r p).mx.isEmpty then mxSettled s r else s).modPlane r p (fun pl => { pl with mx := pl.mx ++ [e] })) r p

/-- The physical address of task address 0 for an instruction of a plane (R19, R288); a resumed task may stand elsewhere. -/
def Plane.mxBase (pl : Plane) (e : Mx) : Nat := if e.mon then 0 else pl.regs.tsbase

/-- Accepts a matrix word of the current context: its flag is bound. -/
def mxIssue (s : State) (op : MxOp) (x : Word) : State :=
  let (id, s) := freshId s
  let s := match op.flag with
    | some fn => bindFlag s fn id
    | none => s
  mxPush s s.cur s.ctxP { id := id, op := op, xv := x, mon := s.mon, spec := specOpen s }

/-- Room in the queue: 8 accepted instructions. -/
def needMx (s : State) : Chk Unit := orStall (decide (s.ctx.mx.length < 8))

/-- The record of a matrix operation (Table 12.5). -/
def mxRecord (st fc length acc : Nat) : Quad :=
  RecF.bits { status := st, kind := 8, fcode := fc, length := length, aux := acc }

/-- Completes the flag of a matrix instruction. -/
def mxFlag (s : State) (r p : Nat) (e : Mx) (st fc length : Nat) : State :=
  match e.op.flag with
  | some fn => completeFlag s r p fn e.id (mxRecord st fc length e.op.acc)
  | none => s

/-- Ends a send of an MSEND that is not performed: its stream numbers are abandoned. -/
def cancelSend (s : State) (r p sid fc : Nat) : State :=
  onSend s r p sid (fun s sd =>
    let s := sd.copies.foldl (fun s c => if sd.numbered && c.fin.isNone then emitAbandon s r p sd c else s) s
    withSend s r sid (fun sd =>
      { sd with numbered := true, copies := sd.copies.map (fun c => if c.fin.isSome then c else c.finish stCANCELLED fc) }))

/-- Takes an accepted instruction out unperformed (R68, R265). -/
def mxCancel (s : State) (r p : Nat) (e : Mx) (fc : Nat) : State :=
  let s := s.modPlane r p (fun pl => { pl with mx := pl.mx.filter (fun x => decide (x.id ≠ e.id)) })
  let s := mxFlag (mxSettled s r) r p e stCANCELLED fc 0
  match e.op with
  | .msend _ sid => pumpSends (cancelSend s r p sid fc) r p
  | _ => s

/-- Ends the instruction at the head of the queue; the next one may start. -/
def mxDone (s : State) (r p : Nat) (e : Mx) (st fc length : Nat) : State :=
  let s := s.modPlane r p (fun pl => { pl with mx := pl.mx.filter (fun x => decide (x.id ≠ e.id)) })
  mxKick (mxFlag (mxSettled s r) r p e st fc length) r p

/-- Replaces an entry of the queue. -/
def putMx (s : State) (r p : Nat) (e : Mx) : State :=
  s.modPlane r p (fun pl => { pl with mx := pl.mx.map (fun x => if x.id = e.id then e else x) })

/-! ## Engine accesses -/

/-- What the ranges of an engine's reads or writes meet: a drain, a window or a locked unit to wait for, or a faulted window
(R44, R96, R98). -/
def spansGate (s : State) (r p base skip : Nat) (reads : Bool) (l : List (Nat × Nat)) : WinSt :=
  if draining s r then .wait
  else l.foldl (fun w x => match w with
    | .clear => (if reads then readTile else winTile) (s.tile r) p (base + x.1) x.2 skip
    | w => w) .clear

/-- Notes the reads of an engine access: tracked lines for one of the speculation, and the bytes seen. -/
def spansSeen (s : State) (r p path base : Nat) (sp : Bool) (l : List (Nat × Nat)) : State :=
  l.foldl (fun s x => tsSeen (if sp then track s r p (base + x.1) x.2 else s) r path (base + x.1) x.2) s

/-- An engine that stalls for want of escrow counts once in STALLS (R44). -/
def engStall (s : State) (r p : Nat) : State :=
  s.modPlane r p (fun pl =>
    match pl.spec with
    | some sp => if sp.engCounted then pl
      else { pl with spec := some { sp with engCounted := true }, regs := { pl.regs with specst := bumpSpecst pl.regs.specst 48 } }
    | none => pl)

/-- An engine's write of bytes: to escrow under the speculation, else to the tile store. -/
def engWrite (s : State) (r p path op : Nat) (sp : Bool) (a : Nat) (b : List Byte) : State :=
  if sp && (s.plane r p).spec.isSome then escStore s r p a b else tsStore s r path op a b

/-- Whether escrow has room for a list of ranges by physical address. -/
def escRoomAll (pl : Plane) (l : List (Nat × Nat)) : Bool :=
  match pl.spec with
  | none => true
  | some sp =>
    let lines := (l.flatMap (fun x => if x.2 = 0 then [] else
      (List.range ((x.1 + x.2 - 1) / 64 + 1 - x.1 / 64)).map (x.1 / 64 + ·))).dedup
    decide (sp.escrow.length + (lines.filter (fun k => !(sp.escrow.any (fun e => decide (e.1 = k))))).length ≤ 256)

/-! ## The words -/

/-- The clip of TDSET's ER and EC (R257). -/
def clip (g p b : Nat) : Nat := if p * b < g then g - p * b else 0

/-- The descriptor that TDSET installs, after the clips. -/
def clipped (s : State) (f : MTd) (d : TDesc) : TDesc :=
  let g := s.regs.geom.toNat
  let x := s.regs.gridpos % 2 ^ 16
  let y := bitsHL s.regs.gridpos 31 16
  let v := d.raw.toNat
  let v := if f.er then putBits v 175 156 (min d.vrows (clip (bitsHL g 31 16) y (bitsHL g 63 48))) else v
  let v := if f.ec then putBits v 155 136 (min d.vcols (clip (bitsHL g 15 0) x (bitsHL g 47 32))) else v
  { d with raw := BitVec.ofNat 256 v }

/-- Whether an accepted instruction, a follow-on that has not issued included, or an accepted copy names descriptor n (R255,
R268). -/
def descBusy (pl : Plane) (n : Nat) : Bool :=
  pl.mx.any (fun e => e.op.descs.contains n)
    || (List.range 4).any (fun k => ((pl.chan[k]?).getD []).any (fun c =>
        (c.follow.map (fun x => decide (x.1.p = n ∨ x.1.q = n))).getD false))
    || (List.range 4).any (fun k => ((pl.chan[k]?).getD []).any (fun c =>
        c.blk.getLsbD 40 && decide (c.blk.extractLsb' 36 4 = BitVec.ofNat 4 n ∨ (c.blk.extractLsb' 36 4 + 1#4) = BitVec.ofNat 4 n)))

/-- Installs a descriptor. -/
def setTd (s : State) (n : Nat) (d : TDesc) : State := s.modRegs (fun r => { r with t := r.t.setIfInBounds n d })

/-- TDSET (R257). -/
def execTdset (f : MTd) (s : State) : Host.Outcome State Fault Refusal :=
  runWord 2 f.g s (fun s => do
    let _ ← orStall (!descBusy s.ctx f.n)
    let x ← readX s f.xa
    let t := taskAddr x (f.off.sval 9 8 * 32)
    let _ ← needAlign t 32
    let _ ← needRange s t 32
    let (b, s) ← mRead s t 32
    let d : TDesc := { raw := BitVec.ofNat 256 (leNat b) }
    let _ ← (if d.valid then .ok () else illegal (.tdset f))
    if d.cb2 then do
      let _ ← needRange s (64 * d.cbidx) 1024
      let _ ← noSpec s
      let (l, s) ← mRead s (64 * d.cbidx) 1024
      .ok (setTd s f.n { clipped s f d with lat := (words4 l).map (BitVec.ofNat 32) })
    else .ok (setTd s f.n (clipped s f d)))

/-- MMA (R259, R260). -/
def execMma (f : MMm) (s : State) : Host.Outcome State Fault Refusal :=
  runWord 2 f.g s (fun s => do
    let _ ← freeFlag s f.fn
    let x ← readX s f.xc
    let _ ← checkMma s f x (.mma f)
    let _ ← needMx s
    .ok (mxIssue s (.mma f) x))

/-- MZERO (R258). -/
def execMzero (f : MZ) (s : State) : Host.Outcome State Fault Refusal :=
  runWord 2 f.g s (fun s => do
    let _ ← needAcc s f.acc
    let _ ← needMx s
    .ok (mxIssue s (.mzero f) 0))

/-- MLDACC (R262). -/
def execMldacc (f : MTa) (s : State) : Host.Outcome State Fault Refusal :=
  runWord 2 f.g s (fun s => do
    let _ ← freeFlag s f.fn
    let x ← readX s f.xc
    let _ ← checkMove s f x (.mldacc f)
    let _ ← needMx s
    .ok (mxIssue s (.mldacc f) x))

/-- MSTACC (R263). -/
def execMstacc (f : MTa) (s : State) : Host.Outcome State Fault Refusal :=
  runWord 2 f.g s (fun s => do
    let _ ← freeFlag s f.fn
    let x ← readX s f.xc
    let _ ← checkMove s f x (.mstacc f)
    let _ ← needMx s
    .ok (mxIssue s (.mstacc f) x))

/-- Whether a send may be held: at most 16 (Table 2.6). -/
def heldRoom (s : State) : Chk Unit :=
  orStall (!specOpen s || decide ((s.ctx.sends.filter (fun sd => sd.spec)).length < 16))

/-- The send of an MSEND (R264): its payload comes with the snapshot. -/
def msendSend (s : State) (f : MMs) (x : Word) (id : Nat) : Send :=
  let rt := (s.regs.route[f.n]?).getD 0
  let n := 1024 * tyW f.ty
  { id := id, kind := 6, flag := some f.fn, group := rt / 2 ^ 24 % 256, tag := x.toNat % 65536, len := n, bytes := n, addr := 0,
    copies := [{ dst := rt % 2 ^ 24, seq := 0 }], eager := decide (n ≤ s.ctx.task.eager), ready := false,
    paired := !s.ctx.task.dual, spec := specOpen s, mv := s.ctx.task.bgroups, pv := phaseVec s.regs, acc := f.acc }

/-- A send of the context plane enters the message engine; in a DUAL pair it waits for the partner's (R46), an MSEND from its
snapshot on (R269). -/
def addSend (s : State) (sd : Send) : State :=
  let s := s.modCtx (fun pl => { pl with sends := pl.sends ++ [sd] })
  let p := s.ctxP
  let s := if s.ctx.task.dual && !sd.spec && decide (sd.kind ≠ 6) then pushDual s s.cur p (.send sd.id) else s
  pumpSends s s.cur p

/-- MSEND (R264). -/
def execMsend (f : MMs) (s : State) : Host.Outcome State Fault Refusal :=
  runWord 2 f.g s (fun s => do
    let _ ← freeFlag s f.fn
    let x ← readX s f.xt
    let _ ← (if x.toNat % 65536 = 0xFFFF then illegal (.msend f) else .ok ())
    let _ ← needAcc s f.acc
    let _ ← needMx s
    let _ ← heldRoom s
    let (id, s) := freshId s
    let s := addSend (bindFlag s f.fn id) (msendSend s f x id)
    .ok (mxPush s s.cur s.ctxP { id := id, op := .msend f id, xv := x, mon := s.mon, spec := specOpen s }))

/-! ## The engine's steps -/

/-- The end of an MMA by a residue failure (R68, R261): its record, the loss mark, and what else is not performed. -/
def mmaLost (s : State) (r p : Nat) (e : Mx) (f : MMm) : State :=
  let s := s.modPlane r p (fun pl =>
    let pl := putBoth pl e.spec f.acc { accOf pl e.spec f.acc with lost := some f.fn } (fun a => { a with lost := some f.fn })
    { pl with chan := pl.chan.map (fun l => l.map (fun c => match c.follow with
        | some (g, _) => if g.acc = f.acc then { c with followCancel := true } else c
        | none => c)) })
  let s := ((s.plane r p).mx.filter (fun x => decide (x.id ≠ e.id ∧ x.op.acc = f.acc))).foldl (fun s x => mxCancel s r p x fcMRES) s
  mxDone (s.modPlane r p (fun pl => raiseMx pl e.spec e.flags)) r p e stFAULT fcMRES e.step

/-- A residue mismatch: counted in the tile's health entry, in the summary and against RESLIM (R68, R337, R339). -/
def residueRetry (s : State) (r : Nat) : State :=
  let pkg := pkgOf r
  let e := healthEntry (epOf r)
  let s := countUp (s.modPkg pkg (fun p => p.bumpHealth e 47 32)) pkg 0
  countWindow s pkg e (bitsHL ((s.pkg pkg).reg 8) 31 16) 4

/-- MMA_STEP (R66 to R68, R261). bad says how the residue check comes out. -/
def mmaStepAt (s : State) (r p bad : Nat) : State :=
  let pl := s.plane r p
  match pl.mx.head? with
  | some ({ op := .mma f, .. }) =>
    let e := (pl.mx.head?).getD default
    if pl.halted && !e.started then s
    else if xcSteps e.xv ≤ e.step then mxKick s r p
    else
      let a := pl.regs.td f.p
      let b := pl.regs.td f.q
      let kn := (pairK a b).getD 32
      let k := xcKorg e.xv + e.step * kn
      let spans := a.spans (xcArow e.xv) 32 k kn ++ b.spans k kn (xcBcol e.xv) 32
      match spansGate s r p (pl.mxBase e) 4 true spans with
      | .wait => mxKick (putMx s r p { e with started := true }) r p
      | .faulted _ => mxDone (s.modPlane r p (fun pl => raiseMx pl e.spec e.flags)) r p e stFAULT fcENGFAULT e.step
      | .clear =>
        let go := fun acc => stepAcc acc a b (fun t => tsByte s r p pathX (pl.mxBase e + t)) (xcArow e.xv) k kn (xcBcol e.xv)
        let x := go (accOf pl e.spec f.acc)
        let s := mxSettled (spansSeen s r p pathX (pl.mxBase e) e.spec spans) r
        let s := if bad = 0 then s else residueRetry s r
        if bad = 2 then mmaLost s r p e f
        else
          let e := { e with started := true, step := e.step + 1, flags := e.flags ||| x.2 }
          let s := putMx (s.modPlane r p (fun pl => putBoth pl e.spec f.acc x.1 (fun a => (go a).1))) r p e
          mxKick s r p
  | _ => s

/-- MMA_STEP. -/
def execMmaStep (rank plane bad : Nat) (s : State) : Host.Outcome State Fault Refusal :=
  runEvent (Instr.mmaStep rank plane bad).wf s (fun s => mmaStepAt s rank plane bad)

/-- The elements of an accumulator that MLDACC loads (R262, Table 12.3). -/
def loadAcc (d : TDesc) (rd : Nat → Byte) (r0 c0 : Nat) (lost : Option Nat) : Acc :=
  let isInt := tyI d.fmt
  Acc.build isInt lost ((List.range 1024).map (fun n =>
    let r := r0 + n / 32
    let c := c0 + n % 32
    let v := d.elem rd r c
    if isInt then (v.toInt % (2 ^ 32 : Nat)).toNat else (roundFV f32 .rne v).1))

/-- An accumulator's element converted for MSTACC and MSEND (Table 12.4). -/
def accOut (a : Acc) (ty : Nat) (sat : Bool) (n : Nat) : EF :=
  cvtElem (if a.int32 then 3 else 0) ty sat false .rne 0 (ngetD a.el n 0).toNat

/-- The unmasked elements of a 32 × 32 block. -/
def TDesc.open32 (d : TDesc) (r0 c0 : Nat) : List Nat :=
  (List.range 1024).filter (fun n => !d.masked (r0 + n / 32) (c0 + n % 32))

/-- Performs the MLDACC at the head of the queue (R262). -/
def mldaccAt (s : State) (r p : Nat) (e : Mx) (f : MTa) : State :=
  let pl := s.plane r p
  let d := pl.regs.td f.t
  let spans := d.spans (xcArow e.xv) 32 (xcKorg e.xv) 32
  match spansGate s r p (pl.mxBase e) 4 true spans with
  | .wait => mxKick (putMx s r p { e with started := true }) r p
  | .faulted _ => mxDone s r p e stFAULT fcENGFAULT 0
  | .clear =>
    let a := loadAcc d (fun t => tsByte s r p pathX (pl.mxBase e + t)) (xcArow e.xv) (xcKorg e.xv) (accOf pl e.spec f.acc).lost
    let s := (spansSeen s r p pathX (pl.mxBase e) e.spec spans).modPlane r p (fun pl => putAcc pl e.spec f.acc a)
    mxDone s r p e stOK 0 (d.open32 (xcArow e.xv) (xcKorg e.xv)).length

/-- Performs the MSTACC at the head of the queue (R263). -/
def mstaccAt (s : State) (r p : Nat) (e : Mx) (f : MTa) : State :=
  let pl := s.plane r p
  let d := pl.regs.td f.t
  let spans := d.spans (xcArow e.xv) 32 (xcKorg e.xv) 32
  let phys := spans.map (fun x => (pl.mxBase e + x.1, x.2))
  match spansGate s r p (pl.mxBase e) 4 false spans with
  | .wait => mxKick (putMx s r p { e with started := true }) r p
  | .faulted _ => mxDone s r p e stFAULT fcENGFAULT 0
  | .clear =>
    if phys.any (fun x => guarded s r x.1 x.2) then mxKick (putMx s r p { e with started := true }) r p
    else if e.spec && !escRoomAll pl phys then mxKick (putMx (engStall s r p) r p { e with started := true }) r p
    else
      let els := d.open32 (xcArow e.xv) (xcKorg e.xv)
      let acc := accOf pl e.spec f.acc
      let x := els.foldl (fun (x : State × BitVec 6) n =>
        let v := accOut acc d.fmt f.sat n
        (engWrite x.1 r p pathX e.id e.spec (pl.mxBase e + d.elAddr (xcArow e.xv + n / 32) (xcKorg e.xv + n % 32)) (leBytes d.size v.1),
         x.2 ||| v.2)) (s, 0)
      mxDone (x.1.modPlane r p (fun pl => raiseMx pl e.spec x.2)) r p e stOK 0 els.length

/-- MATRIX_OP_COMPLETE (R258, R261 to R263, R265). -/
def matrixComplete (s : State) (r p : Nat) : State :=
  let pl := s.plane r p
  match pl.mx.head? with
  | none => s
  | some e =>
    if pl.halted && !e.started then s
    else
      match e.op with
      | .mma _ =>
        if e.started && decide (xcSteps e.xv ≤ e.step) then
          mxDone (s.modPlane r p (fun pl => raiseMx pl e.spec e.flags)) r p e stOK 0 e.step
        else s
      | .mzero f =>
        mxDone (s.modPlane r p (fun pl => putAcc pl e.spec f.acc { int32 := f.mode, lost := (accOf pl e.spec f.acc).lost })) r p e stOK 0 0
      | .mldacc f => mldaccAt s r p e f
      | .mstacc f => mstaccAt s r p e f
      | .msend _ _ => s

/-- MATRIX_OP_COMPLETE. -/
def execMatrixOpComplete (rank plane : Nat) (s : State) : Host.Outcome State Fault Refusal :=
  runEvent (Instr.matrixOpComplete rank plane).wf s (fun s => matrixComplete s rank plane)

/-- MSEND_SNAPSHOT (R264): the send stage takes the converted elements, and the message may go. An earlier MSEND of the
accumulator that still holds the stage is waited for. -/
def snapshotAt (s : State) (r p : Nat) : State :=
  let pl := s.plane r p
  match pl.mx.head? with
  | some ({ op := .msend f sid, .. }) =>
    let e := (pl.mx.head?).getD default
    if pl.halted && !e.started then s
    else if pl.sends.any (fun sd => decide (sd.kind = 6 ∧ sd.acc = f.acc ∧ sd.id ≠ sid) && sd.held) then mxKick s r p
    else
      let a := accOf pl e.spec f.acc
      let out := (List.range 1024).map (accOut a f.ty f.sat)
      let s := s.modPlane r p (fun pl =>
        raiseMx { pl with sends := pl.sends.map (fun sd => if sd.id = sid then
          { sd with payload := out.flatMap (fun x => leBytes (tyW f.ty) x.1), held := true, ready := true } else sd) }
          e.spec (orFlags out))
      let s := if pl.task.dual && !e.spec then pushDual s r p (.send sid) else s
      pumpSends (mxDone s r p e stOK 0 0) r p
  | _ => s

/-- MSEND_SNAPSHOT. -/
def execMsendSnapshot (rank plane : Nat) (s : State) : Host.Outcome State Fault Refusal :=
  runEvent (Instr.msendSnapshot rank plane).wf s (fun s => snapshotAt s rank plane)

end Sys2Proof.Machine
end

