-- ==== Sys2Proof/Machine/Copy.lean ====
section
/-! DEFINITION. The copy engine (spec/06_vaults.md R120 to R122; spec/11_isa_memory.md R226 to R229; spec/05_memory_model.md
R96 to R99): parameter blocks and their checks, the four copy words, and the engine's steps. -/

namespace Sys2Proof.Machine

/-! ## Parameter blocks (Table 6.7) -/

/-- A field of a block. -/
def CopyCmd.fld (c : CopyCmd) (hi lo : Nat) : Nat := bitsHL c.blk.toNat hi lo
/-- DSPACE. -/
def CopyCmd.dvault (c : CopyCmd) : Bool := c.blk.getLsbD 26
/-- SSPACE. -/
def CopyCmd.svault (c : CopyCmd) : Bool := c.blk.getLsbD 27
/-- CHAN. -/
def CopyCmd.ch (c : CopyCmd) : Nat := c.fld 29 28
/-- TEN. -/
def CopyCmd.ten (c : CopyCmd) : Bool := c.blk.getLsbD 40
/-- ARREN. -/
def CopyCmd.arr (c : CopyCmd) : Bool := c.blk.getLsbD 35
/-- ARRGRP. -/
def CopyCmd.grp (c : CopyCmd) : Nat := c.fld 34 33
/-- LEN0. -/
def CopyCmd.len0 (c : CopyCmd) : Nat := c.fld 399 384
/-- CNTk. -/
def CopyCmd.cnt (c : CopyCmd) (k : Nat) : Nat := c.fld (64 * k + 63) (64 * k + 48)
/-- SSTRk. -/
def CopyCmd.sstr (c : CopyCmd) (k : Nat) : Int := sextN 24 (c.fld (64 * k + 47) (64 * k + 24))
/-- DSTRk. -/
def CopyCmd.dstr (c : CopyCmd) (k : Nat) : Int := sextN 24 (c.fld (64 * k + 23) (64 * k))
/-- SRC. -/
def CopyCmd.src (c : CopyCmd) : Nat := c.fld 447 400
/-- DST. -/
def CopyCmd.dst (c : CopyCmd) : Nat := c.fld 495 448

/-- The source descriptor of a tensor copy. -/
def CopyCmd.tsrc (c : CopyCmd) (r : Regs) : TDesc := r.td (c.fld 39 36)
/-- The destination descriptor. -/
def CopyCmd.tdst (c : CopyCmd) (r : Regs) : TDesc := r.td ((c.fld 39 36 + 1) % 16)

/-- The bytes of n columns of a tensor's row. A CB2 index of which the descriptor masks some weights alone is moved whole (DESIGN
CHOICE, log entry 51). -/
def TDesc.rowLen (d : TDesc) (n : Nat) : Nat := if d.cb2 then (n + 7) / 8 * 2 else n * d.size
/-- The columns that n bytes of a row hold. -/
def TDesc.colsOf (d : TDesc) (n : Nat) : Nat := if d.cb2 then n / 2 * 8 else n / d.size
/-- The scale bytes of n columns in one band of BH rows. -/
def TDesc.scLen (d : TDesc) (n : Nat) : Nat := (n + d.bw - 1) / d.bw

/-- What a tensor copy writes of its destination (R56, R121): VROWS rows of row bytes in bands of bh rows, each band with sc
scale bytes. Masked elements are not written. -/
structure TLay where
  d : TDesc
  rows : Nat
  row : Nat
  sc : Nat
  deriving DecidableEq, Repr

/-- That of a destination. -/
def TDesc.lay (d : TDesc) : TLay :=
  { d := d, rows := if d.vcols = 0 then 0 else d.vrows, row := d.rowLen d.vcols, sc := d.scLen d.vcols }

/-- The bytes of a whole band with its scales. -/
def TLay.band (l : TLay) : Nat := l.d.bh * l.row + l.sc

/-- The element bytes of band b. -/
def TLay.els (l : TLay) (b : Nat) : Nat := min l.d.bh (l.rows - b * l.d.bh) * l.row

/-- The scale bytes that go with the first j pieces of 16 KiB of a band (R98): those of the blocks whose first element lies in
them (log entry 51). -/
def TLay.scTo (l : TLay) (j : Nat) : Nat := min l.sc (l.d.scLen (l.d.colsOf (16384 * j)))

/-- Where piece j of a band of e element bytes begins in it. -/
def TLay.pieceOff (l : TLay) (e j : Nat) : Nat := min e (16384 * j) + l.scTo j

/-- A place in a tensor copy: its band and piece, whether it is a scale byte, and the element and scale bytes of the band that
come before it. -/
structure TPos where
  band : Nat
  piece : Nat
  scale : Bool
  el : Nat
  sc : Nat
  deriving DecidableEq, Repr

/-- The place of byte i of a tensor copy: bands in ascending order, cut into pieces, each piece's elements before its scales. -/
def TLay.pos (l : TLay) (i : Nat) : TPos :=
  let b := i / l.band
  let o := i % l.band
  let e := l.els b
  let j := (((List.range (e / 16384 + 1)).filter (fun j => decide (l.pieceOff e j ≤ o))).getLast?).getD 0
  let x := o - l.pieceOff e j
  let n := min e (16384 * (j + 1)) - min e (16384 * j)
  if x < n then { band := b, piece := j, scale := false, el := 16384 * j + x, sc := l.scTo j }
  else { band := b, piece := j, scale := true, el := min e (16384 * (j + 1)), sc := l.scTo j + (x - n) }

/-- The address of element byte k of band b of a tensor with rows of row bytes. -/
def TDesc.elByte (d : TDesc) (row b k : Nat) : Nat := d.base + (b * d.bh + k / row) * d.stride + k % row

/-- The address of scale byte k of band b. -/
def TDesc.scByte (d : TDesc) (b k : Nat) : Nat := d.scbase + b * d.scLen d.cols + k

/-- The bytes that a copy moves. -/
def CopyCmd.total (c : CopyCmd) (r : Regs) : Nat :=
  if c.ten then
    let l := (c.tdst r).lay
    l.rows / l.d.bh * l.band + (if l.rows % l.d.bh = 0 then 0 else l.rows % l.d.bh * l.row + l.sc)
  else c.len0 * c.cnt 1 * c.cnt 2 * c.cnt 3 * c.cnt 4 * c.cnt 5

/-- A run of a copy: its first byte's place in the copy, its length, its source and destination, and how many of its bytes are
read; the rest are masked in the source, and zero says that they read as zero bytes. -/
structure CRun where
  start : Nat
  len : Nat
  src : Int
  dst : Int
  rd : Nat
  zero : Bool := true
  deriving DecidableEq, Repr

/-- The run that holds byte i of a tensor copy (R56, R121): the part of a row or of a band's scales that lies in one piece. -/
def tenRun (a : TDesc) (l : TLay) (i : Nat) : CRun :=
  let p := l.pos i
  if p.scale then
    let k := l.scTo p.piece
    let n := l.scTo (p.piece + 1) - k
    let have_ := if p.band * a.bh < a.vrows then a.scLen a.vcols else 0
    { start := i - (p.sc - k), len := n, src := ((a.scByte p.band k : Nat) : Int), dst := ((l.d.scByte p.band k : Nat) : Int),
      rd := min n (have_ - k), zero := false }
  else
    let row := p.el / l.row
    let k := max (row * l.row) (16384 * p.piece)
    let n := min ((row + 1) * l.row) (16384 * (p.piece + 1)) - k
    let have_ :=
      if a.vrows ≤ p.band * a.bh + row then 0
      else if a.cb2 then (if l.d.vcols ≤ a.vcols then l.row else a.vcols / 8 * 2)
      else a.rowLen a.vcols
    { start := i - (p.el - k), len := n, src := ((a.elByte l.row p.band k : Nat) : Int), dst := ((l.d.elByte l.row p.band k : Nat) : Int),
      rd := min n (have_ - k % l.row), zero := !a.cb2 }

/-- The run that holds byte i of a copy (R121). -/
def CopyCmd.runAt (c : CopyCmd) (r : Regs) (i : Nat) : CRun :=
  if c.ten then tenRun (c.tsrc r) (c.tdst r).lay i
  else
    let k := i / c.len0
    let n1 := k % c.cnt 1
    let n2 := k / c.cnt 1 % c.cnt 2
    let n3 := k / (c.cnt 1 * c.cnt 2) % c.cnt 3
    let n4 := k / (c.cnt 1 * c.cnt 2 * c.cnt 3) % c.cnt 4
    let n5 := k / (c.cnt 1 * c.cnt 2 * c.cnt 3 * c.cnt 4)
    { start := k * c.len0, len := c.len0, rd := c.len0,
      src := (c.src : Int) + n1 * c.sstr 1 + n2 * c.sstr 2 + n3 * c.sstr 3 + n4 * c.sstr 4 + n5 * c.sstr 5,
      dst := (c.dst : Int) + n1 * c.dstr 1 + n2 * c.dstr 2 + n3 * c.dstr 3 + n4 * c.dstr 4 + n5 * c.dstr 5 }

/-- The lowest and the last byte address that a side of the loop nest touches. -/
def nestSpan (c : CopyCmd) (base : Nat) (str : Nat → Int) : Int × Int :=
  [1, 2, 3, 4, 5].foldl (fun (x : Int × Int) k =>
    let m := str k * ((c.cnt k : Int) - 1)
    if m < 0 then (x.1 + m, x.2) else (x.1, x.2 + m)) ((base : Int), (base : Int) + c.len0 - 1)

/-- The lowest and the last byte address of rows of a tensor, of n columns each, and their scales; an empty span where there
is none. -/
def TDesc.span (d : TDesc) (rows n : Nat) : Int × Int :=
  if rows = 0 ∨ n = 0 then (0, -1)
  else
    (((min d.base d.scbase : Nat) : Int),
     ((max (d.base + (rows - 1) * d.stride + d.rowLen n) (d.scByte ((rows - 1) / d.bh) (d.scLen n)) : Nat) : Int) - 1)

/-- The destination's lowest and last address. -/
def CopyCmd.dspan (c : CopyCmd) (r : Regs) : Int × Int :=
  if c.ten then (c.tdst r).span (c.tdst r).rows (c.tdst r).cols else nestSpan c c.dst c.dstr

/-- The source's. -/
def CopyCmd.sspan (c : CopyCmd) (r : Regs) : Int × Int :=
  if c.ten then (c.tsrc r).span (c.tsrc r).rows (c.tsrc r).cols else nestSpan c c.src c.sstr

/-- The lowest and the last address that the copy writes: its window (R96). -/
def CopyCmd.wspan (c : CopyCmd) (r : Regs) : Int × Int :=
  if c.ten then (c.tdst r).span (c.tdst r).vrows (c.tdst r).vcols else nestSpan c c.dst c.dstr

/-- The order check of R121: each level's stride lies past what the levels inside it cover. -/
def CopyCmd.ascends (c : CopyCmd) : Bool :=
  ([1, 2, 3, 4, 5].foldl (fun (x : Bool × Int) k =>
    if 1 < c.cnt k then (x.1 && decide (x.2 ≤ c.dstr k), c.dstr k * ((c.cnt k : Int) - 1) + x.2) else x) (true, (c.len0 : Int))).1

/-- Whether two descriptors qualify for a tensor copy (R121), in the spaces that the block names. A block that names the null
descriptor does not, and completes PARMBAD by R122, where R55 speaks of a trap: the model's choice (log entry 51). -/
def CopyCmd.tensorsOk (c : CopyCmd) (r : Regs) : Bool :=
  let a := c.tsrc r
  let d := c.tdst r
  a.scaled && d.scaled && decide (a.fmt = d.fmt ∧ a.rows = d.rows ∧ a.cols = d.cols ∧ a.bh = d.bh ∧ a.bw = d.bw)
    && decide (a.vault = c.svault ∧ d.vault = c.dvault)

/-- Whether a span lies in the addresses from 0 up to a limit. -/
def spanIn (x : Int × Int) (limit : Nat) : Bool := decide (0 ≤ x.1 ∧ x.2 < (limit : Int))

/-- Whether a block is accepted (R122, R226): wantD is the DSPACE that the word needs. -/
def CopyCmd.accepted (c : CopyCmd) (r : Regs) (limit bgroups : Nat) (wantD : Bool) : Bool :=
  decide (c.fld 511 496 = 0 ∧ c.fld 63 41 = 0 ∧ c.fld 32 30 = 0 ∧ c.fld 25 0 = 0 ∧ c.dvault = wantD)
    && (!c.arr || bgroups.testBit c.grp)
    && (if c.ten then c.tensorsOk r
        else decide (1 ≤ c.len0 ∧ 1 ≤ c.cnt 1 ∧ 1 ≤ c.cnt 2 ∧ 1 ≤ c.cnt 3 ∧ 1 ≤ c.cnt 4 ∧ 1 ≤ c.cnt 5) && (c.dvault || c.ascends))
    && (c.svault || spanIn (c.sspan r) limit) && (c.dvault || spanIn (c.dspan r) limit)

/-! ## Channels -/

/-- A channel of a plane. -/
def Plane.ch (pl : Plane) (k : Nat) : List CopyCmd := (pl.chan[k]?).getD []

/-- Replaces a channel. -/
def setCh (s : State) (r p k : Nat) (l : List CopyCmd) : State :=
  s.modPlane r p (fun pl => { pl with chan := pl.chan.setIfInBounds k l })

/-- Replaces the command at the head of a channel. -/
def putHead (s : State) (r p k : Nat) (c : CopyCmd) : State := setCh s r p k (c :: ((s.plane r p).ch k).tail)

/-- The record of a copy (Table 11.6). -/
def copyRecord (st fc length ch : Nat) : Quad :=
  RecF.bits { status := st, kind := 7, fcode := fc, length := length % 2 ^ 32, aux := ch }

/-- The flag of a follow-on that does not issue completes CANCELLED (R227). -/
def endFollow (s : State) (r p : Nat) (c : CopyCmd) (fc : Nat) : State :=
  match c.follow with
  | some (f, _) => completeFlag s r p f.fn c.id (mxRecord stCANCELLED fc 0 f.acc)
  | none => s

/-- The head of a channel may start (R122); a COPYQ starts in the clk in which it finds its flag set (R228). -/
def chKick (s : State) (r p k : Nat) : State :=
  match ((s.plane r p).ch k).head? with
  | some c =>
    if c.started then s
    else emitOnce (s.modPlane r p Plane.fire) (.copyStart r p k)
  | none => s

/-- Accepts a command: one of the monitor goes ahead of those held or waiting (R122). -/
def chPush (s : State) (r p : Nat) (c : CopyCmd) : State :=
  let l := (s.plane r p).ch c.ch
  let l := if c.mon then l.takeWhile (fun x => x.begun || x.mon) ++ c :: l.dropWhile (fun x => x.begun || x.mon) else l ++ [c]
  chKick (setCh s r p c.ch l) r p c.ch

/-- The physical address of a tile-store byte of a command. -/
def copyPhys (pl : Plane) (c : CopyCmd) (a : Int) : Nat := if c.mon then a.toNat else pl.regs.tsbase + a.toNat

/-- The parts of runs that bytes i to e of a copy make. -/
def CopyCmd.parts (c : CopyCmd) (r : Regs) (e : Nat) : Nat → Nat → List (Nat × Nat × CRun)
  | 0, _ => []
  | n + 1, i =>
    if e ≤ i then []
    else
      let x := c.runAt r i
      let m := min (x.start + x.len) e - i
      (i, m, x) :: CopyCmd.parts c r e n (i + m)

/-- The source address of byte i of a run. -/
def CRun.srcOf (x : CRun) (i : Nat) : Int := x.src + ((i - x.start : Nat) : Int)
/-- Its destination address. -/
def CRun.dstOf (x : CRun) (i : Nat) : Int := x.dst + ((i - x.start : Nat) : Int)

/-- The physical tile-store spans that a copy has still to read or write from byte i on. -/
def CopyCmd.spansLeft (c : CopyCmd) (pl : Plane) (i : Nat) : List (Nat × Nat) :=
  (c.parts pl.regs (c.total pl.regs) (c.total pl.regs - i) i).flatMap (fun q =>
    (if c.svault then [] else [(copyPhys pl c q.2.2.src, q.2.2.rd)])
      ++ (if c.dvault then [] else [(copyPhys pl c (q.2.2.dstOf q.1), q.2.1)]))

/-- Whether an access of copy id to spans must wait for one issued earlier that has still to make an access to one of their granules,
whichever channels carry them (R92). -/
def orderWaits (pl : Plane) (id : Nat) (l : List (Nat × Nat)) : Bool :=
  (List.range 4).any (fun j => (pl.ch j).any (fun d =>
    decide (d.id < id) && (d.spansLeft pl d.moved).any (fun x => l.any (shareGranule x))))

/-! ## The words -/

/-- What the four words have in common: f gives the block's address; kind, fk and follow the rest. -/
structure CopyWord where
  fn : Nat
  kind : Nat
  fk : Option Nat := none
  follow : Option (MMm × Word) := none
  word : Nat := 0
  xs : List Word := []
  deriving DecidableEq, Repr

/-- The address of the block (R226). -/
def blkAddr (x : Word) (f : MC) : Nat := taskAddr x (f.off.sval 5 8 * 64)

/-- Rejects a command at acceptance: its flag completes FAULT, and a follow-on's CANCELLED (R122, R227). -/
def rejectCopy (s : State) (c : CopyCmd) (fc : Nat) : State :=
  endFollow (completeFlag s s.cur s.ctxP c.flag c.id (copyRecord stFAULT fc 0 c.ch)) s.cur s.ctxP c 0

/-- Binds the flags of a command. -/
def bindCopy (s : State) (w : CopyWord) (id : Nat) : State :=
  let s := bindFlag s w.fn id
  match w.follow with
  | some (f, _) => bindFlag s f.fn id
  | none => s

/-- Accepts or rejects a copy command whose word's checks have passed (R122, R226, R229). The block is read on the copy
path. A block that fails its checks is rejected at once, also where the channel holds four commands (DESIGN CHOICE, log entry 104). -/
def copyIssue (s : State) (w : CopyWord) (t : Nat) (block : List Byte) : Chk State := do
  let c : CopyCmd := { id := s.nextId, kind := w.kind, flag := w.fn, blk := BitVec.ofNat 512 (leNat block), fk := w.fk,
                       follow := w.follow, spec := specOpen s, mon := s.mon, word := w.word, xs := w.xs }
  let ok := c.accepted s.regs (tsLimit s) s.ctx.task.bgroups (decide (w.kind = 4))
  let _ ← (if c.arr then noSpec s else .ok ())
  let _ ← orStall (!ok || decide ((s.ctx.ch c.ch).length < 4))
  let (_, s) := freshId s
  let a := tsPhys s t
  let s := tsSeen (if c.spec then track s s.cur s.ctxP a 64 else s) s.cur pathC a 64
  let s := bindCopy s w c.id
  .ok (if ok then chPush s s.cur s.ctxP c else rejectCopy s c fcPARMBAD)

/-- A copy word from its block address on, with its flags free and its checks passed (R226): the read of the block takes its
place on the copy path behind the accesses of earlier copies (R92, R122). -/
def copyWord (s : State) (w : CopyWord) (t : Nat) : Chk State := do
  let _ ← orStall (s.mon || !orderWaits s.ctx s.nextId [(tsPhys s t, 64)])
  match engineRead s s.cur s.ctxP pathC 4 (tsPhys s t) 64 with
  | .ok b => copyIssue s w t b
  | .error (.faulted _) =>
    let (id, s) := freshId s
    let c : CopyCmd := { id := id, flag := w.fn, blk := 0, follow := w.follow }
    .ok (rejectCopy (bindCopy s w id) c fcENGFAULT)
  | .error _ => stallW

/-- The block of a copy word is aligned and in range (R226). -/
def needBlock (s : State) (t : Nat) : Chk Unit := do
  let _ ← needAlign t 64
  needRange s t 64

/-- COPY (R226). -/
def execCopy (f : MC) (s : State) : Host.Outcome State Fault Refusal :=
  runWord 2 f.g s (fun s => do
    let _ ← freeFlag s f.fn
    let x ← readX s f.xa
    let _ ← needBlock s (blkAddr x f)
    copyWord s { fn := f.fn, kind := 1, word := (Instr.copy f).word % 2 ^ 32, xs := [x] } (blkAddr x f))

/-- COPYX (R226, R229). -/
def execCopyx (f : MC) (s : State) : Host.Outcome State Fault Refusal :=
  runWord 2 f.g s (fun s => do
    let _ ← freeFlag s f.fn
    let x ← readX s f.xa
    let _ ← noSpec s
    let _ ← needBlock s (blkAddr x f)
    copyWord s { fn := f.fn, kind := 4, word := (Instr.copyx f).word % 2 ^ 32, xs := [x] } (blkAddr x f))

/-- COPYQ (R228): fk equal to fn is ILLEGAL. -/
def execCopyq (f : MC) (s : State) : Host.Outcome State Fault Refusal :=
  runWord 2 f.g s (fun s => do
    let _ ← freeFlag s f.fn
    let x ← readX s f.xa
    let _ ← needBlock s (blkAddr x f)
    let _ ← (if f.rd = f.fn then illegal (.copyq f) else .ok ())
    copyWord s { fn := f.fn, kind := 2, fk := some f.rd, word := (Instr.copyq f).word % 2 ^ 32, xs := [x] } (blkAddr x f))

/-- The MMA word that a COPYM carries, when it is one (R227). -/
def followOf (v : Word) : Option MMm :=
  match decodeWord (v.toNat % 2 ^ 32) none with
  | .ok (.mma m) => if m.g = 0 then some m else none
  | _ => none

/-- COPYM (R227): the follow-on's checks are made here, in one order with the block's (R169, R219). -/
def execCopym (f : MC) (s : State) : Host.Outcome State Fault Refusal :=
  runWord 2 f.g s (fun s => do
    let _ ← freeFlag s f.fn
    let x ← readX s f.xa
    let v ← readX s f.rd
    match followOf v with
    | none => do
      let _ ← needBlock s (blkAddr x f)
      illegal (.copym f)
    | some m => do
      let _ ← freeFlag s m.fn
      let xc ← readX s m.xc
      let _ ← needAlign (blkAddr x f) 64
      let _ ← mmaAligned s m
      let _ ← needRange s (blkAddr x f) 64
      let _ ← mmaInRange s m xc
      let _ ← (if m.fn = f.fn then illegal (.copym f) else .ok ())
      let _ ← mmaAllowed s m xc (.mma m)
      copyWord s { fn := f.fn, kind := 3, follow := some (m, xc), word := (Instr.copym f).word % 2 ^ 32, xs := [x, v, xc] } (blkAddr x f))

/-! ## The engine's steps -/

/-- The lowest destination address still to be delivered, past byte i (R96). -/
def CopyCmd.mark (c : CopyCmd) (r : Regs) (i : Nat) : Nat :=
  if c.total r ≤ i then ((c.wspan r).2 + 1).toNat
  else if c.ten then
    let l := (c.tdst r).lay
    let p := l.pos i
    let nextEl := if p.el < l.els p.band then some (l.d.elByte l.row p.band p.el)
      else if (p.band + 1) * l.d.bh < l.rows then some (l.d.elByte l.row (p.band + 1) 0) else none
    let nextSc := if p.sc < l.sc then some (l.d.scByte p.band p.sc)
      else if (p.band + 1) * l.d.bh < l.rows then some (l.d.scByte (p.band + 1) 0) else none
    match nextEl, nextSc with
    | some a, some b => min a b
    | some a, none => a
    | none, some b => b
    | none, none => 0
  else
    let x := c.runAt r i
    (x.dst + ((i - x.start : Nat) : Int)).toNat

/-- What a copy that started on a flag no longer misses (R95, R228): the writes of the operation that set it, or, after an
FLSET, the earlier stores of the plane. -/
def startSees (l : List Stale) (f : Flag) : List Stale :=
  if f.soft then orderUpTo (fun e => decide (e.path = pathP ∧ e.op < f.last)) pathC l
  else orderUpTo (fun e => decide (e.op = f.last)) 15 l

/-- The flag on which the head of a channel starts: none is waited for, the flag as it stood when it was found set, or as it is
set now (R228). -/
def CopyCmd.go (c : CopyCmd) (r : Regs) : Option (Option Flag) :=
  match c.fk with
  | none => some none
  | some fk =>
    match c.fired with
    | some f => some (some f)
    | none => if (r.fl fk).on then some (some (r.fl fk)) else none

/-- A channel starts its next command (R122, R228, R96): its window opens. -/
def copyStartAt (s : State) (r p k : Nat) : State :=
  let pl := s.plane r p
  match (pl.ch k).head? with
  | none => s
  | some c =>
    if c.started ∨ (c.fired = none ∧ pl.mayStart k c = false) then s
    else
      match c.go pl.regs with
      | none => emitOnce s (.copyStart r p k)
      | some fl =>
        let s := match fl with
          | none => s
          | some f => s.modTile r (fun t => { t with stale := startSees t.stale f })
        let sp := c.wspan pl.regs
        let win : Option Win := if c.dvault ∨ c.total pl.regs = 0 then none
          else some { lo := copyPhys pl c sp.1, hi := copyPhys pl c sp.2, base := copyPhys pl c 0 }
        let s := s.modPlane r p (fun pl =>
          { pl with
            window := pl.window.setIfInBounds k win
            lock := pl.lock.setIfInBounds k []
            wfault := pl.wfault.setIfInBounds k none
            spec := pl.spec.map (fun x => if c.spec then { x with chans := x.chans ++ [k] } else x)
            regs := { pl.regs with wmark := pl.regs.wmark.setIfInBounds k (if c.dvault then 0 else c.mark pl.regs 0) } })
        emitOnce (putHead s r p k { c with started := true }) (.watermarkAdvance r p k)

/-- The first byte and the end of the piece of a copy unit that holds byte i (R98): a unit, cut at 16 KiB, a tensor's band with
the scales of each piece. -/
def CopyCmd.piece16 (c : CopyCmd) (r : Regs) (i : Nat) : Nat × Nat :=
  if c.ten then
    let l := (c.tdst r).lay
    let p := l.pos i
    let e := l.els p.band
    (p.band * l.band + l.pieceOff e p.piece, p.band * l.band + l.pieceOff e (p.piece + 1))
  else
    let u := c.len0 * c.cnt 1
    let a := i / u * u + (i - i / u * u) / 16384 * 16384
    (a, min (i / u * u + u) (a + 16384))

/-- The end of the part that a copy moves next from byte i: the rest of its run in one granule of the destination (R97, R98). -/
def CopyCmd.partEnd (c : CopyCmd) (r : Regs) (i : Nat) : Nat :=
  let x := c.runAt r i
  let d := (x.dst + ((i - x.start : Nat) : Int)).toNat
  min (x.start + x.len) (i + 16 - d % 16)

/-- Ends a copy with a fault (R96, R122): its window stays open, and its channel holds. -/
def faultCopy (s : State) (r p k : Nat) (c : CopyCmd) (fc : Nat) : State :=
  let s := completeFlag s r p c.flag c.id (copyRecord stFAULT fc c.moved k)
  let s := endFollow s r p c 0
  let s := setCh s r p k ((s.plane r p).ch k).tail
  s.modPlane r p (fun pl =>
    { pl with hold := pl.hold.setIfInBounds k (some c.flag), lock := pl.lock.setIfInBounds k [],
              wfault := if c.dvault then pl.wfault else pl.wfault.setIfInBounds k (some c.flag) })

/-- A request for one granule of a copy (R226): idx is the place in the copy of its first byte. -/
def copyReq (s : State) (r p k : Nat) (c : CopyCmd) (va : Int) (n idx : Nat) (data : Option (List Byte)) : State :=
  let pl := s.plane r p
  let (id, s) := freshId s
  let q : Req := {
    id := id, rank := r, plane := p, job := pl.task.job, part := pl.task.part, flag := 0, op := if data.isSome then .put else .get,
    va := (va % (2 ^ 64 : Nat)).toNat, len := n, a := 0, b := 0, data := data.getD [], dst := idx, mv := pl.task.bgroups,
    pv := phaseVec pl.regs, spec := false, number := 0, sgroup := 0, sphase := 0, mon := c.mon, pkg := 0, dpa := 0, host := false,
    sysatom := false, vault := 0, tries := 0 }
  let dual := pl.task.dual
  let e : ReqSt := { req := q, owner := .copy k, ready := !dual, under := c.spec }
  let s := s.modTile r (fun t => { t with reqs := t.reqs ++ [e] })
  let s := if dual then pushDual s r p (.req id) else s
  if 2 ^ 48 ≤ q.va then refuseReq s r e fcBADVA
  else pumpReqs s r

/-- The granules of a part on a vault's side: address, length and place. -/
def granPieces (va : Int) (n i : Nat) : List (Int × Nat × Nat) :=
  let a := (va % (2 ^ 64 : Nat)).toNat
  if n = 0 then []
  else (List.range ((a + n - 1) / 16 + 1 - a / 16)).map (fun g =>
    let lo := max a ((a / 16 + g) * 16)
    let hi := min (a + n) ((a / 16 + g) * 16 + 16)
    (((lo : Nat) : Int), hi - lo, i + (lo - a)))

/-- The tile-store spans that a copy has still to read or write from byte i to the end of its locked piece: it begins a unit when it
need wait for no earlier copy within it (R92, R98). -/
def CopyCmd.unitSpans (c : CopyCmd) (pl : Plane) (i : Nat) : List (Nat × Nat) :=
  let e := (c.piece16 pl.regs i).2
  (c.parts pl.regs e (e - i) i).flatMap (fun q =>
    (if c.svault then [] else [(copyPhys pl c q.2.2.src, q.2.2.rd)])
      ++ (if c.dvault then [] else [(copyPhys pl c (q.2.2.dstOf q.1), q.2.1)]))

/-- A plane as a copy's accesses meet it (R92): the window of a later copy that has to wait for this one in a granule does not stand
before it (DESIGN CHOICE, log entry 99). -/
def Plane.pastLater (pl : Plane) (c : CopyCmd) : Plane :=
  let l := c.spansLeft pl c.moved
  { pl with window := pl.window.mapIdx (fun j w =>
      if (pl.ch j).head?.any (fun d => decide (c.id < d.id) && !d.mon && (d.spansLeft pl d.moved).any (fun x => l.any (shareGranule x))) then none
      else w) }

/-- Whether the tile-store accesses of a part may be made now (R44, R75, R92, R96, R98): what stands in the way of reads and
writes. -/
def partGate (s : State) (r p k : Nat) (c : CopyCmd) (q : Nat × Nat × CRun) : WinSt :=
  let pl := s.plane r p
  let rd := if c.svault ∨ q.1 ≠ q.2.2.start then [] else [(copyPhys pl c q.2.2.src, q.2.2.rd)]
  let wr := if c.dvault then [] else [(copyPhys pl c (q.2.2.dstOf q.1), q.2.1)]
  if !c.mon && orderWaits pl c.id (c.unitSpans pl q.1) then .wait
  else
    let s := s.modPlane r p (fun pl => pl.pastLater c)
    match spansGate s r p 0 k true rd with
    | .clear =>
      (match spansGate s r p 0 k false wr with
       | .clear => if wr.any (fun x => guarded s r x.1 x.2) then .wait else .clear
       | w => w)
    | w => w

/-- Byte i of a run as the copy writes it (R56): read, or of a masked source element. What a masked index or scale becomes is
free. -/
def unitByte (tick : Nat) (c : CopyCmd) (x : CRun) (i : Nat) : Byte :=
  if i - x.start < x.rd then ngetD c.unit i 0 else if x.zero then 0 else Config.maskedByte tick i

/-- Moves one part of a run: a run is read whole, at its first byte, before it is written (R121). -/
def movePart (s : State) (r p : Nat) (c : CopyCmd) (q : Nat × Nat × CRun) : State × CopyCmd :=
  let pl := s.plane r p
  let x := q.2.2
  let (s, c) :=
    if c.svault ∨ q.1 ≠ x.start then (s, c)
    else
      let a := copyPhys pl c x.src
      let b := tsBytes s r p pathC a x.rd
      (spansSeen s r p pathC 0 c.spec [(a, x.rd)], { c with unit := (List.range x.rd).zip b |>.map (fun e => (x.start + e.1, e.2)) })
  let bytes := (List.range q.2.1).map (fun i => unitByte s.tick c x (q.1 + i))
  if c.dvault then (copyReq s r p c.ch c (x.dstOf q.1) q.2.1 q.1 (some bytes), { c with waiting := true })
  else (engWrite s r p pathC c.id c.spec (copyPhys pl c (x.dstOf q.1)) bytes, c)

/-- Whether the bytes of a part from a vault are on hand. -/
def haveBytes (c : CopyCmd) (q : Nat × Nat × CRun) : Bool :=
  (List.range (min q.2.1 (q.2.2.rd - (q.1 - q.2.2.start)))).all (fun k => (nget c.unit (q.1 + k)).isSome)

/-- Asks the vault for the bytes of a copy from the present place to the end of its piece, or of a part that goes past it. -/
def fetchPiece (s : State) (r p k : Nat) (c : CopyCmd) : State :=
  let rg := (s.plane r p).regs
  let e := max (c.piece16 rg c.moved).2 (c.partEnd rg c.moved)
  let s := putHead s r p k { c with waiting := true, unit := [] }
  ((c.parts rg e (e - c.moved) c.moved).flatMap (fun q =>
      granPieces (q.2.2.srcOf q.1) (min q.2.1 (q.2.2.rd - (q.1 - q.2.2.start))) q.1)).foldl
    (fun s g => copyReq s r p k c g.1 g.2.1 g.2.2 none) s

/-- The granules of a part share one choice of an unordered read with their unit while a lock holds it (R98, R99). -/
def noteUnit (s : State) (r id u a n : Nat) : State :=
  s.modTile r (fun t => if t.monitor then t else
    { t with stale := t.stale.map (fun e =>
        if e.path = pathC ∧ e.op = id ∧ a / 16 ≤ e.gran ∧ 16 * e.gran < a + n then { e with key := 64 * u + id } else e) })

/-- Moves a part that nothing holds and advances the watermark past it. The unit is locked from its first write to its last
(R98). -/
def moveNext (s : State) (r p k : Nat) (c : CopyCmd) (q : Nat × Nat × CRun) : State :=
  let x := movePart s r p c q
  let s := x.1
  let c := x.2
  if c.dvault then putHead s r p k { c with piece := c.piece + 1 }
  else
    let rg := (s.plane r p).regs
    let m := q.1 + q.2.1
    let u := c.piece16 rg q.1
    let s := noteUnit s r c.id u.1 (copyPhys (s.plane r p) c (q.2.2.dstOf q.1)) q.2.1
    let s := s.modPlane r p (fun pl =>
      { pl with regs := { rg with wmark := rg.wmark.setIfInBounds k (c.mark rg m) },
                lock := pl.lock.setIfInBounds k (if u.2 ≤ m then [] else
                  (c.parts rg u.2 (u.2 - u.1) u.1).map (fun y => (copyPhys pl c (y.2.2.dstOf y.1), y.2.1))),
                spec := pl.spec.map (fun sp => if c.spec then { sp with engCounted := false } else sp) })
    let s := putHead s r p k { c with moved := m, unit := c.unit.filter (fun u => decide (m ≤ u.1)), piece := c.piece + 1 }
    emitOnce s (.watermarkAdvance r p k)

/-- WATERMARK_ADVANCE (R96, R121): a running copy moves its next part, or asks the vault for its bytes first. -/
def advanceAt (s : State) (r p k : Nat) : State :=
  let pl := s.plane r p
  match (pl.ch k).head? with
  | none => s
  | some c =>
    if !c.started || c.waiting then s
    else if c.total pl.regs ≤ c.moved then emitOnce s (.copyComplete r p k)
    else
      let q := (c.moved, c.partEnd pl.regs c.moved - c.moved, c.runAt pl.regs c.moved)
      if c.svault && !haveBytes c q then fetchPiece s r p k c
      else
        match partGate s r p k c q with
        | .wait => emitOnce s (.watermarkAdvance r p k)
        | .faulted _ => faultCopy s r p k c fcENGFAULT
        | .clear =>
          if c.spec && !c.dvault && !escRoomAll pl [(copyPhys pl c (q.2.2.dstOf q.1), q.2.1)] then
            emitOnce (engStall s r p) (.watermarkAdvance r p k)
          else moveNext s r p k c q

/-- What a copy's request brings (R226): the bytes of a granule, or the acknowledgement of one. -/
def copyReply (s : State) (r p k : Nat) (q : Req) (st fc : Nat) (data : List Byte) : State :=
  let pl := s.plane r p
  match (pl.ch k).head? with
  | none => s
  | some c =>
    if !c.started then s
    else if st ≠ stOK then
      faultCopy (s.modTile r (fun t => { t with reqs := t.reqs.map (fun e =>
        if e.owner = .copy k ∧ e.req.plane = p then { e with dropped := true } else e) })) r p k c fc
    else
      let c := match q.op with
        | .get => { c with unit := c.unit ++ ((List.range data.length).zip data).map (fun (e : Nat × Byte) => (q.dst + e.1, e.2)) }
        | _ => { c with moved := c.moved + q.len }
      let more := (s.tile r).reqs.any (fun e => decide (e.owner = .copy k ∧ e.req.plane = p) && !e.dropped)
      let s := putHead s r p k { c with waiting := more }
      if more then s else emitOnce s (.watermarkAdvance r p k)

/-- COPY_COMPLETE (R96, R226, R227, R229): the window closes, the flag is set, the follow-on issues and the ARRIVE is
made; the next command may start. -/
def copyDone (s : State) (r p k : Nat) : State :=
  let pl := s.plane r p
  match (pl.ch k).head? with
  | none => s
  | some c =>
    if !c.started ∨ c.moved < c.total pl.regs then s
    else
      let s := setCh s r p k (pl.ch k).tail
      let s := s.modPlane r p (fun pl => { pl with window := pl.window.setIfInBounds k none, lock := pl.lock.setIfInBounds k [] })
      let s := completeFlag s r p c.flag c.id (copyRecord stOK 0 c.moved k)
      let s := match c.follow with
        | none => s
        | some (f, x) =>
          if c.followCancel then endFollow s r p c fcMRES
          else mxPush s r p { id := c.id, op := .mma f, xv := x, mon := c.mon, spec := c.spec, follow := true }
      let s := if c.arr then
          (if (s.plane r p).spec.isSome then s.modPlane r p (fun pl => { pl with arrWait := pl.arrWait ++ [c.grp] }) else arriveAt s r p c.grp)
        else s
      pumpTile (chKick s r p k) r

/-- COPY_START. -/
def execCopyStart (rank plane ch : Nat) (s : State) : Host.Outcome State Fault Refusal :=
  runEvent (Instr.copyStart rank plane ch).wf s (fun s => copyStartAt s rank plane ch)

/-- WATERMARK_ADVANCE. -/
def execWatermarkAdvance (rank plane ch : Nat) (s : State) : Host.Outcome State Fault Refusal :=
  runEvent (Instr.watermarkAdvance rank plane ch).wf s (fun s =>
    pumpTile (advanceAt s rank plane ch) rank)

/-- COPY_COMPLETE. -/
def execCopyComplete (rank plane ch : Nat) (s : State) : Host.Outcome State Fault Refusal :=
  runEvent (Instr.copyComplete rank plane ch).wf s (fun s => copyDone s rank plane ch)

end Sys2Proof.Machine
end

