-- ==== Sys2Proof/Machine/Dual.lean ====
section
/-! DEFINITION. Redundant execution (spec/02_execution.md R39, R46; spec/11_isa_memory.md R252; spec/19_sys_platform.md R339):
the operations of a DUAL pair are compared, and one copy is released; a difference, or 4,096 clk without the partner's
operation, is a mismatch. -/

namespace Sys2Proof.Machine

/-! ## Probes (R76, R87, R234) -/

/-- The record of a probe. -/
def probeRecord (pl : Plane) (filter : Word) : Quad :=
  let v := filter.toNat
  match pl.uq.find? (fun u => u.admitted && fits (v % 2 ^ 24) (bitsHL v 39 24) (bitsHL v 47 40) u.hdr) with
  | none => 0
  | some u =>
    RecF.bits { peer := u.hdr.src, group := u.hdr.group, tag := u.hdr.tag, status := stOK, kind := 5, length := u.hdr.len, aux := 1 }

/-- Completes a probe of a plane. -/
def probeAt (s : State) (r p fn id : Nat) (filter : Word) : State :=
  completeFlag s r p fn id (probeRecord (s.plane r p) filter)

/-! ## Operations that wait for the partner's -/

/-- The request of a number at a tile. -/
def Tile.reqOf (t : Tile) (id : Nat) : Option ReqSt := t.reqs.find? (fun e => decide (e.req.id = id))

/-- The lane in which an operation is compared: the program's, a forward's by its receive's flag, a copy channel's, a group's
ARRIVEs, or the matrix engine's, whose MSENDs come in the order of their snapshots. Nothing when the operation is gone. -/
def dualLane (s : State) (r p : Nat) (op : DualOp) : Option (Nat × Nat) :=
  match op with
  | .arrive n => some (0, n)
  | .send id =>
    match (s.plane r p).send id with
    | none => none
    | some sd =>
      if sd.kind = 4 then
        some (1, (((s.plane r p).deliveries.find? (fun d => decide (d.recv.id = id))).map (fun d => d.recv.flag)).getD 64)
      else if sd.kind = 6 then some (4, 0)
      else some (2, 0)
  | .req id =>
    match (s.tile r).reqOf id with
    | none => none
    | some e =>
      match e.owner with
      | .copy k => some (3, k)
      | .flag => some (2, 0)
  | _ => some (2, 0)

/-- KIND of an operation. -/
def dualKind (s : State) (r p : Nat) (op : DualOp) : Nat :=
  match op with
  | .arrive _ => Config.noKind s.tick
  | .send id => (((s.plane r p).send id).map (·.kind)).getD 1
  | .req id =>
    match (s.tile r).reqOf id with
    | some e => if e.owner = .flag then reqKind e.req.op else 7
    | none => 7
  | .probe _ _ _ => 5
  | .yield _ => Config.noKind s.tick
  | _ => 13

/-- The operations of a plane that still wait, each with its lane. -/
def dualWaiting (s : State) (r p : Nat) : List ((Nat × Nat) × Nat × DualOp) :=
  (s.tile r).dualq.filterMap (fun e =>
    if e.1 = p then (dualLane s r p e.2.2).map (fun l => (l, e.2.1, e.2.2)) else none)

/-- How a comparison comes out. -/
inductive DualCmp where
  | wait
  | same
  | differ
  deriving DecidableEq, Repr

/-- Compares two sends: each field that leaves the tile, and every byte, once neither waits to be read. A forward's bytes are the same
delivery's. -/
def cmpSend (a b : Send) (waits : Bool) : DualCmp :=
  if !(decide (a.kind = b.kind ∧ a.group = b.group ∧ a.tag = b.tag ∧ a.len = b.len ∧ a.bytes = b.bytes ∧ a.eager = b.eager)
      && decide (a.mv = b.mv ∧ a.pv = b.pv ∧ a.copies.map (·.dst) = b.copies.map (·.dst))) then .differ
  else if a.kind = 4 then .same
  else if waits then .wait
  else if a.payload = b.payload then .same
  else .differ

/-- A request with the bytes that it will carry, as its tile holds them now: nothing while something holds the reading. The vector of a
QUERY is compared when it is pulled (R242). -/
def dualData (s : State) (r : Nat) (q : ReqSt) : Except WinSt Req :=
  if q.len = 0 then .ok q.req
  else
    match engineRead s r q.req.plane pathN 4 q.addr (readLen q) with
    | .ok b => .ok (withData q.req b)
    | .error w => .error w

/-- Compares two requests: a GET and a copy's request are paired only (R252). -/
def cmpReq (s : State) (r r2 : Nat) (a b : ReqSt) : DualCmp :=
  if a.owner ≠ b.owner then .differ
  else if a.owner ≠ .flag then .same
  else if a.req.op = .get ∧ b.req.op = .get then .same
  else
    match dualData s r a, dualData s r2 b with
    | .ok x, .ok y =>
      if decide (x.op = y.op ∧ x.va = y.va ∧ x.len = y.len ∧ x.a = y.a ∧ x.b = y.b)
          && decide (x.data = y.data ∧ x.mv = y.mv ∧ x.pv = y.pv) then .same else .differ
    | .error (.faulted _), .error (.faulted _) => .same
    | .error .wait, _ => .wait
    | _, .error .wait => .wait
    | _, _ => .differ

/-- Compares the heads of a lane. -/
def dualCmp (s : State) (r p r2 p2 : Nat) (x y : DualOp) : DualCmp :=
  match x, y with
  | .arrive _, .arrive _ => .same
  | .send i, .send j =>
    match (s.plane r p).send i, (s.plane r2 p2).send j with
    | some a, some b => cmpSend a b (readWaits s r p i || readWaits s r2 p2 j)
    | _, _ => .wait
  | .req i, .req j =>
    match (s.tile r).reqOf i, (s.tile r2).reqOf j with
    | some a, some b => cmpReq s r r2 a b
    | _, _ => .wait
  | .lease fn _ v, .lease gn _ w => if fn = gn ∧ v = w then .same else .differ
  | .yield m, .yield n => if m = n then .same else .differ
  | .unlease _, .unlease _ => .same
  | .ask l, .ask m => if l.slot = m.slot then .same else .differ
  | .probe _ _ _, .probe _ _ _ => .same
  | _, _ => .differ

/-- Takes the first such operation of a plane out of a tile's list. -/
def dropDual (s : State) (r p : Nat) (op : DualOp) : State :=
  s.modTile r (fun t =>
    match t.dualq.find? (fun e => decide (e.1 = p ∧ e.2.2 = op)) with
    | some e => { t with dualq := t.dualq.erase e }
    | none => t)

/-- The YIELD of one tile of a pair has met the other's (R188): where its plane runs at the user level the tile makes its decision;
otherwise the declaration alone is kept. -/
def dualYield (s : State) (r p imm : Nat) : State :=
  let s := s.modPlane r p (fun pl => { pl with yieldWait := false })
  if (s.tile r).running = some p ∧ (s.tile r).monitor = false then yieldTile s r p imm
  else s.modPlane r p (fun pl => pl.declare imm)

/-- Releases one copy of a pair of operations that agree; the even tile (r, p) sends it (R46). -/
def dualRelease (s : State) (r p r2 p2 : Nat) (x y : DualOp) : State :=
  match x, y with
  | .arrive n, _ => emitOnce (dropDual (dropDual s r p (.arrive n)) r2 p2 (.arrive n)) (.arriveSignalRelease r p)
  | .send i, .send j =>
    let e := (s.plane r p).send i
    let s := s.modPlane r p (fun pl => { pl with sends := pl.sends.map (fun sd => if sd.id = i then { sd with paired := true } else sd) })
    let s := s.modPlane r2 p2 (fun pl => { pl with sends := pl.sends.map (fun sd => if sd.id = j then
      { sd with twin := i, numbered := (e.map (·.numbered)).getD sd.numbered, copies := (e.map (·.copies)).getD sd.copies } else sd) })
    let s := dropDual (dropDual s r p x) r2 p2 y
    pumpSends (finSends (finSends s r p) r2 p2) r p
  | .req i, .req j =>
    let s := s.modTile r (fun t => { t with reqs := t.reqs.map (fun e => if e.req.id = i then { e with ready := true } else e) })
    let s := s.modTile r2 (fun t => { t with reqs := t.reqs.map (fun e => if e.req.id = j then { e with twin := i } else e) })
    pumpReqs (dropDual (dropDual s r p x) r2 p2 y) r
  | .lease fn id v, .lease _ jd _ => leasePost (dropDual (dropDual s r p x) r2 p2 y) r p fn id jd v
  | .yield m, .yield _ => dualYield (dualYield (dropDual (dropDual s r p x) r2 p2 y) r p m) r2 p2 m
  | .unlease n, _ => unleaseAt (dropDual (dropDual s r p x) r2 p2 y) (pkgOf r) (s.plane r p).task.job n
  | .ask l, .ask m =>
    emit (emit (dropDual (dropDual s r p x) r2 p2 y) (.laneManagerAnswer l)) (.laneManagerAnswer m)
  | .probe fn id v, .probe gn jd w => probeAt (probeAt (dropDual (dropDual s r p x) r2 p2 y) r p fn id v) r2 p2 gn jd w
  | _, _ => s

/-- A tile has DUALMISMATCH due for plane p, whose operations are released no more. -/
def mismatchDue (s : State) (r p kind : Nat) : State :=
  (s.modTile r (fun t => { t with dualDue := some (t.dualDue.getD (p, kind)), dualq := t.dualq.filter (fun e => decide (e.1 ≠ p)) }))

/-- A mismatch of a pair of tiles is noted (R339): both health entries count it, a test of each is queued, and the black box and the
summary have it. -/
def noteMismatch (s : State) (r r2 kind : Nat) : State :=
  let e := healthEntry (epOf r)
  let e2 := healthEntry (epOf r2)
  let s := s.modPkg (pkgOf r) (fun k => (k.bumpHealth e 31 24).bumpHealth e2 31 24)
  let s := queueTest (queueTest s (pkgOf r) e) (pkgOf r) e2
  countUp (blackBox s (pkgOf r) 0x0017 r (kind % 256 + r2 * 2 ^ 24)) (pkgOf r) 2

/-- A mismatch (R46, R339): both tiles have DUALMISMATCH due. -/
def dualMismatch (s : State) (r p r2 p2 kind : Nat) : State :=
  noteMismatch (mismatchDue (mismatchDue s r p kind) r2 p2 kind) r r2 kind

/-- The first pair of lane heads that can be decided: the two operations and the outcome. -/
def dualNext (s : State) (r p r2 p2 : Nat) : Option (DualOp × DualOp × DualCmp) :=
  let a := dualWaiting s r p
  let b := dualWaiting s r2 p2
  ((a.map (·.1)).dedup).findSome? (fun l =>
    match a.find? (fun e => decide (e.1 = l)), b.find? (fun e => decide (e.1 = l)) with
    | some x, some y =>
      match dualCmp s r p r2 p2 x.2.2 y.2.2 with
      | .wait => none
      | c => some (x.2.2, y.2.2, c)
    | _, _ => none)

/-- Decides what can be decided of a pair, even tile first. -/
def dualRun : Nat → State → Nat → Nat → Nat → Nat → State
  | 0, s, _, _, _, _ => s
  | n + 1, s, r, p, r2, p2 =>
    match dualNext s r p r2 p2 with
    | none => s
    | some (_, _, .wait) => s
    | some (x, y, .same) => dualRun n (dualRelease s r p r2 p2 x y) r p r2 p2
    | some (x, _, .differ) => dualMismatch s r p r2 p2 (dualKind s r p x)

/-- The comparison of a DUAL task's two tiles. -/
def pumpDual (s : State) (r p : Nat) : State :=
  match partnerOf s r p with
  | none => s
  | some (r2, p2) =>
    let n := (s.tile r).dualq.length
    if r < r2 then dualRun n s r p r2 p2 else dualRun n s r2 p2 r p

/-! ## Timeout -/

/-- The operations of a plane for which the partner has issued none: past the partner's number in their lane. -/
def dualAlone (s : State) (r p r2 p2 : Nat) : List (Nat × DualOp) :=
  let a := dualWaiting s r p
  let b := dualWaiting s r2 p2
  ((a.map (·.1)).dedup).flatMap (fun l =>
    ((a.filter (fun e => decide (e.1 = l))).drop (b.filter (fun e => decide (e.1 = l))).length).map (·.2))

/-- ns of a number of clk at a package's frequency, rounded up. -/
def clkNs (s : State) (pkg n : Nat) : Nat := (10 * n + (s.pkg pkg).clk - 1) / (s.pkg pkg).clk

/-- The list of a tile without operations of a plane that are gone. -/
def tidyDual (s : State) (r p : Nat) : State :=
  s.modTile r (fun t => { t with dualq := t.dualq.filter (fun e => decide (e.1 ≠ p) || (dualLane s r p e.2.2).isSome) })

/-- Whether the partner's copy of a task is suspended: the pair's operations then wait for its return (R300). -/
def partnerOut (s : State) (r p : Nat) : Bool :=
  let k := (s.plane r p).task
  s.suspended.any (fun u => decide (u.rank = k.partner ∧ u.plane.task.launch = k.launch ∧ u.plane.task.index = k.index))

/-- An operation that stood alone for 4,096 clk is a mismatch; where the partner's task has ended, of the tile that is left. -/
def dualTimeouts (s : State) (r p : Nat) : State :=
  match partnerOf s r p with
  | none =>
    if !(s.plane r p).task.dual || partnerOut s r p then s
    else
      match dualWaiting s r p with
      | [] => s
      | e :: _ =>
        if e.2.1 + clkNs s (pkgOf r) 4096 < s.podTime then
          noteMismatch (mismatchDue s r p (dualKind s r p e.2.2)) r (s.plane r p).task.partner (dualKind s r p e.2.2)
        else emitOnce s (.dualTimeout r p)
  | some (r2, p2) =>
    match (dualAlone s r p r2 p2).find? (fun e => decide (e.1 + clkNs s (pkgOf r) 4096 < s.podTime)) with
    | some e => if r < r2 then dualMismatch s r p r2 p2 (dualKind s r p e.2) else dualMismatch s r2 p2 r p (dualKind s r p e.2)
    | none => if ((s.tile r).dualq.filter (fun e => decide (e.1 = p))).isEmpty then s else emitOnce s (.dualTimeout r p)

/-- Takes the DUALMISMATCH that is due at a boundary of a tile (R46, R292), after a heartbeat miss that is due there too. An
open speculation is given up first; during a drain the trap waits. The saved PC is that of the bundle that has not completed: an
EXIT that waits is one. -/
def takeMismatch (s : State) (r p kind : Nat) : State :=
  let t := s.tile r
  if t.fenced || t.monitor then s
  else if t.running.any (fun q => (t.pl q).missed) then s
  else if t.drains then s
  else
    let s := rollPlanes (s.modTile r (fun t => { t with dualDue := none })) r
    if (s.plane r p).state = 3 then
      let pc := (s.plane r p).resumePoint
      let s := s.modPlane r p (fun pl => { pl with exiting := none, yieldWait := false, plain := none })
      monitorEntry s r p { cause := cDUALMISMATCH, slot := 3, info := BitVec.ofNat 64 kind } pc (npcAt s r p pc)
    else s

/-- DUAL_TIMEOUT (R46): the pair's operations are compared; one that has stood alone too long is a mismatch; a mismatch that
is due is taken. -/
def execDualTimeout (rank plane : Nat) (s : State) : Host.Outcome State Fault Refusal :=
  runEvent (Instr.dualTimeout rank plane).wf s (fun s =>
    match (s.tile rank).dualDue with
    | some (p, kind) => takeMismatch s rank p kind
    | none => dualTimeouts (tidyDual (pumpDual s rank plane) rank plane) rank plane)

end Sys2Proof.Machine
end

