-- ==== Sys2Proof/Machine/Engine.lean ====
section
/-! DEFINITION. The M slot's message, request and lease words (spec/11_isa_memory.md R230 to R247; spec/04_messages.md R83,
R85, R86). -/

namespace Sys2Proof.Machine

/-! ## Envelopes and lengths -/

/-- GROUP of an envelope or a routing register's group (Table 11.4). -/
def envGroup (v : Word) : Nat := bitsHL v.toNat 47 40
/-- TAG of an envelope. -/
def envTag (v : Word) : Nat := bitsHL v.toNat 39 24
/-- RANK of an envelope. -/
def envRank (v : Word) : Nat := v.toNat % 2 ^ 24

/-- The most that a message or a receive carries (R73). -/
def capLen (l : Nat) : Nat := min l 16777216

/-- A buffer of n bytes in range; nothing is checked when it is empty (R231, R232). -/
def needBuffer (s : State) (t n : Nat) : Chk Unit := if n = 0 then .ok () else needRange s t n

/-! ## Sends -/

/-- A send of the context's task with the fields that its task gives (R38, R74). -/
def newSend (s : State) (id kind fn group tag len addr : Nat) (dsts : List Nat) : Send :=
  { id := id, kind := kind, flag := some fn, group := group, tag := tag, len := len, bytes := capLen len, addr := tsPhys s addr,
    copies := dsts.map (fun d => { dst := d, seq := 0 }), eager := decide (len ≤ s.ctx.task.eager), paired := !s.ctx.task.dual,
    spec := specOpen s, mv := s.ctx.task.bgroups, pv := phaseVec s.regs }

/-- What the three send words have in common after their registers are read. -/
def sendWord (s : State) (kind fn group tag : Nat) (l a : Word) (dsts : List Nat) (i : Instr) : Chk State := do
  let _ ← needBuffer s a.toNat (capLen l.toNat)
  let _ ← (if tag = 0xFFFF then illegal i else .ok ())
  let _ ← (if kind = 2 ∧ s.ctx.task.eager < l.toNat then illegal i else .ok ())
  let _ ← heldRoom s
  let (id, s) := freshId s
  let s := track s s.cur s.ctxP (tsPhys s a.toNat) (capLen l.toNat)
  .ok (addSend (bindFlag s fn id) (newSend s id kind fn group tag l.toNat a.toNat dsts))

/-- SEND (R231). -/
def execSend (f : MS) (s : State) : Host.Outcome State Fault Refusal :=
  runWord 2 f.g s (fun s => do
    let _ ← freeFlag s f.fn
    let m ← readX s f.rd
    let l ← readX s f.xl
    let a ← readX s f.xa
    sendWord s 1 f.fn (envGroup m) (envTag m) l a [envRank m] (.send f))

/-- The value of a routing register: a group over a rank. -/
def routeOf (s : State) (n : Nat) : Nat := (s.regs.route[n]?).getD 0

/-- SENDR (R231). -/
def execSendr (f : MS) (s : State) : Host.Outcome State Fault Refusal :=
  runWord 2 f.g s (fun s => do
    let _ ← freeFlag s f.fn
    let t ← readX s f.rd
    let l ← readX s f.xl
    let a ← readX s f.xa
    sendWord s 1 f.fn (routeOf s f.n / 2 ^ 24 % 256) (t.toNat % 65536) l a [routeOf s f.n % 2 ^ 24] (.sendr f))

/-- SENDM (R85, R231). -/
def execSendm (f : MS) (s : State) : Host.Outcome State Fault Refusal :=
  runWord 2 f.g s (fun s => do
    let _ ← freeFlag s f.fn
    let m ← readX s f.rd
    let l ← readX s f.xl
    let a ← readX s f.xa
    let me := s.regs.myrank
    sendWord s 2 f.fn (envGroup m) (envTag m) l a
      ((members s s.ctx.task.job (pkgOf me) (envGroup m)).filter (fun d => decide (d ≠ me))) (.sendm f))

/-! ## Receives -/

/-- Whether a receive's group and source are allowed (R70). -/
def recvOk (s : State) (job me src g : Nat) : Bool :=
  isMember s job (pkgOf me) g me
    && (decide (src = 0xFFFFFF) || isMember s job (pkgOf me) g src || decide (g = 0 ∧ 0x400 ≤ epOf src ∧ epOf src < 0x500))

/-- Whether an entry of a spill queue fits a receive. -/
def spillFits (e : Recv) : SpillE → Bool
  | .msg m => fits e.src e.tag e.group m
  | .pull _ => false

/-- Post (R76): the first admitted message that fits is delivered; otherwise the receive joins the queue. One that names a
fenced tile and finds nothing held completes PEERDOWN (R84). -/
def postRecv (s : State) (r p : Nat) (e : Recv) : State :=
  let pl := s.plane r p
  match pl.uq.find? (fun u => u.admitted && fits e.src e.tag e.group u.hdr) with
  | some u => wakeSpill (deliver (s.modPlane r p (fun pl => { pl with uq := pl.uq.erase u })) r p e u.hdr (uqSource u)) r p
  | none =>
    if e.src ≠ 0xFFFFFF ∧ (s.tile e.src).fenced = true ∧ pl.spillq.any (spillFits e) = false then endRecv s r p e stPEERDOWN
    else wakeSpill (s.modPlane r p (fun pl => { pl with prq := pl.prq ++ [e] })) r p

/-- What RECV and RECVF have in common (R232). -/
def recvWord (s : State) (f : MS) (fwd : Option Nat) : Chk State := do
  let _ ← noSpec s
  let _ ← freeFlag s f.fn
  let m ← readX s f.rd
  let l ← readX s f.xl
  let a ← readX s f.xa
  let _ ← needBuffer s a.toNat (capLen l.toNat)
  let _ ← orStall (decide (s.ctx.prq.length < 128))
  let (id, s) := freshId s
  let s := bindFlag s f.fn id
  let e : Recv := { id := id, flag := f.fn, src := envRank m, tag := envTag m, group := envGroup m, addr := tsPhys s a.toNat,
                    cap := capLen l.toNat, fwd := fwd, mv := s.ctx.task.bgroups, pv := phaseVec s.regs }
  .ok (if recvOk s s.ctx.task.job s.regs.myrank e.src e.group then postRecv s s.cur s.ctxP e
       else endRecv s s.cur s.ctxP e stNOROUTE)

/-- RECV (R232). -/
def execRecv (f : MS) (s : State) : Host.Outcome State Fault Refusal :=
  runWord 2 f.g s (fun s => recvWord s f none)

/-- RECVF (R86, R232). -/
def execRecvf (f : MS) (s : State) : Host.Outcome State Fault Refusal :=
  runWord 2 f.g s (fun s => recvWord s f (some (routeOf s f.n)))

/-- RCANCEL (R83, R233). -/
def execRcancel (f : MF) (s : State) : Host.Outcome State Fault Refusal :=
  runWord 2 f.g s (fun s => do
    let _ ← noSpec s
    match s.ctx.prq.find? (fun e => decide ((s.regs.fl f.fn).bound = some e.id ∧ e.flag = f.fn)) with
    | none => .ok s
    | some e => .ok (endRecv (s.modCtx (fun pl => { pl with prq := pl.prq.erase e })) s.cur s.ctxP e stCANCELLED))

/-- PROBE (R234). -/
def execProbe (f : MXF) (s : State) : Host.Outcome State Fault Refusal :=
  runWord 2 f.g s (fun s => do
    let _ ← freeFlag s f.fn
    let m ← readX s f.rd
    let (id, s) := freshId s
    let s := bindFlag s f.fn id
    .ok (if s.ctx.task.dual then pushDual s s.cur s.ctxP (.probe f.fn id m) else probeAt s s.cur s.ctxP f.fn id m))

/-! ## Vault requests -/

/-- Issues a request (R236): a check that fails completes the flag FAULT; otherwise the request waits to be sent. plen bytes
from the tile-store address addr are read at transmission and stand protected until then; dst is the address of its result. -/
def issueReq (s : State) (fn : Nat) (op : VOp) (va len addr plen dst a : Nat) : Chk State :=
  let (id, s) := freshId s
  let s := bindFlag s fn id
  let q := { newReq s id fn op va len with dst := dst, a := a }
  match (if op = .query then none else reqCheck q) with
  | some fc => .ok (completeFlag s s.cur s.ctxP fn id (reqRecord q stFAULT fc 0 0 0))
  | none =>
    let e : ReqSt := { req := q, addr := addr, len := plen, ready := !s.ctx.task.dual, under := specOpen s }
    let s := s.modTile s.cur (fun t => { t with reqs := t.reqs ++ [e] })
    .ok (if s.ctx.task.dual then pushDual s s.cur s.ctxP (.req id) else pumpReqs s s.cur)

/-- GET (R237). -/
def execGet (f : MS) (s : State) : Host.Outcome State Fault Refusal :=
  runWord 2 f.g s (fun s => do
    let _ ← freeFlag s f.fn
    let v ← readX s f.rd
    let l ← readX s f.xl
    let a ← readX s f.xa
    let _ ← needBuffer s a.toNat l.toNat
    issueReq s f.fn .get v.toNat l.toNat 0 0 (tsPhys s a.toNat) 0)

/-- PUT (R237). -/
def execPut (f : MS) (s : State) : Host.Outcome State Fault Refusal :=
  runWord 2 f.g s (fun s => do
    let _ ← noSpec s
    let _ ← freeFlag s f.fn
    let v ← readX s f.rd
    let l ← readX s f.xl
    let a ← readX s f.xa
    let _ ← needBuffer s a.toNat l.toNat
    issueReq s f.fn .put v.toNat l.toNat (tsPhys s a.toNat) l.toNat 0 0)

/-- ATOM (R238): the operands stand at the block, the old value goes to its byte 32. -/
def execAtom (f : MA) (s : State) : Host.Outcome State Fault Refusal :=
  runWord 2 f.g s (fun s => do
    let _ ← noSpec s
    let _ ← freeFlag s f.fn
    let v ← readX s f.rd
    let a ← readX s f.xa
    let _ ← needAlign a.toNat 16
    let _ ← needRange s a.toNat 48
    issueReq s f.fn (.atom f.op f.w) v.toNat (if f.w then 16 else 8) (tsPhys s a.toNat) 32 (tsPhys s a.toNat + 32) 0)

/-- RED (R239). -/
def execRed (f : MA) (s : State) : Host.Outcome State Fault Refusal :=
  runWord 2 f.g s (fun s => do
    let _ ← noSpec s
    let _ ← freeFlag s f.fn
    let v ← readX s f.rd
    let x ← readX s f.xa
    issueReq s f.fn (.red f.op f.w) v.toNat (if f.w then 8 else 4) 0 0 0 (x.toNat % 2 ^ (if f.w then 64 else 32)))

/-- REDF (R240). -/
def execRedf (f : MS) (s : State) : Host.Outcome State Fault Refusal :=
  runWord 2 f.g s (fun s => do
    let _ ← noSpec s
    let _ ← freeFlag s f.fn
    let v ← readX s f.rd
    let x ← readX s f.xa
    let q ← readX s f.xl
    issueReq s f.fn (.redf q.toNat) v.toNat 4 0 0 0 (x.toNat % 2 ^ 32))

/-- FSHIP (R241): the operands stand at the block, the reply goes to its byte 16. -/
def execFship (f : MFs) (s : State) : Host.Outcome State Fault Refusal :=
  runWord 2 f.g s (fun s => do
    let _ ← noSpec s
    let _ ← freeFlag s f.fn
    let v ← readX s f.rd
    let a ← readX s f.xa
    let _ ← needAlign a.toNat 16
    let _ ← needRange s a.toNat 32
    issueReq s f.fn (.fship f.r) v.toNat 64 (tsPhys s a.toNat) 16 (tsPhys s a.toNat + 16) 0)

/-- QUERY (R242): 4,224 bytes stand protected until the vector has been read. -/
def execQuery (f : MAF) (s : State) : Host.Outcome State Fault Refusal :=
  runWord 2 f.g s (fun s => do
    let _ ← noSpec s
    let _ ← freeFlag s f.fn
    let a ← readX s f.xa
    let _ ← needAlign a.toNat 64
    let _ ← needRange s a.toNat 128
    issueReq s f.fn .query 0 128 (tsPhys s a.toNat) 4224 a.toNat 0)

/-! ## Scopes and FENCE.S (R103) -/

/-- Whether a target lies in a scope of a task (Table 5.4). -/
def inScope (scope rank target : Nat) : Bool :=
  let e := epOf rank
  let t := epOf target
  let same := decide (pkgOf rank = pkgOf target)
  decide (scope = 4) || decide (rank = target)
    || (decide (scope = 3) && same)
    || (decide (1 ≤ scope) && same && decide (t < 0x400 ∧ t / 256 = e / 256 ∧ t / 64 % 4 = e / 64 % 4 ∧ t / 4 % 4 = e / 4 % 4))
    || (decide (2 ≤ scope) && same && decide (t < 0x400 ∧ t / 256 = e / 256))
    || (decide (2 ≤ scope) && same && decide (0x400 ≤ t ∧ t < 0x500 ∧ (t - 0x400) / 64 = e / 256))

/-- The runs of a copy from a byte on. -/
def runsFrom (c : CopyCmd) (g : Regs) : Nat → Nat → List CRun
  | 0, _ => []
  | n + 1, i =>
    if c.total g ≤ i then []
    else
      let x := c.runAt g i
      x :: runsFrom c g n (x.start + max 1 x.len)

/-- The target of a byte of a task's virtual memory, where its address translates. -/
def vaTarget (s : State) (r part va : Nat) : Option Nat :=
  if 2 ^ 48 ≤ va then none else (peekTr s r part va).map (fun t => trTarget s r t (t.dpaOf va))

/-- The targets that a copy has still to write: one for each 64 KiB page of what is left of its destination. -/
def copyTargets (s : State) (r part : Nat) (g : Regs) (c : CopyCmd) : List Nat :=
  (runsFrom c g (c.total g) c.moved).flatMap (fun x =>
    let a := x.dst.toNat
    (List.range ((a + (x.len - 1)) / 65536 + 1 - a / 65536)).filterMap (fun i => vaTarget s r part (max a ((a / 65536 + i) * 65536))))

/-- Where a request goes: its target, or the one that its address has now. -/
def reqTarget (s : State) (q : Req) : Option Nat := if q.vault ≠ 0 then some q.vault else vaTarget s q.rank q.part q.va

/-- Whether the context plane has an operation issued earlier, with its target in scope, that is not performed (R103, Table
5.5). During a speculation only operations issued before it count. An address that does not translate has no target: its
operation ends there. Of a SENDM the copies in scope count alone, and a RECVF's forward counts from the match of its receive on
(DEDUCED, log entry 15). -/
def fenceWaits (s : State) (scope : Nat) : Bool :=
  let p := s.ctx
  let lim := match p.spec with
    | some sp => sp.firstOp
    | none => s.nextId
  let rank := p.regs.myrank
  p.sends.any (fun sd => decide (sd.id < lim) && !sd.spec &&
      sd.copies.any (fun c => !c.settled && c.fin.isNone && inScope scope rank c.dst))
    || s.curTile.reqs.any (fun q => decide (q.req.plane = s.ctxP ∧ q.req.id < lim) && isWrite q.req.op
        && (reqTarget s q.req).any (inScope scope rank))
    || (List.range 4).any (fun k => ((p.chan[k]?).getD []).any (fun c =>
        decide (c.id < lim) && c.dvault && (copyTargets s s.cur p.task.part p.regs c).any (inScope scope rank)))

/-- FENCE.S (R103). -/
def execFenceS (f : MFs2) (s : State) : Host.Outcome State Fault Refusal :=
  runWord 2 f.g s (fun s => do
    let _ ← orStall (!fenceWaits s f.scope)
    .ok s)

/-! ## Leases and slots -/

/-- LEASE (R243). -/
def execLease (f : MXF) (s : State) : Host.Outcome State Fault Refusal :=
  runWord 2 f.g s (fun s => do
    let _ ← noSpec s
    let _ ← freeFlag s f.fn
    let v ← readX s f.rd
    let (id, s) := freshId s
    let s := bindFlag s f.fn id
    .ok (if s.ctx.task.dual then pushDual s s.cur s.ctxP (.lease f.fn id v) else leasePost s s.cur s.ctxP f.fn id 0 v))

/-- UNLEASE (R244). -/
def execUnlease (f : MX) (s : State) : Host.Outcome State Fault Refusal :=
  runWord 2 f.g s (fun s => do
    let _ ← noSpec s
    let v ← readX s f.rd
    .ok (if s.ctx.task.dual then pushDual s s.cur s.ctxP (.unlease (v.toNat % 65536))
         else unleaseAt s (pkgOf s.cur) s.ctx.task.job (v.toNat % 65536)))

/-- Asks the lane manager (R245, R246). -/
def askWord (s : State) (fn : Nat) (slot : Bool) (what : Nat) : State :=
  let (id, s) := freshId s
  let s := (bindFlag s fn id).modCtx (fun pl => { pl with askIds := pl.askIds ++ [id] })
  let l : LmAsk := { rank := s.cur, plane := s.ctxP, fn := fn, id := id, slot := slot, what := what }
  if s.ctx.task.dual then pushDual s s.cur s.ctxP (.ask l) else emit s (.laneManagerAnswer l)

/-- LEASEQ (R245). -/
def execLeaseq (f : MXF) (s : State) : Host.Outcome State Fault Refusal :=
  runWord 2 f.g s (fun s => do
    let _ ← freeFlag s f.fn
    let v ← readX s f.rd
    .ok (askWord s f.fn false (v.toNat % 65536)))

/-- SLOTQ (R246). -/
def execSlotq (f : MXF) (s : State) : Host.Outcome State Fault Refusal :=
  runWord 2 f.g s (fun s => do
    let _ ← freeFlag s f.fn
    let v ← readX s f.rd
    .ok (askWord s f.fn true (v.toNat % 4096)))

end Sys2Proof.Machine
end

