-- ==== Sys2Proof/Machine/Vault.lean ====
section
/-! DEFINITION. What a vault does with a request (spec/06_vaults.md R112 to R124; spec/18_sys_translation.md R323 to R326), the
answers at the tile (R237 to R241, R250), and host atomics (R109). -/

namespace Sys2Proof.Machine

/-! ## Answers and conflicts -/

/-- The vaults that a request visits (R323): the one it is sent to, and those to which it is forwarded. -/
def visits (s : State) (q : Req) : List Nat :=
  let n := nominalVault q.pkg q.dpa
  let h := s.holdingVault q.pkg q.dpa
  if q.vault = h then [h] else if q.vault = n then [n, h] else [q.vault, n, h]

/-- An answer goes to the tile. -/
def replyTo (s : State) (q : Req) (home st fc : Nat) (data : List Byte) (done : Nat) : State :=
  emitNet s home q.rank data.length (.vaultReply { req := q, status := st, fcode := fc, data := data, done := done, home := home })

/-- The bytes of a request that its record counts, after a fault: those that a PUT has written (R326). -/
def keptOf (q : Req) : Nat := if q.op = .put then q.done else 0

/-- A request at its vault: a fenced vault answers MEMERR (R340), and one in no valid partition serves nothing (R328), which ends the
request with XPART (DESIGN CHOICE, log entry 96); a page that moves answers RNR (R324), over the network, but not to a GET or PUT of
which a granule has been performed; f performs the rest at the vault that holds the page. -/
def atVault (s : State) (q : Req) (f : State → Nat → State) : State :=
  let v := visits s q
  match v.find? (fun v => (s.vault v).fenced) with
  | some v => replyTo s q v stFAULT fcMEMERR [] (keptOf q)
  | none =>
    match v.find? (fun v => (s.partOf v).isNone) with
    | some v => replyTo s q v stFAULT fcXPART [] (keptOf q)
    | none =>
      let h := s.holdingVault q.pkg q.dpa
      if (s.pkg q.pkg).isMoving (dpn64 q.dpa) && decide (q.done ≤ q.base) then emitNet s h q.rank 0 (.rnrRetry q)
      else f s h

/-- The entries of a filter for which a write of ranges is a conflict (R124). -/
def clashes (v : Vault) (q : Req) (l : List (Nat × Nat)) : List FEntry :=
  v.filter.filter (fun e => oldPhase q.mv q.pv e.group (decide (e.phase = 1)) && l.any (fun x => sameLine x.1 x.2 (64 * e.line) 64))

/-- Acknowledges a write of ranges, or withholds the acknowledgement and sends a notice to every reader (R124). -/
def ackWrite (s : State) (q : Req) (home st fc : Nat) (data : List Byte) (done : Nat) (l : List (Nat × Nat)) : State :=
  let c := clashes (s.vault home) q l
  if c = [] then replyTo s q home st fc data done
  else
    let rep : Reply := { req := q, status := st, fcode := fc, data := data, done := done, home := home }
    let s := s.modVault home (fun v => { v with withheld := v.withheld ++ [(rep, c)] })
    ((c.map (fun e => (e.rank, e.plane, e.number))).dedup).foldl
      (fun s e => emitNet s home e.1 0 (.conflictNotice e.1 e.2.1 e.2.2)) s

/-- The status in a reply that stands for FILTERFULL: no request of Table 11.6 ends STUBBED. -/
def stFILTERFULL : Nat := stSTUBBED

/-! ## The requests -/

/-- The filter entries that a marked read adds (R123, R282). -/
def newEntries (v : Vault) (q : Req) : List FEntry :=
  ((List.range ((q.dpa + (q.upto - q.base) - 1) / 64 + 1 - q.dpa / 64)).map (fun i =>
    ({ rank := q.rank, plane := q.plane, number := q.number, group := q.sgroup, phase := q.sphase, line := q.dpa / 64 + i } : FEntry))).filter
    (fun e => !(v.filter.any (fun x => decide (x.rank = e.rank ∧ x.plane = e.plane ∧ x.number = e.number ∧ x.line = e.line))))

/-- The DPA of the byte of a GET or PUT that comes next. -/
def hereOf (q : Req) : Nat := q.dpa + (q.done - q.base)

/-- How many bytes of a GET or PUT the granule of the next byte holds, up to the end of its part (R97). -/
def nextGran (q : Req) : Nat := min (16 - hereOf q % 16) (q.upto - q.done)

/-- The next granule of a GET at the vault that holds its page: data gathers what has been read (R97, R237). The answer leaves after
the last. -/
def readGran (s : State) (q : Req) (home : Nat) : State :=
  match vaultRead s home q.pkg (hereOf q) (nextGran q) with
  | (s, .error g) => replyTo (memFault s q.pkg g) { q with data := [] } home stFAULT fcMEMERR [] 0
  | (s, .ok b) =>
    let done := q.done + b.length
    if done < q.upto then emit s (.vaultGet { q with done := done, data := q.data ++ b })
    else replyTo s { q with data := [] } home stOK 0 (q.data ++ b) done

/-- A GET at the vault that holds its page. A marked one that finds room for some of its lines alone makes no entry and is answered
FILTERFULL like one that finds none (DESIGN CHOICE, log entry 97). -/
def getAt (s : State) (q : Req) (home : Nat) : State :=
  let new := if q.spec then newEntries (s.vault home) q else []
  if 64 < (s.vault home).filter.length + new.length ∧ new ≠ [] then replyTo s { q with data := [] } home stFILTERFULL 0 [] 0
  else readGran (s.modVault home (fun v => { v with filter := v.filter ++ new })) q home

/-- VAULT_GET (R112, R123). -/
def execVaultGet (q : Req) (s : State) : Host.Outcome State Fault Refusal :=
  runEvent (Instr.vaultGet q).wf s (fun s => atVault s q (fun s h => getAt s q h))

/-- The next granule of a PUT at the vault that holds its page (R97, R237). The acknowledgement leaves after the last. -/
def putAt (s : State) (q : Req) (home : Nat) : State :=
  let b := (q.data.drop q.done).take (nextGran q)
  match storeBytes q.pkg (granDpas (hereOf q) b.length) (hereOf q) b s with
  | (s, n, some g) => ackWrite (memFault s q.pkg g) q home stFAULT fcMEMERR [] (q.done + n) [(q.dpa, q.done + n - q.base)]
  | (s, n, none) =>
    if q.done + n < q.upto then emit s (.vaultPut { q with done := q.done + n })
    else ackWrite s q home stOK 0 [] (q.done + n) [(q.dpa, q.done + n - q.base)]

/-- VAULT_PUT (R112, R124). -/
def execVaultPut (q : Req) (s : State) : Host.Outcome State Fault Refusal :=
  runEvent (Instr.vaultPut q).wf s (fun s => atVault s q (fun s h => putAt s q h))

/-- The new value of Table 6.2 at a width of w bytes; nothing for a reserved operation. A CAS whose compare fails leaves the
old value. -/
def atomOp (op w old a b : Nat) : Option Nat :=
  let m := 2 ^ (8 * w)
  let lt := fun (x y : Nat) => decide (sextN (8 * w) x < sextN (8 * w) y)
  let a := a % m
  match op with
  | 0 => some ((old + a) % m)
  | 1 => some (old &&& a)
  | 2 => some (old ||| a)
  | 3 => some (old ^^^ a)
  | 4 => some (if lt old a then old else a)
  | 5 => some (if lt old a then a else old)
  | 6 => some (min old a)
  | 7 => some (max old a)
  | 8 => some a
  | 9 => some (if old = a then b % m else old)
  | _ => none

/-- Whether an operation writes: a CAS whose compare fails does not. -/
def atomWrites (op w old a : Nat) : Bool := decide (op ≠ 9 ∨ old = a % 2 ^ (8 * w))

/-- An ATOM at the vault that holds its page (R114). -/
def atomAt (s : State) (q : Req) (home op w : Nat) : State :=
  if 10 ≤ op then replyTo s q home stFAULT fcBADOP [] 0
  else
    match vaultRead s home q.pkg q.dpa w with
    | (s, .error g) => replyTo (memFault s q.pkg g) q home stFAULT fcMEMERR [] 0
    | (s, .ok b) =>
      let old := leNat b
      if atomWrites op w old q.a then
        ackWrite (s.dpaStore q.pkg q.dpa (leBytes w ((atomOp op w old q.a q.b).getD old))) q home stOK 0 b w [(q.dpa, w)]
      else replyTo s q home stOK 0 b w

/-- The width in bytes of an ATOM or a RED. -/
def opWidth : VOp → Nat
  | .atom _ w => if w then 16 else 8
  | .red _ w => if w then 8 else 4
  | _ => 0

/-- The operation code of an ATOM or a RED. -/
def opCode : VOp → Nat
  | .atom op _ => op
  | .red op _ => op
  | _ => 0

/-- VAULT_ATOM (R114). -/
def execVaultAtom (q : Req) (s : State) : Host.Outcome State Fault Refusal :=
  runEvent (Instr.vaultAtom q).wf s (fun s => atVault s q (fun s h => atomAt s q h (opCode q.op) (opWidth q.op)))

/-- A RED at the vault that holds its page (R116). Merging in the routers leaves the same value (R105). -/
def redAt (s : State) (q : Req) (home op w : Nat) : State :=
  if 8 ≤ op then replyTo s q home stFAULT fcBADOP [] 0
  else
    match vaultRead s home q.pkg q.dpa w with
    | (s, .error g) => replyTo (memFault s q.pkg g) q home stFAULT fcMEMERR [] 0
    | (s, .ok b) =>
      ackWrite (s.dpaStore q.pkg q.dpa (leBytes w ((atomOp op w (leNat b) q.a q.b).getD 0))) q home stOK 0 [] w [(q.dpa, w)]

/-- VAULT_RED (R116). -/
def execVaultRed (q : Req) (s : State) : Host.Outcome State Fault Refusal :=
  runEvent (Instr.vaultRed q).wf s (fun s => atVault s q (fun s h => redAt s q h (opCode q.op) (opWidth q.op)))

/-- Room for an object in the table of 16 entries: the least recently used leaves, its sum completed first (R117). A sum that meets a
granule that cannot be read is not made, and the object leaves all the same: R117 states nothing of it (DESIGN CHOICE, log
entry 46). -/
def roomObj (s : State) (home pkg base : Nat) : State :=
  let l := (s.vault home).objects
  if l.any (fun o => decide (o.1 = base)) ∨ l.length < 16 then s
  else
    match l.head? with
    | none => s
    | some o =>
      let s := if o.2 then (completeSum s home pkg o.1).1 else s
      s.modVault home (fun v => { v with objects := v.objects.filter (fun x => decide (x.1 ≠ o.1)) })

/-- A REDF at the vault that holds its object (R117). -/
def redfAt (s : State) (q : Req) (home slot : Nat) : State :=
  match firstBad s q.pkg q.dpa 16 with
  | some g => replyTo (memFault s q.pkg g) q home stFAULT fcMEMERR [] 0
  | none =>
    let n := leNat (s.dpaBytes q.pkg (q.dpa + 4) 4)
    if !objOk q.dpa n then replyTo s q home stFAULT fcREDOBJ [] 0
    else if n ≤ slot then replyTo s q home stFAULT fcREDSLOT [] 0
    else
      let sa := q.dpa + 64 + bitmapLen n + 4 * slot
      let ba := q.dpa + 64 + slot / 8
      match (firstBad s q.pkg sa 4).orElse (fun _ => firstBad s q.pkg ba 1) with
      | some g => replyTo (memFault s q.pkg g) q home stFAULT fcMEMERR [] 0
      | none =>
        let old := leNat (s.dpaBytes q.pkg ba 1)
        let s := roomObj s home q.pkg q.dpa
        let s := (s.dpaStore q.pkg sa (leBytes 4 q.a)).dpaStore q.pkg ba (leBytes 1 (old ||| 2 ^ (slot % 8)))
        let s := s.modVault home (fun v => { v with objects := v.objects.filter (fun o => decide (o.1 ≠ q.dpa)) ++ [(q.dpa, true)] })
        ackWrite s q home stOK 0 [] 4 [(sa, 4), (ba, 1)]

/-- The slot of a REDF. -/
def opSlot : VOp → Nat
  | .redf n => n
  | _ => 0

/-- VAULT_REDF (R117). -/
def execVaultRedf (q : Req) (s : State) : Host.Outcome State Fault Refusal :=
  runEvent (Instr.vaultRedf q).wf s (fun s => atVault s q (fun s h => redfAt s q h (opSlot q.op)))

/-! ## Routines (R118, R119) -/

/-- Where a routine stands: its step, the line, T, C and whether a word was written. -/
structure Rout where
  step : Nat := 1
  l : List Word
  t : Word := 0
  c : Bool := false
  wrote : Bool := false
  fin : Bool := false
  deriving DecidableEq, Repr

/-- A word of the line. -/
def Rout.w (x : Rout) (i : Nat) : Word := (x.l[i]?).getD 0

/-- T after a step of OP 0x1 to 0xB. -/
def routT (op : Nat) (v sv t : Word) : Word :=
  match op with
  | 1 => sv
  | 2 => v + sv
  | 3 => v - sv
  | 4 => v &&& sv
  | 5 => v ||| sv
  | 6 => v ^^^ sv
  | 7 => if v.toInt < sv.toInt then v else sv
  | 8 => if v.toInt < sv.toInt then sv else v
  | 9 => if v.toNat < sv.toNat then v else sv
  | 10 => if v.toNat < sv.toNat then sv else v
  | 11 => BitVec.ofNat 64 (fadd f32 .rne (f32.decode (v.toNat % 2 ^ 32)) (f32.decode (sv.toNat % 2 ^ 32))).1
  | _ => t

/-- One step of a routine (Tables 6.5, 6.6). -/
def routStep (st : Nat) (a b : Word) (x : Rout) : Rout :=
  let op := bitsHL st 31 28
  let i := bitsHL st 27 25
  let src := bitsHL st 24 23
  let sv := if src = 0 then a else if src = 1 then b else if src = 2 then x.t else x.w (bitsHL st 22 20)
  let nx := { x with step := x.step + 1 }
  if op = 0 then { x with fin := true }
  else if op = 12 then { nx with c := decide (x.w i = sv) }
  else if op = 13 then { nx with c := decide ((x.w i).toInt < sv.toInt) }
  else if op = 14 then
    if st.testBit 19 && !x.c then nx else { nx with l := x.l.set i x.t, wrote := true }
  else if op = 15 then { nx with step := x.step + 1 + (if x.c then 0 else bitsHL st 18 16) }
  else { nx with t := routT op (x.w i) sv x.t }

/-- Runs a routine whose step words a function gives. -/
def routRun (ws : Nat → Nat) (a b : Word) : Nat → Rout → Rout
  | 0, x => x
  | n + 1, x => if x.fin ∨ 15 < x.step then x else routRun ws a b n (routStep (ws x.step) a b x)

/-- The eight words of a line. -/
def lineWords (b : List Byte) : List Word := (List.range 8).map (fun i => BitVec.ofNat 64 (leNat ((b.drop (8 * i)).take 8)))

/-- An FSHIP at the vault that holds its line (R119). -/
def fshipAt (s : State) (q : Req) (home r : Nat) : State :=
  let ws := fun k => ngetD (s.vault home).routine (16 * r + k) 0
  if !(ws 0).testBit 31 then replyTo s q home stFAULT fcFSHIPINV [] 0
  else
    match vaultRead s home q.pkg q.dpa 64 with
    | (s, .error g) => replyTo (memFault s q.pkg g) q home stFAULT fcMEMERR [] 0
    | (s, .ok b) =>
      let x : Rout := { l := lineWords b }
      let old := x.w (bitsHL (ws 0) 30 28)
      let y := routRun ws (BitVec.ofNat 64 q.a) (BitVec.ofNat 64 q.b) 15 x
      let data := leBytes 8 old.toNat ++ leBytes 8 y.t.toNat
      if y.wrote then
        ackWrite (s.dpaStore q.pkg q.dpa (y.l.flatMap (fun w => leBytes 8 w.toNat))) q home stOK 0 data 64 [(q.dpa, 64)]
      else replyTo s q home stOK 0 data 64

/-- The routine of an FSHIP. -/
def opRout : VOp → Nat
  | .fship r => r
  | _ => 0

/-- VAULT_FSHIP (R119). -/
def execVaultFship (q : Req) (s : State) : Host.Outcome State Fault Refusal :=
  runEvent (Instr.vaultFship q).wf s (fun s => atVault s q (fun s h => fshipAt s q h (opRout q.op)))

/-! ## Release flits (R124, R282) -/

/-- Frees the entries of a speculation at a vault and releases the acknowledgements withheld for them alone, in order. -/
def releaseAt (s : State) (f : Flit) : State :=
  let mine := fun (e : FEntry) => decide (e.rank = f.rank ∧ e.plane = f.plane ∧ e.number = f.number)
  let v := s.vault f.vault
  let w := v.withheld.map (fun x => (x.1, x.2.filter (fun e => !mine e)))
  let s := s.modVault f.vault (fun v =>
    { v with filter := v.filter.filter (fun e => !mine e), withheld := w.filter (fun x => decide (x.2 ≠ [])) })
  (w.filter (fun x => decide (x.2 = []))).foldl (fun s x => emitNet s f.vault x.1.req.rank x.1.data.length (.vaultReply x.1)) s

/-- RELEASE_FLIT (R124, R282): the entries are freed, and the flit is acknowledged. -/
def execReleaseFlit (f : Flit) (s : State) : Host.Outcome State Fault Refusal :=
  runEvent (Instr.releaseFlit f).wf s (fun s => emitNet (releaseAt s f) f.vault f.rank 0 (.releaseFlitAck f))

/-- The speculations that have ended, after a vault's acknowledgement of a flit: one with none outstanding leaves. -/
def flitAcked (l : List Releasing) (f : Flit) : List Releasing :=
  (l.map (fun e => if e.number = f.number then { e with waiting := e.waiting.erase f.vault } else e)).filter
    (fun e => !(e.toSend.isEmpty && e.waiting.isEmpty))

/-- RELEASE_FLIT_ACK (R282). -/
def execReleaseFlitAck (f : Flit) (s : State) : Host.Outcome State Fault Refusal :=
  runEvent (Instr.releaseFlitAck f).wf s (fun s =>
    s.modPlane f.rank f.plane (fun pl => { pl with releasing := flitAcked pl.releasing f }))

/-! ## Answers at the tile -/

/-- The escrow lines without the bytes of a range: a reply that lands in a drain stays (R44). -/
def escDrop (ls : List (Nat × NMap Byte)) (a n : Nat) : List (Nat × NMap Byte) :=
  ls.map (fun l => (l.1, l.2.filter (fun b => decide (64 * l.1 + b.1 < a ∨ a + n ≤ 64 * l.1 + b.1))))

/-- How an answer's bytes can be written at the tile now; a wait for room in escrow has been counted (R44). -/
inductive Land where
  | done (s : State)
  | wait (s : State)
  | faulted

/-- Writes an answer's bytes on the message path (R237, R238, R241): to escrow for a request of the open speculation. -/
def landReply (s : State) (r : Nat) (q : Req) (b : List Byte) : Land :=
  if b = [] then .done s
  else
    match winTile (s.tile r) q.plane q.dst b.length 4 with
    | .wait => .wait s
    | .faulted _ => .faulted
    | .clear =>
      match (s.plane r q.plane).spec with
      | none => .done (tsStore s r pathN q.id q.dst b)
      | some sp =>
        if q.id < sp.firstOp then .done (tsStore s r pathN q.id q.dst b)
        else if sp.committing then
          .done ((tsStore s r pathN q.id q.dst b).modPlane r q.plane (fun pl =>
            { pl with spec := some { sp with escrow := escDrop sp.escrow q.dst b.length } }))
        else if escRoom (s.plane r q.plane) q.dst b.length then
          .done ((escStore s r q.plane q.dst b).modPlane r q.plane (fun pl =>
            { pl with spec := pl.spec.map (fun sp => { sp with engCounted := false }) }))
        else .wait (engStall s r q.plane)

/-- The bytes of an answer that go to the tile store. -/
def replyBytes (p : Reply) : List Byte := if p.status = stOK then p.data else []

/-- Ends a flagged request at a tile with an answer; an error leaves the answer waiting, in that state. -/
def endReq (s : State) (r : Nat) (q : Req) (p : Reply) : Except State State :=
  match landReply s r q (replyBytes p) with
  | .wait s => .error s
  | .faulted => .ok (completeFlag (dropReq s r q.id) r q.plane q.flag q.id (reqRecord q stFAULT fcENGFAULT p.home 0 0))
  | .done s =>
    .ok (completeFlag (dropReq s r q.id) r q.plane q.flag q.id
      (reqRecord q p.status p.fcode p.home p.done (replyBytes p).length))

/-- The twin of a request at the partner of its DUAL task. -/
def twinReq (s : State) (r p id : Nat) : Option (Nat × ReqSt) :=
  match partnerOf s r p with
  | none => none
  | some (r2, _) => ((s.tile r2).reqs.find? (fun e => decide (e.twin = id ∧ id ≠ 0))).map (fun e => (r2, e))

/-- An answer ends a request at one tile. -/
def answerOne (s : State) (r : Nat) (e : ReqSt) (p : Reply) : Except State State :=
  if e.dropped then .ok (dropReq s r e.req.id)
  else
    match e.owner with
    | .copy k => .ok (copyReply (dropReq s r e.req.id) r e.req.plane k e.req p.status p.fcode p.data)
    | .flag => endReq s r e.req p

/-- FILTERFULL reaches the tile (R44, R123): the read stalls, counted in STALLS, until its speculation ends. -/
def filterFull (s : State) (r : Nat) (e : ReqSt) : State :=
  if e.dropped then dropReq s r e.req.id
  else
    let s := putReq s r { e with sent := false, full := e.under, req := { e.req with spec := false } }
    if e.under then
      s.modPlane r e.req.plane (fun pl => { pl with regs := { pl.regs with specst := bumpSpecst pl.regs.specst 48 } })
    else s

/-- A speculation notes the vault that answered its marked read: a forwarded read has its filter entry there, and its release flit
goes there (R124, R282, R323). -/
def noteVault (pl : Plane) (q : Req) (home : Nat) : Plane :=
  if !q.spec || q.host then pl
  else
    { pl with
      spec := pl.spec.map (fun sp =>
        if sp.number = q.number ∧ sp.vaults.contains home = false then { sp with vaults := sp.vaults ++ [home] } else sp)
      releasing := pl.releasing.map (fun e =>
        if e.number = q.number ∧ (e.toSend ++ e.waiting).contains home = false then { e with toSend := e.toSend ++ [home] } else e) }

/-- The location cache of a tile learns the vault that answered (R323). -/
def learnLoc (s : State) (r : Nat) (p : Reply) : State :=
  if p.req.host ∨ p.home = 0 then s
  else s.modTile r (fun t => { t with loc := noteLoc t.loc (locKey p.req.pkg p.req.dpa) p.home })

/-- Whether an answer ends a part of a GET or PUT of which another part is still to come (R315). -/
def morePart (q : Req) (p : Reply) : Bool :=
  decide (p.status = stOK ∧ (q.op = .get ∨ q.op = .put) ∧ p.done < q.len)

/-- A GET or PUT goes on with its next part: a GET keeps what it has read. -/
def nextPart (s : State) (r : Nat) (e : ReqSt) (p : Reply) : State :=
  if e.dropped then dropReq s r e.req.id
  else
    let q := e.req
    putReq s r { e with
      sent := false, len := 0
      req := { q with vault := 0, base := p.done, done := p.done, data := if q.op = .get then q.data ++ p.data else q.data } }

/-- An answer with the bytes of a GET's earlier parts. -/
def joined (q : Req) (p : Reply) : Reply :=
  if q.op = .get ∧ p.status = stOK then { p with data := q.data ++ p.data } else p

/-- A reply reaches the tile (R237): it ends the request and, in a DUAL pair, the partner's, or a part of a request that crosses a
leaf, whose next part is then sent (R315); what waited behind it goes on. -/
def replyAt (s : State) (p : Reply) : State :=
  let r := p.req.rank
  match (s.tile r).reqOf p.req.id with
  | none => s
  | some e =>
    let s := (learnLoc s r p).modPlane r p.req.plane (fun pl => noteVault pl p.req p.home)
    let tw := twinReq s r p.req.plane p.req.id
    let done := fun (s : State) => pumpRelease (pumpTile s r) r p.req.plane
    if p.status = stFILTERFULL then done (filterFull s r e)
    else if morePart e.req p then done (nextPart s r e p)
    else
      let p0 := p
      let p := joined e.req p
      match answerOne s r e p with
      | .error s => emitOnce s (.vaultReply p0)
      | .ok t =>
        match tw with
        | none => done t
        | some (r2, e2) =>
          match answerOne t r2 e2 p with
          | .error t => emitOnce { s with tiles := nset s.tiles r2 (t.tile r2) } (.vaultReply p0)
          | .ok t => done (pumpTile t r2)

/-- VAULT_REPLY (R237). -/
def execVaultReply (p : Reply) (s : State) : Host.Outcome State Fault Refusal :=
  runEvent (Instr.vaultReply p).wf s (fun s => replyAt s p)

/-- RNR_RETRY (R325): the request goes again, whatever the back-off; one that a rollback dropped does not. -/
def execRnrRetry (q : Req) (s : State) : Host.Outcome State Fault Refusal :=
  runEvent (Instr.rnrRetry q).wf s (fun s =>
    match (s.tile q.rank).reqOf q.id with
    | none => s
    | some e =>
      if e.dropped then pumpRelease (pumpReqs (dropReq s q.rank q.id) q.rank) q.rank q.plane
      else
        emitReq s { q with tries := q.tries + 1 })

/-- Serves a request that joined a walk with the walk's outcome (R318): the leaf is installed in the die TLB and the tile, or
the request faults. An entry that has come to cover the address meanwhile is used instead (R315, R316). -/
def serveWalk (s : State) (r id : Nat) (out : Except WalkErr Tr) : State :=
  match (s.tile r).reqOf id with
  | none => s
  | some e =>
    if e.sent then s
    else
      match lookupTile s r e.req.part (nextVa e.req) with
      | some (t, s) => pumpReqs (withEntry s r e t) r
      | none =>
        match out with
        | .error x => refuseReq s r e x.code
        | .ok t =>
          let die := dieOf (epOf r)
          let s := (s.modPkg (pkgOf r) (fun p => { p with tlb := nset p.tlb die (fillTlb (ngetD p.tlb die []) t) })).modTile r
            (fun k => { k with tr := fillTile k.tr t })
          pumpReqs (withEntry s r e t) r

/-- The misses of a package that wait for a walker try again, in arrival order (R318). -/
def nextWalks (s : State) (pkg : Nat) : State :=
  let l := (s.pkg pkg).walkWait
  l.foldl (fun s x =>
    match (s.tile x.1).reqOf x.2 with
    | none => s
    | some e => if e.sent then s else missWalk s x.1 e) (s.modPkg pkg (fun p => { p with walkWait := [] }))

/-- PAGE_WALK_END (R318): every request that joined the walk is served, and a walker is free. -/
def execPageWalkEnd (q : Req) (s : State) : Host.Outcome State Fault Refusal :=
  runEvent (Instr.pageWalkEnd q).wf s (fun s =>
    let k := pkgOf q.rank
    let same := fun (w : Walk) => decide (w.die = dieOf (epOf q.rank) ∧ w.part = q.part ∧ w.page = (nextVa q) / 4096)
    let l := (((s.pkg k).walks.find? same).map (·.reqs)).getD [(q.rank, q.id)]
    let out := walk s k q.part (nextVa q)
    let s := match out with
      | .error e => noteWalk s k e
      | .ok _ => s
    let s := s.modPkg k (fun p => { p with walks := p.walks.filter (fun w => !same w) })
    nextWalks (l.foldl (fun s x => serveWalk s x.1 x.2 out) s) k)

/-- The rank of a package's first host window, in whose name the host's own accesses are translated. -/
def hostRank (pkg : Nat) : Nat := pkg * 4096 + 0x500

/-- A host AtomicOp (R109): one step in the vault order. While the page moves, it is made afterwards. -/
def hostAtomAt (s : State) (h : HostAtom) : State :=
  match placeDie s h.pkg ((s.pkg h.pkg).homeDie h.part) h.part (hostRank h.pkg) true true h.va with
  | .error e => e.2
  | .ok (p, s) =>
    if p.host then s
    else
      let home := s.holdingVault p.pkg p.dpa
      if (s.vault home).fenced || (s.partOf home).isNone then s
      else if (s.pkg p.pkg).isMoving (dpn64 p.dpa) then emitOnce s (.hostAtomic h)
      else
        match vaultRead s home p.pkg p.dpa h.w with
        | (s, .error g) => memFault s p.pkg g
        | (s, .ok b) =>
          let old := leNat b
          if atomWrites h.op h.w old h.a then s.dpaStore p.pkg p.dpa (leBytes h.w ((atomOp h.op h.w old h.a h.b).getD old)) else s

/-- HOST_ATOMIC (R109). -/
def execHostAtomic (h : HostAtom) (s : State) : Host.Outcome State Fault Refusal :=
  runEvent (Instr.hostAtomic h).wf s (fun s => hostAtomAt s h)

end Sys2Proof.Machine
end

