-- ==== Sys2Proof/Machine/Query.lean ====
section
/-! DEFINITION. Graph search (spec/06_vaults.md R125 to R131; spec/15_prog_spec_search.md R285; spec/11_isa_memory.md R242):
the query block and the shard headers, distances, the serial search of R128 with its hop and distance requests, and the
result message. -/

namespace Sys2Proof.Machine

/-! ## The query block (Table 6.8) -/

/-- The control fields of a query block. -/
def qCtl (b : List Byte) : Nat := leNat (b.take 16)
/-- NSHARD. -/
def qNshard (b : List Byte) : Nat := bitsHL (qCtl b) 31 28
/-- K. -/
def qK (b : List Byte) : Nat := bitsHL (qCtl b) 71 64
/-- EF. -/
def qEf (b : List Byte) : Nat := bitsHL (qCtl b) 63 48
/-- HOPMAX, where 0 means 65,535. -/
def qHopmax (b : List Byte) : Nat := if bitsHL (qCtl b) 95 80 = 0 then 65535 else bitsHL (qCtl b) 95 80
/-- RNQ. -/
def qRnq (b : List Byte) : Nat := bitsHL (qCtl b) 127 96
/-- SHARDk. -/
def qShard (b : List Byte) (k : Nat) : Nat := leNat ((b.drop (64 + 8 * k)).take 8)

/-- Whether every field of a query block is in range and every reserved field zero (R125, R130); shard addresses past NSHARD
are not looked at. -/
def blockOk (b : List Byte) : Bool :=
  decide (1 ≤ qK b ∧ qK b ≤ 64 ∧ qK b ≤ qEf b ∧ qEf b ≤ 256 ∧ queryTag b ≤ 0xFFFE ∧ 1 ≤ qNshard b ∧ qNshard b ≤ 8
          ∧ bitsHL (qCtl b) 27 0 = 0 ∧ bitsHL (qCtl b) 79 72 = 0)
    && ((b.drop 16).take 48).all (fun x => decide (x = 0))
    && (List.range (qNshard b)).all (fun k => decide (qShard b k < 2 ^ 48 ∧ qShard b k % 64 = 0))

/-! ## Reading virtual memory for a search -/

/-- Translates an address for a search (R128, R315): through the die of the home vault, with the task's partition and
rank; a host page is QBAD. -/
def placeNode (s : State) (home : Nat) (q : Req) (va : Nat) : Except (Nat × State) (Place × State) :=
  if 2 ^ 48 ≤ va then .error (fcBADVA, s)
  else
    match lookupDie s (pkgOf home) (dieOf (epOf home)) q.part va with
    | .error f => .error f
    | .ok (t, s) =>
      match checkTr s (pkgOf q.rank) q.part (s.plane q.rank q.plane).regs.myrank q.mon true false t va with
      | .error f => .error (f, s)
      | .ok dpa => if t.host then .error (fcQBAD, s) else .ok ({ pkg := t.pkg, host := false, dpa := dpa }, s)

/-- Reads pieces of virtual memory for a search. -/
def readPieces (home : Nat) (q : Req) : List (Nat × Nat) → State → State × Except Nat (List Byte)
  | [], s => (s, .ok [])
  | (va, n) :: r, s =>
    match placeNode s home q va with
    | .error (f, s) => (s, .error f)
    | .ok (p, s) =>
      if (s.vault (s.holdingVault p.pkg p.dpa)).fenced then (s, .error fcMEMERR)
      else
        match vaultRead s (s.holdingVault p.pkg p.dpa) p.pkg p.dpa n with
        | (s, .error g) => (memFault s p.pkg g, .error fcMEMERR)
        | (s, .ok b) =>
          match readPieces home q r s with
          | (s, .ok c) => (s, .ok (b ++ c))
          | x => x

/-- Reads n bytes of virtual memory for a search, or gives the fault code. -/
def searchRead (s : State) (home : Nat) (q : Req) (va n : Nat) : State × Except Nat (List Byte) :=
  readPieces home q (pieces va n) s

/-! ## Shard headers (Table 6.9) -/

/-- A shard as its header gives it, with the header's DIM, FMT and METRIC. -/
def headerShard (k h : Nat) : Shard × Nat × Nat × Nat :=
  ({ idx := k, nodebase := bitsHL h 255 208, entry := bitsHL h 207 180, nnodes := bitsHL h 175 148,
     recsz := bitsHL h 143 128, voff := bitsHL h 127 112, roff := bitsHL h 111 96, maxdeg := bitsHL h 79 72 },
   bitsHL h 95 80, bitsHL h 71 68, bitsHL h 67 66)

/-- Whether a header meets R126 and Table 6.9. -/
def headerOk (h : Nat) : Bool :=
  let x := headerShard 0 h
  decide (h / 2 ^ 256 = 0 ∧ bitsHL h 65 0 = 0 ∧ bitsHL h 147 144 = 0 ∧ bitsHL h 179 176 = 0 ∧ x.1.nodebase % 64 = 0
    ∧ 1 ≤ x.1.nnodes ∧ x.1.entry < x.1.nnodes ∧ x.1.recsz % 64 = 0 ∧ x.1.voff % 16 = 0 ∧ 1 ≤ x.2.1 ∧ x.2.1 ≤ 1024
    ∧ 1 ≤ x.1.maxdeg ∧ x.1.maxdeg ≤ 64 ∧ (x.2.2.1 = 0 ∨ x.2.2.1 = 1 ∨ x.2.2.1 = 5 ∨ x.2.2.1 = 6) ∧ x.2.2.2 ≠ 3)

/-- A shard that has ended with a fault. -/
def Shard.fail (sh : Shard) (fc : Nat) : Shard := { sh with done := true, qstat := 3, fcode := fc }

/-- Reads the headers in shard-list order (R125, R126, R128): the first valid one leads. -/
def readHeaders (home : Nat) : List Nat → State → QRun → State × QRun
  | [], s, run => (s, run)
  | k :: r, s, run =>
    match searchRead s home run.req (qShard run.req.data k) 64 with
    | (s, .error fc) => readHeaders home r s { run with shards := run.shards ++ [({ idx := k } : Shard).fail fc] }
    | (s, .ok b) =>
      let h := leNat b
      let x := headerShard k h
      if !headerOk h then readHeaders home r s { run with shards := run.shards ++ [({ idx := k } : Shard).fail fcQBAD] }
      else if run.dim = 0 then
        readHeaders home r s { run with dim := x.2.1, fmt := x.2.2.1, metric := x.2.2.2, shards := run.shards ++ [x.1] }
      else if x.2 = (run.dim, run.fmt, run.metric) then readHeaders home r s { run with shards := run.shards ++ [x.1] }
      else readHeaders home r s { run with shards := run.shards ++ [x.1.fail fcQBAD] }

/-! ## Distances (R127) -/

/-- The value of an element of a vector in a format. -/
def vecElem (fmt : Nat) (b : List Byte) (j : Nat) : FV :=
  let w := tyW fmt
  let x := leNat ((b.drop (w * j)).take w)
  if fmt = 5 then FV.ofInt (sextN 8 x) else (fmtOf fmt).decode x

/-- The exact difference of two values. -/
def FV.minus (a b : FV) : FV :=
  match a, b with
  | .nan, _ => .nan
  | _, .nan => .nan
  | .inf x, .inf y => if x = y then .nan else .inf x
  | .inf x, .fin _ _ _ => .inf x
  | .fin _ _ _, .inf y => .inf (!y)
  | .fin x m e, .fin y n k =>
    let lo := min e k
    let d := (FV.fin x m e).scaled lo - (FV.fin y n k).scaled lo
    .fin (decide (d < 0)) d.natAbs lo

/-- A term of a distance: exact, and rounded once. -/
def distTerm (metric : Nat) (q x : FV) : Nat :=
  if metric = 0 then (fmul f32 .rne (q.minus x) (q.minus x)).1 else (fmul f32 .rne q x).1

/-- One level of a pairwise tree of f32 sums. -/
def pairSums : List Nat → List Nat
  | a :: b :: r => (fadd f32 .rne (f32.decode a) (f32.decode b)).1 :: pairSums r
  | l => l

/-- The sum of a block of 16 terms. -/
def blockSum (l : List Nat) : Nat := (pairSums (pairSums (pairSums (pairSums l)))).headD 0

/-- The distance of R127 between a query vector and a node's. -/
def distance (fmt metric dim rnq rnx : Nat) (q x : List Byte) : Nat :=
  let t := (List.range dim).map (fun j => distTerm metric (vecElem fmt q j) (vecElem fmt x j))
  let sums := (List.range ((dim + 15) / 16)).map (fun i => blockSum ((List.range 16).map (fun j => (t[16 * i + j]?).getD 0)))
  let d := sums.foldl (fun a b => (fadd f32 .rne (f32.decode a) (f32.decode b)).1) 0
  let m := (f32.decode d).neg
  let r :=
    if metric = 0 then d
    else if metric = 1 then (roundFV f32 .rne m).1
    else (fmul f32 .rne (f32.decode (fmul f32 .rne m (f32.decode rnx)).1) (f32.decode rnq)).1
  if (f32.decode r).isNan then 0x7F800000 else r

/-- A distance as a number that orders as R127 compares: −0 as +0. -/
def distKey (d : Nat) : Int := if d / 2 ^ 31 % 2 = 1 then -((d % 2 ^ 31 : Nat) : Int) else ((d % 2 ^ 31 : Nat) : Int)

/-- (distance, id) pairs in their order. -/
def pairLt (a b : Nat × Nat) : Bool := decide (distKey a.1 < distKey b.1 ∨ (distKey a.1 = distKey b.1 ∧ a.2 < b.2))

/-- The least pair of a list. -/
def leastPair : List (Nat × Nat) → Option (Nat × Nat)
  | [] => none
  | a :: r =>
    match leastPair r with
    | none => some a
    | some b => if pairLt b a then some b else some a

/-- The greatest pair of a list. -/
def greatestPair : List (Nat × Nat) → Option (Nat × Nat)
  | [] => none
  | a :: r =>
    match greatestPair r with
    | none => some a
    | some b => if pairLt a b then some b else some a

/-! ## Nodes -/

/-- The address of a node's record. -/
def Shard.nodeAt (sh : Shard) (v : Nat) : Nat := sh.nodebase + v * sh.recsz

/-- The distance of a node, read from its record; an error stands as 2^32 and its code. -/
def distNode (s : State) (home : Nat) (run : QRun) (sh : Shard) (v : Nat) : State × Nat :=
  match searchRead s home run.req (sh.nodeAt v + sh.voff) (run.dim * tyW run.fmt) with
  | (s, .error fc) => (s, 2 ^ 32 + fc)
  | (s, .ok x) =>
    if run.metric = 2 then
      match searchRead s home run.req (sh.nodeAt v + sh.roff) 4 with
      | (s, .error fc) => (s, 2 ^ 32 + fc)
      | (s, .ok r) => (s, distance run.fmt run.metric run.dim (qRnq run.req.data) (leNat r) run.vec x)
    else (s, distance run.fmt run.metric run.dim (qRnq run.req.data) 0 run.vec x)

/-- The neighbour ids that a record gives: the first min(DEG, MAXDEG). -/
def hopNode (s : State) (home : Nat) (run : QRun) (sh : Shard) (v : Nat) : State × Except Nat (List Nat) :=
  match searchRead s home run.req (sh.nodeAt v) 4 with
  | (s, .error fc) => (s, .error fc)
  | (s, .ok b) =>
    match searchRead s home run.req (sh.nodeAt v + 8) (4 * min (leNat b) sh.maxdeg) with
    | (s, .error fc) => (s, .error fc)
    | (s, .ok b) => (s, .ok (words4 b))

/-- The vault that holds a node's record. -/
def nodeVault (s : State) (home : Nat) (run : QRun) (sh : Shard) (v : Nat) : State × Except Nat Nat :=
  match placeNode s home run.req (sh.nodeAt v) with
  | .error (fc, s) => (s, .error fc)
  | .ok (p, s) => (s, .ok (s.holdingVault p.pkg p.dpa))

/-- Whether the page of a node's record moves now (R324). -/
def nodeMoves (s : State) (home : Nat) (run : QRun) (sh : Shard) (v : Nat) : Bool :=
  match placeNode s home run.req (sh.nodeAt v) with
  | .error _ => false
  | .ok (p, s) => (s.pkg p.pkg).isMoving (dpn64 p.dpa)

/-! ## The search (R128, R285) -/

/-- The ids of an expansion whose distances the search computes: those in range and not visited, each once, until the
visited set is full. -/
def freshIds (nnodes : Nat) : List Nat → List Nat → List Nat
  | _, [] => []
  | visited, v :: r =>
    if nnodes ≤ v ∨ v ∈ visited then freshIds nnodes visited r
    else if 16384 ≤ visited.length then []
    else v :: freshIds nnodes (v :: visited) r

/-- Sorts the fresh ids of an expansion by the vault that holds them: those that cannot be translated, with their fault, and
those of other vaults. -/
def sortIds (home : Nat) (run : QRun) (sh : Shard) : List Nat → State → State × List (Nat × Nat) × List (Nat × Nat)
  | [], s => (s, [], [])
  | v :: r, s =>
    match nodeVault s home run sh v with
    | (s, .error fc) =>
      let x := sortIds home run sh r s
      (x.1, (v, 2 ^ 32 + fc) :: x.2.1, x.2.2)
    | (s, .ok k) =>
      let x := sortIds home run sh r s
      (x.1, x.2.1, if k = home then x.2.2 else (k, v) :: x.2.2)

/-- Begins an expansion with its neighbour ids: at most one distance request goes to each other vault. -/
def openIds (s : State) (home : Nat) (run : QRun) (sh : Shard) (ids : List Nat) : State × Shard :=
  let x := sortIds home run sh (freshIds sh.nnodes sh.visited ids) s
  let far := x.2.2
  let s := ((far.map (·.1)).dedup).foldl (fun s k =>
    emitNet s home k 0 (.distanceRequest
      { home := home, qid := run.qid, vault := k, node := sh.idx, ids := (far.filter (fun e => decide (e.1 = k))).map (·.2) })) x.1
  (s, { sh with todo := ids, asked := far.map (·.2), dists := x.2.1, hop := none })

/-- A shard with a node's distance found: the node is visited, and may join the candidates and the beam. -/
def Shard.join (sh : Shard) (ef v d : Nat) : Shard :=
  let sh := { sh with visited := v :: sh.visited, ndist := sh.ndist + 1 }
  let room := decide (sh.beam.length < ef)
  let close := match greatestPair sh.beam with
    | some g => pairLt (d, v) g
    | none => true
  if room || close then
    let w := (d, v) :: sh.beam
    let w := if ef < w.length then
        (match greatestPair w with
         | some g => w.erase g
         | none => w)
      else w
    { sh with cand := (d, v) :: sh.cand, beam := w }
  else sh

/-- Takes the next neighbour of an expansion. -/
def takeId (s : State) (home : Nat) (run : QRun) (sh : Shard) (v : Nat) : State × Shard :=
  if sh.nnodes ≤ v then (s, { sh with ignored := sh.ignored + 1 })
  else if v ∈ sh.visited then (s, sh)
  else if 16384 ≤ sh.visited.length then (s, { sh with done := true, qstat := 2 })
  else
    let x := match sh.dists.find? (fun e => decide (e.1 = v)) with
      | some e => (s, e.2)
      | none => distNode s home run sh v
    if 2 ^ 32 ≤ x.2 then (x.1, sh.fail (x.2 - 2 ^ 32)) else (x.1, sh.join (qEf run.req.data) v x.2)

/-- Takes the candidate to expand next, or ends the shard. -/
def expand (s : State) (home : Nat) (run : QRun) (sh : Shard) : State × Shard :=
  match leastPair sh.cand with
  | none => (s, { sh with done := true })
  | some c =>
    if sh.beam.length = qEf run.req.data ∧ (greatestPair sh.beam).any (fun g => pairLt g c) = true then (s, { sh with done := true })
    else
      let sh := { sh with cand := sh.cand.erase c }
      if qHopmax run.req.data ≤ sh.hops then (s, { sh with done := true, qstat := 1 })
      else
        let sh := { sh with hops := sh.hops + 1 }
        match nodeVault s home run sh c.2 with
        | (s, .error fc) => (s, sh.fail fc)
        | (s, .ok k) =>
          if k = home then
            match hopNode s home run sh c.2 with
            | (s, .error fc) => (s, sh.fail fc)
            | (s, .ok ids) => openIds s home run sh ids
          else
            (emitNet s home k 0 (.hopRequest { home := home, qid := run.qid, vault := k, node := c.2, ids := [] }),
              { sh with hop := some c.2 })

/-- One step of a shard's search: its entry node, a neighbour, or the next expansion. -/
def shardStep (s : State) (home : Nat) (run : QRun) (sh : Shard) : State × Shard :=
  if !sh.started then openIds s home run { sh with started := true } [sh.entry]
  else
    match sh.todo with
    | v :: r => takeId s home run { sh with todo := r } v
    | [] => expand s home run sh

/-- Whether a shard waits for another vault, or has ended. -/
def Shard.rests (sh : Shard) : Bool := sh.done || sh.hop.isSome || !sh.asked.isEmpty

/-- Runs a shard until it rests. A shard visits at most 16,384 nodes of at most 64 neighbours each. -/
def shardRun (home : Nat) (run : QRun) : Nat → State × Shard → State × Shard
  | 0, x => x
  | n + 1, x => if x.2.rests then x else shardRun home run n (shardStep x.1 home run x.2)

/-- Runs the shards of a query in order until one waits for another vault or all have ended. -/
def shardsRun (home : Nat) (run : QRun) : List Shard → State → State × List Shard
  | [], s => (s, [])
  | sh :: r, s =>
    let x := shardRun home run 1100000 (s, sh)
    if x.2.done then
      let y := shardsRun home run r x.1
      (y.1, x.2 :: y.2)
    else (x.1, x.2 :: r)

/-- Replaces a running query. -/
def putRun (s : State) (home : Nat) (run : QRun) : State :=
  s.modVault home (fun v => { v with running := v.running.map (fun e => if e.qid = run.qid then run else e) })

/-- Moves a query on: it searches until it waits for another vault, or its end is due. -/
def searchOn (s : State) (home : Nat) (run : QRun) : State :=
  let x := shardsRun home run run.shards s
  let s := putRun x.1 home { run with shards := x.2 }
  if x.2.all (·.done) then emitOnce s (.querySearchEnd home run.qid) else s

/-! ## Acceptance (R125, R130, R242) -/

/-- The protection of a query's block and vector ends at the tile, and at the partner's of a DUAL pair (R242). -/
def freeVector (s : State) (q : Req) : State :=
  let f := fun (t : Tile) => { t with reqs := t.reqs.map (fun e =>
    if e.req.id = q.id ∨ (e.twin = q.id ∧ e.twin ≠ 0) then { e with len := 0 } else e) }
  let s := s.modTile q.rank f
  match partnerOf s q.rank q.plane with
  | some (r2, _) => s.modTile r2 f
  | none => s

/-- A query's vector in the tile store: its physical address, and whether its n bytes lie in the task's range, or in the store for
the monitor (R19, R242, R288). -/
def vectorAt (g : Regs) (q : Req) (n : Nat) : Nat × Bool :=
  if q.mon then (q.dst + 128, decide (q.dst + 128 + n ≤ 0x80000))
  else (g.tsbase + q.dst + 128, decide (q.dst + 128 + n ≤ g.tslen - g.tillsz))

/-- A query that runs no more leaves its vault. -/
def dropRun (s : State) (home qid : Nat) : State :=
  s.modVault home (fun v => { v with running := v.running.filter (fun e => decide (e.qid ≠ qid)) })

/-- The vector of a DUAL partner's copy of a query (R46): its plane, and its n bytes as its tile store holds them. -/
def twinVector (s : State) (q : Req) (n : Nat) : Option ((Nat × Nat) × Except WinSt (List Byte)) :=
  (partnerOf s q.rank q.plane).bind (fun x =>
    ((s.tile x.1).reqs.find? (fun e => decide (e.twin = q.id))).map (fun e =>
      (x, engineRead s x.1 x.2 pathN 4 (vectorAt (s.plane x.1 x.2).regs e.req n).1 n)))

/-- Whether a DUAL partner's vector is the same: none where there is no partner (R46). -/
def cmpVector (b : List Byte) : Option ((Nat × Nat) × Except WinSt (List Byte)) → DualCmp
  | some (_, .ok c) => if b = c then .same else .differ
  | some (_, .error .wait) => .wait
  | some (_, .error _) => .differ
  | none => .same

/-- A running query pulls its vector and searches (R242); while the tile store cannot be read, the pull is tried again. In a DUAL pair
the vectors are compared, and none is released where they differ (R46). -/
def pullVector (s : State) (home : Nat) (run : QRun) : State :=
  let q := run.req
  let n := run.dim * tyW run.fmt
  let v := vectorAt (s.plane q.rank q.plane).regs q n
  if v.2 = false then replyTo (dropRun s home run.qid) q home stFAULT fcQBAD [] 0
  else
    match engineRead s q.rank q.plane pathN 4 v.1 n with
    | .error (.faulted _) => replyTo (dropRun s home run.qid) q home stFAULT fcENGFAULT [] 0
    | .error _ => emitOnce s (.vaultQuery q)
    | .ok b =>
      let tw := twinVector s q n
      match cmpVector b tw with
      | .wait => emitOnce s (.vaultQuery q)
      | .differ =>
        let x := (tw.map (·.1)).getD (q.rank, q.plane)
        dualMismatch (dropRun s home run.qid) q.rank q.plane x.1 x.2 (reqKind .query)
      | .same =>
        let run := { run with vec := b, pulling := false }
        searchOn (putRun (pumpTile (freeVector (tsSeen s q.rank pathN v.1 n) q) q.rank) home run) home run

/-- Begins a waiting query: its headers are read, its vector is pulled when a header is valid, and it searches. -/
def beginRun (s : State) (home : Nat) (run : QRun) : State :=
  let q := run.req
  let x := readHeaders home (List.range (qNshard q.data)) s run
  let none_ := decide (x.2.dim * tyW x.2.fmt = 0)
  let run := { x.2 with pulling := !none_ }
  let s := x.1.modVault home (fun v =>
    { v with waiting := v.waiting.filter (fun e => decide (e.qid ≠ q.id)), running := v.running ++ [run] })
  if none_ then searchOn s home run else pullVector s home run

/-- Begins the waiting queries of a vault, oldest first, while fewer than 32 run (R130). -/
def beginRuns : Nat → State → Nat → State
  | 0, s, _ => s
  | n + 1, s, home =>
    match (s.vault home).waiting with
    | [] => s
    | w :: _ => if 32 ≤ (s.vault home).running.length then s else beginRuns n (beginRun s home w) home

/-- The vault at which a query runs whose vector has still to be pulled. -/
def pullsAt (s : State) (q : Req) : Option (Nat × QRun) :=
  s.vaults.findSome? (fun v => (v.2.running.find? (fun e => decide (e.qid = q.id) && e.pulling)).map (fun e => (v.1, e)))

/-- A QUERY at the vault that holds its first header (R130): at most 32 wait while 32 run. -/
def queryAt (s : State) (q : Req) (home : Nat) : State :=
  if !blockOk q.data then replyTo s q home stFAULT fcQBAD [] 0
  else if 32 ≤ (s.vault home).waiting.length ∧ 32 ≤ (s.vault home).running.length then emitNet s home q.rank 0 (.rnrRetry q)
  else beginRuns 33 (s.modVault home (fun v => { v with waiting := v.waiting ++ [{ qid := q.id, req := q }] })) home

/-- VAULT_QUERY (R125, R130, R242). -/
def execVaultQuery (q : Req) (s : State) : Host.Outcome State Fault Refusal :=
  runEvent (Instr.vaultQuery q).wf s (fun s =>
    match pullsAt s q with
    | some (home, run) => beginRuns 33 (pullVector s home run) home
    | none => atVault s q (fun s h => queryAt s q h))

/-! ## Hop and distance requests -/

/-- The running query of a number at a vault. -/
def Vault.run (v : Vault) (qid : Nat) : Option QRun := v.running.find? (fun e => decide (e.qid = qid))

/-- A running query with its current shard changed, moved on. -/
def resumeShard (s : State) (home : Nat) (run : QRun) (sh : Shard) : State :=
  searchOn s home { run with shards := run.shards.map (fun e => if e.idx = sh.idx then sh else e) }

/-- The answer of a hop request as it travels home: the neighbour ids, or 2^32 and a fault code. -/
def hopAnswer (q : QStep) (x : Except Nat (List Nat)) : QStep :=
  { q with vault := q.home, src := q.vault, ids := match x with
      | .error fc => [2 ^ 32 + fc]
      | .ok ids => ids }

/-- A hop request is served at the vault that holds the node's record; while the record's page moves, it is made again (R131). -/
def serveHop (s : State) (q : QStep) (run : QRun) (sh : Shard) : State :=
  if nodeMoves s q.home run sh q.node then emitOnce s (.hopRequest q)
  else
    let x := hopNode s q.home run sh q.node
    let a := hopAnswer q x.2
    emitNet x.1 q.vault q.home (4 * a.ids.length) (.hopRequest a)

/-- The answer of a hop request reaches the home vault. -/
def landHop (s : State) (q : QStep) (run : QRun) (sh : Shard) : State :=
  match q.ids.find? (fun v => decide (2 ^ 32 ≤ v)) with
  | some v => resumeShard s q.home run { sh.fail (v - 2 ^ 32) with hop := none }
  | none =>
    let x := openIds s q.home run sh q.ids
    resumeShard x.1 q.home run x.2

/-- HOP_REQUEST (R128, R285): the request at the other vault, or its answer, which names the home vault alone (R273). -/
def execHopRequest (q : QStep) (s : State) : Host.Outcome State Fault Refusal :=
  runEvent (Instr.hopRequest q).wf s (fun s =>
    match (s.vault q.home).run q.qid with
    | none => s
    | some run =>
      match run.shards.find? (fun e => decide (e.hop = some q.node)) with
      | none => s
      | some sh => if q.vault = q.home then landHop s q run sh else serveHop s q run sh)

/-- The distances of a list of nodes. -/
def distNodes (home : Nat) (run : QRun) (sh : Shard) : List Nat → State → State × List (Nat × Nat)
  | [], s => (s, [])
  | v :: r, s =>
    let x := distNode s home run sh v
    let y := distNodes home run sh r x.1
    (y.1, (v, x.2) :: y.2)

/-- A running query with a shard changed. -/
def putShard (s : State) (home : Nat) (run : QRun) (sh : Shard) : State :=
  putRun s home { run with shards := run.shards.map (fun e => if e.idx = sh.idx then sh else e) }

/-- A distance request is served at the vault that holds its records; while a record's page moves, it is made again (R131). -/
def serveDist (s : State) (q : QStep) (run : QRun) (sh : Shard) : State :=
  if q.ids.any (fun v => nodeMoves s q.home run sh v) then emitOnce s (.distanceRequest q)
  else
    let x := distNodes q.home run sh q.ids s
    emitNet (putShard x.1 q.home run { sh with dists := sh.dists ++ x.2 }) q.vault q.home (4 * q.ids.length)
      (.distanceRequest { q with vault := q.home, src := q.vault })

/-- The answer of a distance request reaches the home vault: the search goes on when none is left. -/
def landDist (s : State) (q : QStep) (run : QRun) (sh : Shard) : State :=
  let sh := { sh with asked := sh.asked.filter (fun v => !q.ids.contains v) }
  if sh.asked = [] then resumeShard s q.home run sh else putShard s q.home run sh

/-- DISTANCE_REQUEST (R285): node names the shard. It is the request at the other vault, or its answer, which names the home vault
alone (R273). -/
def execDistanceRequest (q : QStep) (s : State) : Host.Outcome State Fault Refusal :=
  runEvent (Instr.distanceRequest q).wf s (fun s =>
    match (s.vault q.home).run q.qid with
    | none => s
    | some run =>
      match run.shards.find? (fun e => decide (e.idx = q.node) && q.ids.all (fun v => e.asked.contains v)) with
      | none => s
      | some sh => if q.vault = q.home then landDist s q run sh else serveDist s q run sh)

/-! ## Results (R129) -/

/-- Inserts an entry (distance, id, shard) behind those that do not come after it. -/
def insEntry (e : Nat × Nat × Nat) : List (Nat × Nat × Nat) → List (Nat × Nat × Nat)
  | [] => [e]
  | a :: r => if pairLt (e.1, e.2.1) (a.1, a.2.1) then e :: a :: r else a :: insEntry e r

/-- Sorts entries stably by (distance, id). -/
def sortEntries (l : List (Nat × Nat × Nat)) : List (Nat × Nat × Nat) := l.foldl (fun a e => insEntry e a) []

/-- The merged result of a query: the first K entries. -/
def merged (run : QRun) : List (Nat × Nat × Nat) :=
  let k := qK run.req.data
  (sortEntries (run.shards.flatMap (fun sh =>
    (sortEntries (sh.beam.map (fun e => (e.1, e.2, sh.idx)))).take k))).take k

/-- The result message of a query (Table 6.10). -/
def resultBytes (run : QRun) : List Byte :=
  let l := merged run
  let hops := (run.shards.map (·.hops)).sum
  let fc := ((run.shards.find? (fun sh => decide (sh.qstat = 3))).map (·.fcode)).getD 0
  let qstat := (run.shards.map (·.qstat)).foldl max 0
  let hdr := min hops 0xFFFF * 2 ^ 112 + (run.shards.map (·.ndist)).sum % 2 ^ 32 * 2 ^ 64 + fc * 2 ^ 56 + qstat * 2 ^ 48
    + l.length * 2 ^ 40 + (run.shards.map (·.ignored)).sum % 2 ^ 32
  leBytes 16 hdr ++ l.flatMap (fun e => leBytes 8 (e.1 * 2 ^ 32 + e.2.2 * 2 ^ 28 + e.2.1))

/-- The result message of a query as it travels: eager, in group 0, in no stream. -/
def resultMsg (home : Nat) (run : QRun) : Msg :=
  { src := home, dst := run.req.rank, group := 0, tag := queryTag run.req.data, len := run.payload.length, seq := 0, proto := 0,
    mv := run.req.mv, pv := run.req.pv, job := run.req.job, sid := run.qid, query := true, retry := run.retry,
    payload := run.payload }

/-- Sends the result message of a query. -/
def sendResult (s : State) (home : Nat) (run : QRun) : State :=
  emitNet s home run.req.rank run.payload.length (.messageArrival (resultMsg home run))

/-- QUERY_SEARCH_END (R129). -/
def execQuerySearchEnd (home qid : Nat) (s : State) : Host.Outcome State Fault Refusal :=
  runEvent (Instr.querySearchEnd home qid).wf s (fun s =>
    match (s.vault home).run qid with
    | none => s
    | some run =>
      if run.sent then s
      else
        let run := { run with payload := resultBytes run, sent := true }
        sendResult (putRun s home run) home run)

/-- Completes a query: its flag's record goes to the tile, and the next waiting query begins. -/
def endRun (s : State) (home : Nat) (run : QRun) (st fc : Nat) : State :=
  let s := s.modVault home (fun v => { v with running := v.running.filter (fun e => decide (e.qid ≠ run.qid)) })
  beginRuns 33 (replyTo s run.req home st fc [] run.payload.length) home

/-- The result message settles (R129): the query completes OK. A stub keeps the payload for its pull. -/
def resultSettled (s : State) (a : Ack) : State :=
  match (s.vault a.rank).run a.sid with
  | none => s
  | some run =>
    let s := if a.fin then s
      else s.modVault a.rank (fun v => { v with results := v.results ++ [(run.qid, run.payload)] })
    endRun s a.rank run stOK 0

/-- The result message is refused (R129): it goes again after a back-off, and after 8 retries it is lost, with no abandon
header. -/
def resultRefused (s : State) (a : Ack) : State :=
  match (s.vault a.rank).run a.sid with
  | none => s
  | some run => if 8 ≤ run.retry then endRun s a.rank run stOVERRUN 0 else emitOnce s (.sendRetry a)

/-- The back-off of a refused result message ends. -/
def resultRetry (s : State) (a : Ack) : State :=
  match (s.vault a.rank).run a.sid with
  | none => s
  | some run =>
    let run := { run with retry := run.retry + 1 }
    sendResult (putRun s a.rank run) a.rank run

/-- The payload of a stubbed result is pulled (R77, R129). -/
def resultPulled (s : State) (p : Pull) : State :=
  match (s.vault p.rank).results.find? (fun e => decide (e.1 = p.sid)) with
  | none => pullFails s p stPEERDOWN 0
  | some e =>
    pulled (s.modVault p.rank (fun v => { v with results := v.results.filter (fun x => decide (x.1 ≠ p.sid)) })) p p.rank
      (e.2.take p.want) true

/-- A stubbed result is discarded with its receiver (R79). -/
def resultDropped (s : State) (a : Ack) : State :=
  s.modVault a.rank (fun v => { v with results := v.results.filter (fun x => decide (x.1 ≠ a.sid)) })

end Sys2Proof.Machine
end

