-- ==== Sys2Proof/Machine/Arrival.lean ====
section
/-! DEFINITION. The steps of messages on their way (spec/04_messages.md R76 to R86; spec/07_optical_fabric.md R150): headers,
answers, refusals and retries, abandons, pulls, landing payloads, and transfers that Ultra Ethernet abandons. -/

namespace Sys2Proof.Machine

/-! ## Arrivals at the receiver -/

/-- An abandon header at its tile and, in a DUAL pair, at the partner's (R46, R80). -/
def abandonBoth (s : State) (m : Msg) : State :=
  let tw := twinTile s m.dst m.job
  let s := abandonAt s m.dst m
  match tw with
  | some r2 => abandonAt s r2 m
  | none => s

/-- MESSAGE_ARRIVAL (R76). -/
def execMessageArrival (m : Msg) (s : State) : Host.Outcome State Fault Refusal :=
  runEvent (Instr.messageArrival m).wf s (fun s => if m.proto = 2 then abandonBoth s m else arriveMsg s m)

/-- ABANDON (R80). -/
def execAbandon (m : Msg) (s : State) : Host.Outcome State Fault Refusal :=
  runEvent (Instr.abandon m).wf s (fun s => abandonBoth s m)

/-- PAYLOAD_LINE_LANDS (R77): the next line of a delivery lands. -/
def execPayloadLineLands (rank plane did : Nat) (s : State) : Host.Outcome State Fault Refusal :=
  runEvent (Instr.payloadLineLands rank plane did).wf s (fun s =>
    match (s.plane rank plane).delivery did with
    | some d => if d.data = [] then pushDelivery s rank plane did else landLine s rank plane d
    | none => s)

/-- DELIVERY_COMPLETE (R77). -/
def execDeliveryComplete (rank plane did : Nat) (s : State) : Host.Outcome State Fault Refusal :=
  runEvent (Instr.deliveryComplete rank plane did).wf s (fun s =>
    match (s.plane rank plane).delivery did with
    | some d => finishDelivery s rank plane d
    | none => s)

/-! ## Answers at the sender -/

/-- The plane of a tile that holds a send, or the plane of a task suspended there that does. -/
def senderPlane (s : State) (rank id : Nat) : Option Plane :=
  match planeOfSend (s.tile rank) id with
  | some p => some (s.plane rank p)
  | none => (s.suspended.find? (fun u => decide (u.rank = rank) && (u.plane.send id).isSome)).map (·.plane)

/-- The copy of a send for a destination that has not ended. -/
def openCopy (sd : Send) (dst : Nat) : Option SendCopy := sd.copies.find? (fun c => decide (c.dst = dst ∧ c.fin = none))

/-- The abandon header of a copy's number, from the plane of its sender (R80). -/
def abandonFrom (s : State) (rank : Nat) (pl : Plane) (sd : Send) (c : SendCopy) : State :=
  emitNet s rank c.dst 0 (.abandon (mkMsg pl sd c 2))

/-- A refusal reaches a tile (R80): a retry is due after the back-off, or the last refusal ends the copy OVERRUN and its number
is abandoned. -/
def refusedAt (s : State) (a : Ack) : State :=
  match senderPlane s a.rank a.sid with
  | none => s
  | some pl =>
    match (pl.send a.sid).bind (fun sd => (openCopy sd a.dst).map (fun c => (sd, c))) with
    | none => s
    | some (sd, c) =>
      if c.retry < pl.regs.retrylim then emitOnce s (.sendRetry a)
      else withSend (abandonFrom s a.rank pl sd c) a.rank a.sid (onCopy a.dst (SendCopy.finish stOVERRUN 0))

/-- REFUSAL_ARRIVAL (R80). -/
def execRefusalArrival (a : Ack) (s : State) : Host.Outcome State Fault Refusal :=
  runEvent (Instr.refusalArrival a).wf s (fun s =>
    if 0x400 ≤ epOf a.rank then resultRefused s a else refusedAt s a)

/-- A copy of a send leaves again after its back-off, with its buffer as the engine reads it now (R75, R80). While its task is out,
or its buffer cannot be read, or its queue has no room, it waits. -/
def retryAt (s : State) (a : Ack) : State :=
  match planeOfSend (s.tile a.rank) a.sid with
  | none => if (senderPlane s a.rank a.sid).isSome then emitOnce s (.sendRetry a) else s
  | some p =>
    onSend s a.rank p a.sid (fun s sd =>
      match openCopy sd a.dst with
      | none => s
      | some c =>
        let n := if sd.eager then sd.bytes else 0
        if !queueTakes s a.rank a.dst n then emitOnce s (.sendRetry a)
        else
          match sendBytes s a.rank p sd 0 n with
          | .error (.faulted _) =>
            withSend (emitAbandon s a.rank p sd c) a.rank a.sid (onCopy a.dst (SendCopy.finish stFAULT fcENGFAULT))
          | .error _ => emitOnce s (.sendRetry a)
          | .ok b =>
            let s := (sendSeen s a.rank sd 0 n).modPlane a.rank p (fun pl =>
              pl.modSend a.sid (onCopy a.dst (fun c => { c with retry := c.retry + 1 })))
            emitNet s a.rank a.dst n (.messageArrival
              (mkMsg (s.plane a.rank p) { sd with payload := b } { c with retry := c.retry + 1 } (if sd.eager then 0 else 1))))

/-- SEND_RETRY (R80). -/
def execSendRetry (a : Ack) (s : State) : Host.Outcome State Fault Refusal :=
  runEvent (Instr.sendRetry a).wf s (fun s => if 0x400 ≤ epOf a.rank then resultRetry s a else retryAt s a)

/-- SEND_ACKNOWLEDGEMENT (R79): the copy has settled, and with fin it has ended. -/
def execSendAcknowledgement (a : Ack) (s : State) : Host.Outcome State Fault Refusal :=
  runEvent (Instr.sendAcknowledgement a).wf s (fun s =>
    if 0x400 ≤ epOf a.rank then resultSettled s a
    else withSend s a.rank a.sid (onCopy a.dst (if a.fin then SendCopy.finish a.status a.fcode
      else fun c => { c with settled := true, stub := true })))

/-- DISCARD_NOTICE (R79). -/
def execDiscardNotice (a : Ack) (s : State) : Host.Outcome State Fault Refusal :=
  runEvent (Instr.discardNotice a).wf s (fun s =>
    if 0x400 ≤ epOf a.rank then resultDropped s a
    else withSend s a.rank a.sid (onCopy a.dst (SendCopy.finish stCANCELLED 0)))

/-- PULL_REQUEST (R77, R84): a fenced tile serves none. -/
def execPullRequest (p : Pull) (s : State) : Host.Outcome State Fault Refusal :=
  runEvent (Instr.pullRequest p).wf s (fun s =>
    if 0x400 ≤ epOf p.rank then resultPulled s p
    else if (s.tile p.rank).fenced then pullFails s p stPEERDOWN 0
    else servePull s p false)

/-! ## Transfers that the transport abandons (R84, R150) -/

/-- The vault request, between a tile and a vault, whose packet or answer a step is. -/
def requestOf : Instr → Option Req
  | .vaultGet q => some q
  | .vaultPut q => some q
  | .vaultAtom q => some q
  | .vaultRed q => some q
  | .vaultRedf q => some q
  | .vaultFship q => some q
  | .vaultQuery q => some q
  | .hostWindowRequest q => some q
  | .vaultReply p => some p.req
  | _ => none

/-- Where a packet that a step stands for comes from and goes to. -/
def packetEnds (s : State) (i : Instr) : Option (Nat × Nat) :=
  match i with
  | .messageArrival m => some (m.src, m.dst)
  | .pullRequest p => some (p.dst, p.rank)
  | .sendAcknowledgement b => some (b.dst, b.rank)
  | .refusalArrival b => some (b.dst, b.rank)
  | .discardNotice b => some (b.dst, b.rank)
  | .payloadLineLands r p did => ((s.plane r p).delivery did).map (fun d => (d.hdr.src, r))
  | .deliveryComplete r p did => ((s.plane r p).delivery did).bind (fun d => if d.piped then some (d.hdr.src, r) else none)
  | .vaultReply p => some (p.home, p.req.rank)
  | .hopRequest q => some (if q.vault = q.home then (q.src, q.home) else (q.home, q.vault))
  | .distanceRequest q => some (if q.vault = q.home then (q.src, q.home) else (q.home, q.vault))
  | i => (requestOf i).map (fun q => (q.rank, q.vault))

/-- Whether a step is a packet that travels over Ultra Ethernet, in its own direction (R150). -/
def overUet (s : State) (i : Instr) : Bool :=
  match packetEnds s i with
  | some (x, y) => overEthernet s (pkgOf x) (pkgOf y)
  | none => false

/-- Whether a delivery of a plane belongs to the transfer that an answer would name. -/
def ofTransfer (s : State) (a : Ack) (r p did : Nat) : Bool :=
  ((s.plane r p).delivery did).any (fun d => decide (d.hdr.src = a.rank ∧ d.hdr.dst = a.dst ∧ d.hdr.sid = a.sid) && d.piped)

/-- Whether a step is a packet of the transfer that an answer would name: a message's header, its pull, the lines that it
brings, or its answers. -/
def isTransfer (s : State) (a : Ack) : Instr → Bool
  | .messageArrival m => decide (m.src = a.rank ∧ m.dst = a.dst ∧ m.sid = a.sid)
  | .pullRequest p => decide (p.rank = a.rank ∧ p.dst = a.dst ∧ p.sid = a.sid)
  | .sendAcknowledgement b => decide (b.rank = a.rank ∧ b.dst = a.dst ∧ b.sid = a.sid)
  | .refusalArrival b => decide (b.rank = a.rank ∧ b.dst = a.dst ∧ b.sid = a.sid)
  | .discardNotice b => decide (b.rank = a.rank ∧ b.dst = a.dst ∧ b.sid = a.sid)
  | .payloadLineLands r p did => ofTransfer s a r p did
  | .deliveryComplete r p did => ofTransfer s a r p did
  | _ => false

/-- Whether a step is a packet, between the packages that an abandon names, of the vault request of a number. -/
def isRequest (a : Ack) (i : Instr) : Bool :=
  match requestOf i with
  | some q => decide (q.rank = a.rank ∧ q.id = a.sid ∧ q.pkg = pkgOf a.dst)
  | none => false

/-- A step of the search, by a home vault, of a query that an abandon names. -/
def searchStep (a : Ack) (i : Instr) : Option QStep :=
  match i with
  | .hopRequest q => if q.home = a.rank ∧ q.qid = a.sid then some q else none
  | .distanceRequest q => if q.home = a.rank ∧ q.qid = a.sid then some q else none
  | _ => none

/-- The steps that are due without those of a kind. -/
def dropDue (s : State) (f : Instr → Bool) : State := { s with agenda := s.agenda.filter (fun d => !f d.ev) }

/-- The receiver's end of an abandoned transfer: its delivery ends FAULT with code LINKERR, at each tile of a DUAL pair. -/
def receiverFails (s : State) (a : Ack) : State :=
  let at_ := fun (s : State) (r : Nat) => [0, 1].foldl (fun s p =>
    match (s.plane r p).deliveries.find? (fun d => decide (d.hdr.src = a.rank ∧ d.hdr.dst = a.dst ∧ d.hdr.sid = a.sid)) with
    | some d => failDelivery s r p { d with ack := false } stFAULT fcLINKERR
    | none => s) s
  [0, 1].foldl (fun s p =>
    match partnerOf s a.dst p with
    | some (r2, _) => at_ s r2
    | none => s) (at_ s a.dst)

/-- The sender's end: its copy ends FAULT with code LINKERR, and its number is abandoned, so that its stream goes on (log
entry 20). -/
def senderFails (s : State) (a : Ack) : State :=
  if 0x400 ≤ epOf a.rank then
    match (s.vault a.rank).run a.sid with
    | some run => endRun s a.rank run stFAULT fcLINKERR
    | none => s
  else
    match senderPlane s a.rank a.sid with
    | none => s
    | some pl =>
      match (pl.send a.sid).bind (fun sd => (openCopy sd a.dst).map (fun c => (sd, c))) with
      | none => s
      | some (sd, c) => withSend (abandonFrom s a.rank pl sd c) a.rank a.sid (onCopy a.dst (SendCopy.finish stFAULT fcLINKERR))

/-- A search whose step is abandoned: the shard that waits for it ends with LINKERR. -/
def searchFails (s : State) (q : QStep) : State :=
  match (s.vault q.home).run q.qid with
  | none => s
  | some run =>
    match run.shards.find? (fun e => decide (e.hop = some q.node) || (decide (e.idx = q.node) && !e.asked.isEmpty)) with
    | none => s
    | some sh => resumeShard s q.home run { sh.fail fcLINKERR with hop := none, asked := [] }

/-- A transfer abandoned by the transport: a message, a vault request, or a step of a search, of which a packet is on its way
over Ultra Ethernet. -/
def abandonTransfer (s : State) (a : Ack) : State :=
  if s.agenda.any (fun d => isTransfer s a d.ev && overUet s d.ev) then
    receiverFails (senderFails (dropDue s (isTransfer s a)) a) a
  else
    match s.agenda.findSome? (fun d => if isRequest a d.ev && overUet s d.ev then requestOf d.ev else none) with
    | some q =>
      emit (dropDue s (isRequest a)) (.vaultReply { req := q, status := stFAULT, fcode := fcLINKERR, data := [], done := 0, home := 0 })
    | none =>
      match s.agenda.findSome? (fun d => if overUet s d.ev then searchStep a d.ev else none) with
      | some q => searchFails (dropDue s (fun i => decide (searchStep a i = some q))) q
      | none => s

/-- TRANSPORT_ABANDON (R150): nothing where no packet of it travels over Ultra Ethernet. -/
def execTransportAbandon (a : Ack) (s : State) : Host.Outcome State Fault Refusal :=
  runEvent (Instr.transportAbandon a).wf s (fun s => abandonTransfer s a)

end Sys2Proof.Machine
end

