-- ==== Sys2Proof/Machine/Sched.lean ====
section
/-! DEFINITION. The scheduler coordinator and the graph walkers (spec/17_sys_sched.md R302 to R306, R312, R313;
spec/02_execution.md R27 to R31): records, the counters of launches, graphs, phases and jobs, and what follows when a unit
ends. -/

namespace Sys2Proof.Machine

/-! ## Units of work -/

/-- Changes a launch. -/
def State.modLaunch (s : State) (num : Nat) (f : Launch → Launch) : State :=
  { s with launches := s.launches.map (fun l => if l.num = num then f l else l) }

/-- Changes a graph. -/
def State.modGraph (s : State) (num : Nat) (f : Graph → Graph) : State :=
  { s with graphs := s.graphs.map (fun g => if g.num = num then f g else g) }

/-- Changes the active job of a number on a package. -/
def State.modJob (s : State) (num pkg : Nat) (f : Job → Job) : State :=
  { s with jobs := s.jobs.map (fun j => if j.num = num ∧ j.pkg = pkg ∧ j.fin = false then f j else j) }

/-- The graph of a number. -/
def State.graphOf (s : State) (num : Nat) : Option Graph := s.graphs.find? (fun g => decide (g.num = num))

/-- The active job of a number on a package, or the last one that ended. -/
def State.jobRec (s : State) (num pkg : Nat) : Option Job :=
  (s.jobs.find? (fun j => decide (j.num = num ∧ j.pkg = pkg) && !j.fin)).orElse
    (fun _ => s.jobs.reverse.find? (fun j => decide (j.num = num ∧ j.pkg = pkg)))

/-- The partition of a job. -/
def State.jobPart (s : State) (num pkg : Nat) : Nat := ((s.jobRec num pkg).map (·.part)).getD 0

/-- The dies that hold a granule of a partition (R306). -/
def Package.diesOf (p : Package) (part : Nat) : List Nat :=
  (List.range 4).filter (fun d => (p.partMask part).testBit (2 * d) || (p.partMask part).testBit (2 * d + 1))

/-! ## The launch record (Table 17.2) -/

/-- PLEN. -/
def Launch.plen (l : Launch) : Nat := l.f 8 4
/-- DATALEN. -/
def Launch.datalen (l : Launch) : Nat := l.f 12 4
/-- STATVA. -/
def Launch.statva (l : Launch) : Nat := l.f 24 8
/-- LW. -/
def Launch.lw (l : Launch) : Nat := (l.f 40 2 + l.f 44 2 - 1) / l.f 44 2
/-- LH. -/
def Launch.lh (l : Launch) : Nat := (l.f 42 2 + l.f 46 2 - 1) / l.f 46 2
/-- BGROUPS. -/
def Launch.bgroups (l : Launch) : Nat := l.f 51 1 % 16
/-- Whether it is a gang launch (R32). -/
def Launch.gang (l : Launch) : Bool := decide (l.bgroups ≠ 0)
/-- TSLEN in bytes. -/
def Launch.tslen (l : Launch) : Nat := l.f 54 2 * 4096
/-- TILL in bytes. -/
def Launch.till (l : Launch) : Nat := l.f 56 2 * 64
/-- Fixed placement. -/
def Launch.fixed (l : Launch) : Bool := (l.f 66 2).testBit 15
/-- The spill area of task n. -/
def Launch.spill (l : Launch) (n : Nat) : Nat := l.f 32 8 + n * 2 ^ 20
/-- The status record of task n. -/
def Launch.record (l : Launch) (n : Nat) : Nat := (l.statva + 64 + 32 * n) % 2 ^ 48 / 32 * 32

/-- The endpoint of task n in fixed placement, when it lies in the origin's die (R308); a DUAL task needs an even x. -/
def Launch.fixedEp (l : Launch) (n : Nat) : Option Nat :=
  let o := l.f 66 2 % 4096
  let x := o % 16 + n % l.lw
  let y := o / 16 % 16 + n / l.lw
  if o < 0x400 ∧ x < 16 ∧ y < 16 ∧ (l.dual = false ∨ x % 2 = 0) then some (o / 256 * 256 + y * 16 + x) else none

/-- Where the walk finds the leaf of an address: the DPA of its entry and the page's size (R317). -/
def leafFrom (s : State) (pkg va : Nat) : Nat → Nat → Option (Nat × Nat)
  | 0, base =>
    let a := base + 16 * (bitsHL va 20 16 * 16)
    match readPte s pkg a with
    | .error _ => none
    | .ok h => if h.testBit 0 && !h.testBit 8 && decide (bitsHL h 7 6 = 1) then some (a, 65536) else some (base + 16 * bitsHL va 20 12, 4096)
  | k + 1, base =>
    let a := base + 16 * (va / 2 ^ (21 + 9 * k) % 512)
    match readPte s pkg a with
    | .error _ => none
    | .ok e => if e.testBit 8 then leafFrom s pkg va k (bitsHL e 91 62 * 4096) else some (a, pageSize (k + 2))

/-- The leaf of an address in a partition's page table. -/
def leafOf (s : State) (pkg part va : Nat) : Option (Nat × Nat) :=
  leafFrom s pkg va 3 (bitsHL ((s.pkg pkg).reg (0x30800 + 8 * part)) 41 13 * 8192)

/-- Whether a page of a spill area is mapped as R320 asks: by a 4 KiB or 64 KiB leaf with OWN = 1, and by no range entry. -/
def spillPageOk (s : State) (pkg part va : Nat) : Bool :=
  decide (va < 2 ^ 48) &&
  match walk s pkg part va with
  | .error _ => false
  | .ok t => decide (t.hi - t.lo < 65536) && t.own.isSome && ((s.pkg pkg).rangeFor part va).isNone

/-- The tiles of a partition that are in service. -/
def State.freeTiles (s : State) (pkg part : Nat) : List Nat :=
  ((List.range 1024).map (fun e => pkg * 4096 + e)).filter (fun r => decide (s.partOf r = some part) && !(s.tile r).fenced)

/-- The pairs of tiles of a DUAL launch in a partition. -/
def State.freePairs (s : State) (pkg part : Nat) : List Nat :=
  (s.freeTiles pkg part).filter (fun r => decide (r % 2 = 0) && !(s.tile (r + 1)).fenced)

/-- The ranges that Table 17.2 and R31 state, and the reserved bytes. -/
def Launch.rangesOk (l : Launch) : Bool :=
  decide (4 ≤ l.plen ∧ l.plen ≤ 65536 ∧ l.plen % 4 = 0 ∧ l.statva % 64 = 0 ∧ l.f 32 8 % 2 ^ 20 = 0)
    && decide (1 ≤ l.f 40 2 ∧ 1 ≤ l.f 42 2 ∧ 1 ≤ l.f 44 2 ∧ 1 ≤ l.f 46 2 ∧ l.lw * l.lh ≤ 65536)
    && decide (l.qid < 60 ∧ 1 ≤ l.f 49 1 ∧ l.f 49 1 ≤ 64 ∧ l.f 52 1 ≤ 7)
    && decide (l.f 51 1 / 16 &&& l.bgroups = l.f 51 1 / 16)
    && decide (1 ≤ l.f 54 2 ∧ l.f 54 2 ≤ 128 ∧ l.till ≤ 131072 ∧ l.till < l.tslen ∧ l.datalen ≤ l.tslen - l.till)
    && decide (1 ≤ l.f 58 2 ∧ l.f 58 2 ≤ 64 ∧ 2 ^ 14 ≤ l.f 60 4 ∧ l.f 60 4 ≤ 2 ^ 28 ∧ l.f 64 2 < 16384)
    && decide (l.f 53 1 = 0) && (l.image.drop 70).all (fun b => decide (b = 0))

/-- Whether a launch record passes the checks of R31, R302, R306, R308 and R320. -/
def launchOk (s : State) (l : Launch) (part : Nat) : Bool :=
  let n := l.lw * l.lh
  l.rangesOk
    && (!l.fixed || (List.range n).all (fun k =>
          match l.fixedEp k with
          | some e =>
            decide (s.partOf (l.pkg * 4096 + e) = some part) && !(s.tile (l.pkg * 4096 + e)).fenced
              && (!l.dual || !(s.tile (l.pkg * 4096 + e + 1)).fenced)
          | none => false))
    && (!l.gang || decide (n ≤ (if l.dual then s.freePairs l.pkg part else s.freeTiles l.pkg part).length))
    && (List.range (n * 256)).all (fun k => spillPageOk s l.pkg part (l.f 32 8 + 4096 * k))

/-- The status of a launch (Table 17.3). -/
def Launch.status (l : Launch) : Nat :=
  if l.bad then 3 else if !l.fin then 0 else if l.loadFault then 4 else if l.cancelled then 2 else 1

/-- The status header of a launch (Table 17.3). -/
def Launch.header (l : Launch) : List Byte :=
  leBytes 4 l.status ++ leBytes 4 l.normal ++ leBytes 4 l.ended ++ leBytes 4 l.discard ++ leBytes 4 l.faulted
    ++ leBytes 4 l.firstBad ++ leBytes 40 0

/-- Writes the status header of a launch. One whose record could not be read names no status area. -/
def writeHeader (s : State) (num : Nat) : State :=
  match s.launchOf num with
  | none => s
  | some l => if l.image = [] then s else (schedWrite s l.pkg (s.jobPart l.job l.pkg) l.statva l.header).1

/-! ## Units that end -/

/-- A unit of the phase of a job ends (R27, R303). A cancelled unit is no error of the phase. -/
def unitEnd (s : State) (job pkg : Nat) (normal cancelled : Bool) : State :=
  s.modJob job pkg (fun j =>
    { j with left := j.left - 1, normal := if normal then j.normal + 1 else j.normal,
             error := j.error || (!normal && !cancelled) })

/-- The graph status area (Table 17.7). -/
def Graph.area (g : Graph) : List Byte :=
  leBytes 1 g.status ++ leBytes 1 (if g.status = 4 then g.fcode else 0) ++ leBytes 2 (if g.status = 4 then g.node else 0xFFFF)
    ++ leBytes 4 g.ended ++ leBytes 4 g.eval ++ leBytes 4 0

/-- Launch nodes of a graph that run. -/
def Graph.running (g : Graph) : Nat := (g.nodes.filter (fun n => decide (n.kind = 0 ∧ n.st = 2))).length

/-- Whether some node of a graph is ready. -/
def Graph.anyReady (g : Graph) : Bool := g.nodes.any (fun n => decide (n.st = 1))

/-- Whether a graph has stopped taking ready nodes: it is cancelled or faulted. -/
def Graph.stopped (g : Graph) : Bool := g.cancelled || decide (g.status = 4)

/-- The status with which a graph ends now, if it does (R304, R305, Table 2.1). -/
def Graph.over (g : Graph) : Option Nat :=
  if g.running ≠ 0 then none
  else if g.status = 4 then some 4
  else if g.cancelled then some 2
  else if g.exitSeen then some 1
  else if g.anyReady then none
  else some 5

/-- Ends a graph when it is over, or makes its next evaluation due. -/
def graphGo (s : State) (num : Nat) : State :=
  match s.graphOf num with
  | none => s
  | some g =>
    if g.fin then s
    else
      match g.over with
      | none => if g.anyReady && !g.stopped then emitOnce s (.graphNodeEval g.pkg num) else s
      | some st =>
        let g := { g with status := st, fin := true }
        let s := s.modGraph num (fun _ => g)
        let s := (schedWrite s g.pkg (s.jobPart g.job g.pkg) g.gstat g.area).1
        unitEnd s g.job g.pkg (decide (st = 1)) (decide (st = 2))

/-- A node signalled by a predecessor (R304): at zero it becomes ready. -/
def Node.signal (n : Node) : Node :=
  if n.st ≠ 0 ∨ n.count = 0 then n else { n with count := n.count - 1, st := if n.count = 1 then 1 else 0 }

/-- Signals the successors of a list of nodes. -/
def signalNodes (l : List Node) (succ : List Nat) : List Node :=
  succ.foldl (fun l j => l.modify j Node.signal) l

/-- A launch node's launch has ended: the node ends, and every successor is signalled (R304). -/
def nodeEnds (s : State) (num k : Nat) (normal : Bool) : State :=
  graphGo (s.modGraph num (fun g =>
    let l := g.nodes.modify k (fun n => { n with st := 3 })
    { g with nodes := if g.stopped then l else signalNodes l ((((g.nodes[k]?).map (·.succ)).getD []).take 16),
             ended := if normal then g.ended + 1 else g.ended })) num

/-- Whether a launch ended normally as a unit (R303). -/
def Launch.good (l : Launch) : Bool := !l.bad && !l.loadFault && !l.cancelled && decide (l.faulted = 0)

/-- Makes a placement decision due on every die of a partition (R307). -/
def wakeDies (s : State) (pkg part : Nat) : State :=
  ((s.pkg pkg).diesOf part).foldl (fun s d => emitOnce s (.placementDecision pkg d)) s

/-- A launch whose counter is zero ends: its header is final, and its unit ends; a cancelled one is an error of its phase when a task
of it faulted (R303). Its barrier registers stand until a gang placement writes them (R309). -/
def launchGo (s : State) (num : Nat) : State :=
  match s.launchOf num with
  | none => s
  | some l =>
    if l.fin || decide (l.left ≠ 0) then s
    else
      let s := writeHeader (s.modLaunch num (fun l => { l with fin := true, queued := false, heldPlanes := [] })) num
      let s := wakeDies s l.pkg (s.jobPart l.job l.pkg)
      match l.graph with
      | some (g, k) => nodeEnds s g k l.good
      | none => unitEnd s l.job l.pkg l.good (l.cancelled && !l.loadFault && decide (l.faulted = 0))

/-! ## Starting work -/

/-- Enqueues the launch of a record (R306), or refuses it BADATTR (R31). A record that cannot be read is refused too, and nothing is
written, since no status area is known: the spec does not say what becomes of it (DESIGN CHOICE, log entry 91). -/
def enqueueLaunch (s : State) (job pkg addr : Nat) (graph : Option (Nat × Nat)) : State :=
  let part := s.jobPart job pkg
  let (num, s) := freshNum s
  let l : Launch := { num := num, job := job, pkg := pkg, image := [], graph := graph }
  let refused := fun (s : State) (l : Launch) =>
    launchGo { s with launches := s.launches ++ [{ l with bad := true, queued := false }] } num
  match schedRead s pkg part addr 128 with
  | .error e => refused e.2 l
  | .ok (b, s) =>
    let l := { l with image := b }
    if addr % 64 ≠ 0 ∨ launchOk s l part = false then refused s l
    else
      let n := l.lw * l.lh
      wakeDies (writeHeader { s with launches := s.launches ++ [{ l with ntask := n, left := n }] } num) pkg part

/-- A node of a graph record (Table 17.4). -/
def nodeOf (b : List Byte) : Node :=
  let f := fun o n => leNat ((b.drop o).take n)
  { kind := f 0 1, npred := f 2 2, nback := f 4 2, addr := f 8 8, bodyLo := f 16 2, bodyHi := f 18 2,
    succ := (List.range (f 1 1)).map (fun i => f (32 + 2 * i) 2), count := f 2 2, st := if f 2 2 = 0 then 1 else 0 }

/-- Whether a node is in range in a graph of a number of nodes. -/
def nodeOk (n : Nat) (b : List Byte) : Bool :=
  let x := nodeOf b
  let k := x.succ.length
  decide (x.kind ≤ 4 ∧ x.npred ≤ 4095)
    && (if x.kind = 0 then decide (k ≤ 16)
        else if x.kind = 3 then decide (1 ≤ k ∧ k ≤ 16)
        else if x.kind = 4 then decide (k = 0)
        else decide (k = 2))
    && (x.succ.take 16).all (fun j => decide (j < n))
    && (decide (x.kind = 0 ∨ x.kind = 4) || decide (x.addr % 8 = 0))
    && (decide (x.kind ≠ 2) || decide (x.bodyLo ≤ x.bodyHi ∧ x.bodyHi < n))
    && ((b.drop 6).take 2).all (fun y => decide (y = 0)) && ((b.drop 20).take 12).all (fun y => decide (y = 0))

/-- The bytes of a graph record: its header and its nodes, of which there are none when they cannot be read; or a fault. -/
def readGraph (s : State) (pkg part addr : Nat) : Except (Nat × State) (List Byte × List Byte × State) :=
  match schedRead s pkg part addr 64 with
  | .error f => .error f
  | .ok (h, s) =>
    let n := leNat (h.take 2)
    if n = 0 ∨ 4096 < n then .ok (h, [], s)
    else
      match schedRead s pkg part (addr + 64) (64 * n) with
      | .error e => .ok (h, [], e.2)
      | .ok (b, s) => .ok (h, b, s)

/-- Hands a graph record to the walker (R304), which checks all of it; a bad one ends BADGRAPH (R305). -/
def acceptGraph (s : State) (job pkg addr : Nat) : State :=
  let part := s.jobPart job pkg
  let (num, s) := freshNum s
  let g : Graph := { num := num, job := job, pkg := pkg, gstat := 0, nodes := [] }
  match readGraph s pkg part addr with
  | .error (_, s) => unitEnd { s with graphs := s.graphs ++ [{ g with status := 3, fin := true }] } job pkg false false
  | .ok (h, b, s) =>
    let n := leNat (h.take 2)
    let g := { g with gstat := leNat ((h.drop 8).take 8) }
    let area := decide (g.gstat % 8 = 0) && schedCovers s pkg part g.gstat 16 true
    let rows := (List.range n).map (fun i => (b.drop (64 * i)).take 64)
    if addr % 64 = 0 ∧ 1 ≤ n ∧ n ≤ 4096 ∧ b.length = 64 * n ∧ area = true ∧ ((h.drop 2).take 6 ++ h.drop 16).all (fun y => decide (y = 0)) = true
        ∧ rows.all (nodeOk n) = true then
      let g := { g with nodes := rows.map nodeOf }
      let s := { s with graphs := s.graphs ++ [g] }
      graphGo (schedWrite s pkg part g.gstat g.area).1 num
    else
      let g := { g with status := 3, fin := true }
      let s := { s with graphs := s.graphs ++ [g] }
      let s := if area then (schedWrite s pkg part g.gstat g.area).1 else s
      unitEnd s job pkg false false

/-- Starts the phase at which a job stands (R303): every entry of its list in order. A phase of a cancelled job has no unit;
one whose table or list cannot be read, or has a count out of range, ends with an error. -/
def startPhase (s : State) (num pkg : Nat) : State :=
  match s.jobAt num pkg with
  | none => s
  | some j =>
    let (ph, s) := freshNum s
    let fresh := fun (j : Job) =>
      { j with phaseNum := ph, left := 0, normal := 0, error := false, phaseCancelled := j.cancelled }
    let s := s.modJob num pkg fresh
    if j.cancelled then s
    else
      let bad := fun (s : State) => s.modJob num pkg (fun j => { j with error := true })
      match schedRead s pkg j.part (j.phaseva + 16 * j.phase) 16 with
      | .error e => bad e.2
      | .ok (e, s) =>
        let n := leNat ((e.drop 8).take 2)
        if n = 0 ∨ 4096 < n ∨ (e.drop 10).any (fun y => decide (y ≠ 0)) = true then bad s
        else
          match schedRead s pkg j.part (leNat (e.take 8)) (8 * n) with
          | .error e => bad e.2
          | .ok (b, s) =>
            let s := s.modJob num pkg (fun j => { j with left := n })
            (List.range n).foldl (fun s i =>
              let w := leNat ((b.drop (8 * i)).take 8)
              if w.testBit 63 then acceptGraph s num pkg (w % 2 ^ 48) else enqueueLaunch s num pkg (w % 2 ^ 48) none) s

/-- The completion word of a phase or a job (R303). -/
def doneWord (status n : Nat) : List Byte := leBytes 8 (status + n % 2 ^ 32 * 2 ^ 8)

/-- The leases of a job end, and its requests at the lane manager are gone (R144). -/
def endJobLeases (s : State) (num pkg : Nat) : State :=
  (endLeases s pkg (fun x => decide (x.job = num))).modPkg pkg (fun p =>
    { p with leaseReqs := p.leaseReqs.filter (fun q => decide (q.job ≠ num)) })

/-- Ends a job: its word is written, its leases end, its stream tables are discarded (R72, R303). -/
def endJob (s : State) (j : Job) : State :=
  let st := if j.cancelled then 2 else if j.anyError then 1 else 0
  let s := { s with mem := memWrite s.mem (hostAddr j.pkg (j.doneva + 8 * j.nphase)) (doneWord st j.normalPhases) }
  let s := s.modJob j.num j.pkg (fun j => { j with fin := true })
  let s := endJobLeases s j.num j.pkg
  { s with streams := s.streams.filter (fun x => decide (x.job ≠ j.num ∨ x.pkg ≠ j.pkg)) }

/-- Ends the phases of a job that have no unit left, and starts the next (R303). -/
def jobGo : Nat → State → Nat → Nat → State
  | 0, s, _, _ => s
  | n + 1, s, num, pkg =>
    match s.jobAt num pkg with
    | none => s
    | some j =>
      if j.left ≠ 0 then s
      else
        let st := if j.phaseCancelled then 2 else if j.error then 1 else 0
        let s := { s with mem := memWrite s.mem (hostAddr pkg (j.doneva + 8 * j.phase)) (doneWord st j.normal) }
        let s := blackBox s pkg 0x0022 (Config.noUnit 0x0022 pkg) (j.num + j.phase % 256 * 2 ^ 16 + st * 2 ^ 24)
        let j' := { j with phase := j.phase + 1, normalPhases := if st = 0 then j.normalPhases + 1 else j.normalPhases,
                           anyError := j.anyError || decide (st ≠ 0),
                           past := j.past ++ [(j.phaseNum, st, j.normal)] }
        let s := s.modJob num pkg (fun _ => j')
        if j'.phase = j'.nphase then endJob s j' else jobGo n (startPhase s num pkg) num pkg

/-- Moves every job on: a step that may have ended a unit ends with this. -/
def advance (s : State) : State := s.jobs.foldl (fun s j => jobGo 256 s j.num j.pkg) s

/-! ## Tasks and counters -/

/-- A task of a launch has ended with an END code (R27, Table 17.3). -/
def countTask (s : State) (num n code discard : Nat) : State :=
  let f := decide (code = 1 ∨ code = 3 ∨ code = 4 ∨ code = 5)
  let s := s.modLaunch num (fun l =>
    { l with left := l.left - 1, ended := l.ended + 1, normal := if code = 0 then l.normal + 1 else l.normal,
             discard := l.discard + discard, faulted := if f then l.faulted + 1 else l.faulted,
             firstBad := if f && decide (l.firstBad = 0xFFFFFFFF) then n else l.firstBad })
  advance (launchGo (writeHeader s num) num)

/-- A status record (Table 16.3). -/
def statusRecord (info pos pc cause code endCode discard cycle : Nat) : List Byte :=
  leBytes 8 cycle ++ leBytes 4 discard ++ leBytes 4 code ++ leBytes 1 endCode ++ leBytes 1 cause ++ leBytes 2 pc
    ++ leBytes 4 pos ++ leBytes 8 info

/-! ## Barrier groups that are released (R40) -/

/-- Releases group g of a launch with an outcome, unless it has been released: the speculations that await it, at either tile of a
DUAL pair, roll back, not counted against SPECMAX. -/
def releaseTree (s : State) (num g code : Nat) : State :=
  match s.launchOf num with
  | none => s
  | some l =>
    if !l.bgroups.testBit g || decide (((l.trees[g]?).getD {}).out ≠ 0) then s
    else
      let s := s.modLaunch num (fun l => { l with trees := l.trees.setIfInBounds g { (l.trees[g]?).getD {} with out := code } })
      l.members.foldl (fun s m =>
        (if l.dual then [m.2, m.2 + 1] else [m.2]).foldl (fun s r =>
          match planeOfTask (s.tile r) num m.1 with
          | none => s
          | some p =>
            match (s.plane r p).spec with
            | some sp => if sp.group = g then rollback s r p false else s
            | none => s) s) s

/-- Releases every group of a launch. -/
def releaseTrees (s : State) (num code : Nat) : State := (List.range 4).foldl (fun s g => releaseTree s num g code) s

/-! ## Cancel (R28, R313) -/

/-- Cancels a launch: it leaves the queues, its unplaced tasks end with END 0x2, its running and suspended tasks are told,
and its groups are released with BARCANCEL. -/
def cancelLaunch (s : State) (num : Nat) (load : Bool) : State :=
  match s.launchOf num with
  | none => s
  | some l =>
    if l.fin || l.cancelled || l.loadFault || l.test.isSome then s
    else
      let part := s.jobPart l.job l.pkg
      let s := s.modLaunch num (fun l =>
        { l with queued := false, heldPlanes := [], cancelled := !load, loadFault := load })
      let s := ((List.range l.ntask).drop l.next).foldl (fun s n =>
        let pos := n % l.lw + n / l.lw * 2 ^ 16
        countTask (schedWrite s l.pkg part (l.record n) (statusRecord 0 pos 0 0 0 2 0 0)).1 num n 2 0) s
      let s := s.tiles.foldl (fun s t =>
        [0, 1].foldl (fun s p =>
          let pl := s.plane t.1 p
          if 1 ≤ pl.state ∧ pl.state ≤ 4 ∧ pl.task.launch = num then emitOnce s (.cancelInterrupt t.1 p num) else s) s) s
      let s := s.suspended.foldl (fun s u =>
        if u.plane.task.launch = num then emitOnce s (.cancelInterrupt u.rank 0 num) else s) s
      let s := releaseTrees s num 2
      advance (launchGo (wakeDies s l.pkg part) num)

/-- Cancels a graph: nodes that are not ready are discarded, and running launch nodes are cancelled. Nodes that are ready and not yet
evaluated are discarded too, of which Table 2.1 says nothing (DESIGN CHOICE, log entry 92). -/
def cancelGraph (s : State) (num : Nat) : State :=
  match s.graphOf num with
  | none => s
  | some g =>
    if g.fin then s
    else
      let s := s.modGraph num (fun g =>
        { g with cancelled := true, nodes := g.nodes.map (fun n => if n.st = 2 then n else { n with st := 3 }) })
      let s := s.launches.foldl (fun s l => if (l.graph.map (·.1)) = some num then cancelLaunch s l.num false else s) s
      advance (graphGo s num)

/-- Cancels the phase at which a job stands: every graph and launch of it. -/
def cancelPhase (s : State) (num pkg : Nat) : State :=
  match s.jobAt num pkg with
  | none => s
  | some _ =>
    let s := s.modJob num pkg (fun j => { j with phaseCancelled := true })
    let s := s.graphs.foldl (fun s g => if g.job = num ∧ g.pkg = pkg then cancelGraph s g.num else s) s
    let s := s.launches.foldl (fun s l => if l.job = num ∧ l.pkg = pkg then cancelLaunch s l.num false else s) s
    advance s

/-- Cancels a job: every phase, and its leases end (R144). -/
def cancelJob (s : State) (num pkg : Nat) : State :=
  let s := s.modJob num pkg (fun j => { j with cancelled := true })
  cancelPhase (endJobLeases s num pkg) num pkg

end Sys2Proof.Machine
end

