-- ==== Sys2Proof/Machine/TaskEnd.lean ====
section
/-! DEFINITION. The end of a task and the freeing of its plane (R30, R294, R296), heartbeat misses and monitor faults (R35,
R289), fences as tasks and peers see them (R84, R314), and the interrupts of the scheduler (R298, R313). -/

namespace Sys2Proof.Machine

/-! ## The end of a task -/

/-- Changes the OWNER of every leaf of a task's spill area (R320). -/
def setOwners (s : State) (pkg part spill owner : Nat) : State :=
  (List.range 256).foldl (fun s k =>
    match leafOf s pkg part (spill + 4096 * k) with
    | some (a, _) => s.dpaStore pkg (a + 13) (leBytes 3 owner)
    | none => s) s

/-- Whether a translated request of the tile r of a package is touched by an invalidation of lo to hi: it lies in the span, or an entry
that covers it is dropped (R327). -/
def invMeets (s : State) (pkg part lo hi r : Nat) (q : Req) : Bool :=
  decide (q.vault ≠ 0 ∧ q.part = part) &&
    (decide (lo ≤ (nextVa q) + (q.len - 1) ∧ (nextVa q) ≤ hi)
      || ((s.tile r).tr ++ ngetD (s.pkg pkg).tlb (dieOf (epOf r)) []).any (fun t => t.meets part lo hi && t.covers part (nextVa q)))

/-- The requests of a package's partition that have left under a translation that an invalidation drops, and have not ended (R327). -/
def translatedIn (s : State) (pkg part lo hi : Nat) : List Nat :=
  s.tiles.flatMap (fun t =>
    if pkgOf t.1 = pkg then (t.2.reqs.filter (fun q => q.sent && invMeets s pkg part lo hi t.1 q.req)).map (·.req.id) else [])

/-- The requests of a list that have not ended. -/
def stillOut (s : State) (l : List Nat) : List Nat :=
  l.filter (fun i => s.tiles.any (fun t => t.2.reqs.any (fun q => decide (q.req.id = i))))

/-- Drops the translations of a partition that cover an address from lo to hi: in every tile of the package and in its dies'
TLBs (R327). A request that has not left is translated again. -/
def dropTr (s : State) (pkg part lo hi : Nat) : State :=
  let keep := fun (u : Tr) => !u.meets part lo hi
  let again := fun (r : Nat) (q : ReqSt) =>
    if !q.sent && invMeets s pkg part lo hi r q.req then { q with req := { q.req with vault := 0 } } else q
  let s := { s with tiles := s.tiles.map (fun (e : Nat × Tile) =>
    if pkgOf e.1 = pkg then (e.1, { e.2 with tr := e.2.tr.filter keep, reqs := e.2.reqs.map (again e.1) }) else e) }
  s.modPkg pkg (fun p => { p with tlb := p.tlb.map (fun (e : Nat × List Tr) => (e.1, e.2.filter keep)) })

/-- The flag of an unstarted copy that is discarded completes CANCELLED (R296); that of a COPYQ which still waits is left clear
(R228). -/
def cancelCopy (s : State) (r p k : Nat) (c : CopyCmd) : State :=
  if c.fk.isSome then s else completeFlag s r p c.flag c.id (copyRecord stCANCELLED 0 0 k)

/-- Unstarted entries of a plane are discarded (R296); a started copy has no follow-on any more. -/
def cancelQueued (s : State) (r p : Nat) : State :=
  let s := (List.range 4).foldl (fun s k =>
    ((s.plane r p).ch k).foldl (fun s c =>
      let s := endFollow s r p c 0
      if c.begun then s else cancelCopy s r p k c) s) s
  let s := s.modPlane r p (fun pl =>
    { pl with chan := pl.chan.map (fun l => (l.filter (·.begun)).map (fun c => { c with follow := none })),
              hold := Vector.replicate 4 none })
  let s := (s.plane r p).mx.foldl (fun s e => if e.started then s else mxCancel s r p e 0) s
  (s.plane r p).saved.foldl (fun s u =>
    match u with
    | .copy k c => endFollow (cancelCopy s r p k c) r p c 0
    | .matrix e => mxCancel s r p e 0) (s.modPlane r p (fun pl => { pl with saved := [] }))

/-- The message of an entry of a spill queue. -/
def spillMsg : SpillE → Option Msg
  | .msg m => some m
  | .pull _ => none

/-- The pull of an entry of a spill queue. -/
def spillPull : SpillE → Option Pull
  | .msg _ => none
  | .pull q => some q

/-- The discard notice of a stub or an unmatched rendezvous header goes to its sender (R30, R79). -/
def noticeDiscard (s : State) (r : Nat) (m : Msg) : State :=
  if r ≠ m.dst then s
  else emitNet s r m.src 0 (.discardNotice
    { rank := m.src, job := m.job, sid := m.sid, dst := m.dst, fin := true, status := stCANCELLED, fcode := 0 })

/-- Marks the number of a message that was never admitted as abandoned in the job's stream table (R30). -/
def abandonSeq (s : State) (r : Nat) (m : Msg) : State :=
  if m.query then s else s.putStream ((s.stream m.job r m.src m.group false).abandon m.seq)

/-- What a task's unexpected messages and spill queue leave behind: abandoned numbers, discard notices unless the tile is
fenced, and pulls that fail with PEERDOWN (R30, R298). -/
def discardUq (s : State) (r : Nat) (uq : List Uq) (sq : List SpillE) (notice : Bool) : State :=
  let s := uq.foldl (fun s u =>
    let s := if u.admitted then s else abandonSeq s r u.hdr
    if notice && decide (u.lines = 0) && !u.kept then noticeDiscard s r u.hdr else s) s
  let s := (sq.filterMap spillMsg).foldl (fun s m =>
    let s := abandonSeq s r m
    if notice && decide (m.proto ≠ 0) then noticeDiscard s r m else s) s
  (sq.filterMap spillPull).foldl (fun s q => pullFails s q stPEERDOWN 0) s

/-- Drops the sends of a plane none of whose copies has left: a number they hold is abandoned. -/
def dropUnsent (s : State) (r p : Nat) : State :=
  (s.plane r p).sends.foldl (fun s sd => if sd.copies.all (fun c => !c.left && c.fin.isNone) then cancelSend s r p sd.id 0 else s) s

/-- Writes the status record of a task that has ended, gives its spill area up, so that it answers no task (R320), and counts it. -/
def recordEnd (s : State) (r : Nat) (k : Task) (rg : Regs) (e : Ending) (discard : Nat) : State :=
  let pkg := pkgOf r
  let s := dropTr (setOwners s pkg k.part k.spillva 0xFFFFFF) pkg k.part k.spillva (k.spillva + (2 ^ 20 - 1))
  let rec_ := statusRecord e.info.toNat (rg.gridpos % 2 ^ 32) e.pc e.cause e.ecode e.code discard rg.cycle
  countTask (schedWrite s pkg k.part k.lstatva rec_).1 k.launch k.index e.code discard

/-- The ending that counts for a DUAL pair: the first tile's, unless it ended by EXIT. -/
def pairEnding (own first : Ending) : Ending := if first.code = 0 then own else first

/-- A task ends at a tile: that is its end, but for a DUAL task, which ends when it has ended at both of its tiles (R46, R294),
with the first ending that was no EXIT. -/
def endHalf (s : State) (r : Nat) (k : Task) (rg : Regs) (e : Ending) (discard : Nat) : State :=
  if !k.dual then recordEnd s r k rg e discard
  else
    match (s.launchOf k.launch).bind (fun l => l.halves.find? (fun h => decide (h.1 = k.index))) with
    | none => s.modLaunch k.launch (fun l => { l with halves := l.halves ++ [(k.index, e)] })
    | some h =>
      recordEnd (s.modLaunch k.launch (fun l => { l with halves := l.halves.filter (fun h => decide (h.1 ≠ k.index)) })) r k rg
        (pairEnding e h.2) discard

/-- The suspended record of a task at a tile. -/
def suspOf (s : State) (r : Nat) (k : Task) : Option Susp :=
  s.suspended.find? (fun u => decide (u.rank = r ∧ u.plane.task.launch = k.launch ∧ u.plane.task.index = k.index))

/-- A plane with the engine and matching records of a suspended task (R297, R299). What came while it was out stands in the
spill queue, in arrival order. -/
def takeRecords (pl : Plane) (u : Susp) : Plane :=
  { pl with prq := u.plane.prq, uq := u.plane.uq ++ pl.uq, sends := u.plane.sends ++ pl.sends, held := u.plane.held, arrives := u.plane.arrives,
            spillq := u.plane.spillq ++ pl.spillq, saved := u.plane.saved, hold := u.plane.hold, decl := u.plane.decl,
            declared := u.plane.declared, debt := u.plane.debt, seg := u.plane.seg, rollbacks := u.plane.rollbacks,
            twinData := u.plane.twinData, askIds := u.plane.askIds, yieldWait := u.plane.yieldWait }

/-- A task that ends before its CTXLOAD has taken its records back ends with them: they, and its registers, are the plane's
again, and nothing of it stays suspended. -/
def rejoin (s : State) (r p : Nat) : State :=
  match suspOf s r (s.plane r p).task with
  | none => s
  | some u =>
    { s.modPlane r p (fun pl => { takeRecords pl u with regs := u.plane.regs }) with
      suspended := s.suspended.filter (fun v => decide (v ≠ u)) }

/-- What a DUAL task that ends leaves uncompared is never released (R46): its requests are gone, with the copies that made some of
them. -/
def dropUnpaired (s : State) (r p : Nat) : State :=
  let gone := fun (q : ReqSt) => decide (q.req.plane = p) && !q.ready
  let t := s.tile r
  let s := s.modPlane r p (fun pl =>
    { pl with chan := pl.chan.mapIdx (fun k l => if t.reqs.any (fun q => gone q && decide (q.owner = .copy k)) then [] else l) })
  s.modTile r (fun t =>
    { t with reqs := t.reqs.filter (fun q => !gone q), dualq := t.dualq.filter (fun e => decide (e.1 ≠ p)) })

/-- Ends the task of a plane (R30, R296). The plane then drains; at a fenced tile everything it had is gone at once (R314). The
end of the running plane is a drain point (R301). -/
def endPlane (s : State) (r p : Nat) (e : Ending) : State :=
  let down := (s.tile r).fenced
  let ran := (s.tile r).running
  let s := rejoin (rollbackOne s r p true) r p
  let pl := s.plane r p
  let n := pl.uq.length + pl.spillq.length
  let s := if down then s else dropUnpaired (dropUnsent (cancelQueued s r p) r p) r p
  let s := discardUq s r pl.uq pl.spillq (!down)
  let s := pl.prq.foldl (fun s q => endRecv s r p q stCANCELLED) s
  let s := s.modPlane r p (fun pl =>
    { pl with state := 6, token := false, resumeKind := false, prq := [], uq := [], spillq := [], diverted := false, preempt := none,
              cancel := false, halted := false, exiting := none, plain := none, yieldWait := false, spec := none })
  let s := if down then
      (s.modPlane r p (fun pl =>
        { pl with chan := Vector.replicate 4 [], mx := [], sends := [], deliveries := [], held := [], releasing := [],
                  saved := [], window := Vector.replicate 4 none })).modTile r
        (fun t => { t with reqs := t.reqs.filter (fun q => decide (q.req.plane ≠ p)),
                           dualq := t.dualq.filter (fun q => decide (q.1 ≠ p)) })
    else s
  let s := s.modTile r (fun t => { t with running := if t.running = some p then none else t.running })
  let s := endHalf s r pl.task pl.regs e n
  let s := emitOnce s (.planeFree r p)
  if ran = some p ∨ ran = none then decideTile s r (some p) else s

/-- Ends a suspended task (R298, R299): its spill queue and matching record are discarded, and its rank is free for its job (R308). -/
def endSusp (s : State) (u : Susp) (e : Ending) : State :=
  let down := (s.tile u.rank).fenced
  let s := { s with suspended := s.suspended.filter (fun v => decide (v ≠ u)) }
  let s := discardUq s u.rank u.plane.uq u.plane.spillq (!down)
  let s := endHalf s u.rank u.plane.task u.plane.regs { e with pc := u.plane.resume } (u.plane.uq.length + u.plane.spillq.length)
  emitOnce s (.placementDecision (pkgOf u.rank) (epOf u.rank / 256 % 4))

/-- Whether the conditions of R30 for an EXIT hold at a plane. -/
def mayExit (t : Tile) (p : Nat) : Bool :=
  let pl := t.pl p
  (List.range 4).all (fun k => decide (pl.ch k = [])) && decide (pl.mx = []) && decide (pl.deliveries = []) && pl.spec.isNone
    && pl.sends.all (fun sd => sd.copies.all (·.settled))
    && t.reqs.all (fun q => !(decide (q.req.plane = p ∧ q.owner = .flag ∧ q.req.op ≠ .get)))

/-- TASK_END (R30): the EXIT completes once its conditions hold. -/
def execTaskEnd (rank plane : Nat) (s : State) : Host.Outcome State Fault Refusal :=
  runEvent (Instr.taskEnd rank plane).wf s (fun s =>
    let pl := s.plane rank plane
    match pl.exiting with
    | none => s
    | some pc =>
      if pl.state ≠ 3 then s
      else if (s.tile rank).monitor ∨ mayExit (s.tile rank) plane = false then emitOnce s (.taskEnd rank plane)
      else endPlane s rank plane { code := 0, pc := pc })

/-- Whether a draining plane has nothing left to wait for (R30, R296). -/
def mayFree (t : Tile) (p : Nat) : Bool :=
  let pl := t.pl p
  (List.range 4).all (fun k => decide (pl.ch k = [])) && decide (pl.mx = []) && decide (pl.deliveries = []) && decide (pl.sends = [])
    && decide (pl.held = []) && t.reqs.all (fun q => decide (q.req.plane ≠ p))

/-- Frees a plane: what is the plane's own, its speculation counter and the flits under way, stays. -/
def freePlane (s : State) (r p : Nat) : State :=
  let s := s.modPlane r p (fun pl => { (default : Plane) with specCount := pl.specCount, releasing := pl.releasing })
  emitOnce s (.placementDecision (pkgOf r) (epOf r / 256 % 4))

/-- PLANE_FREE (R296). -/
def execPlaneFree (rank plane : Nat) (s : State) : Host.Outcome State Fault Refusal :=
  runEvent (Instr.planeFree rank plane).wf s (fun s =>
    if (s.plane rank plane).state ≠ 6 then s
    else if mayFree (s.tile rank) plane then freePlane s rank plane
    else emitOnce s (.planeFree rank plane))

/-! ## Interrupts of the scheduler -/

/-- Whether a plane holds a task of a launch that has not ended. -/
def runsLaunch (pl : Plane) (launch : Nat) : Bool := decide (1 ≤ pl.state ∧ pl.state ≤ 4 ∧ pl.task.launch = launch)

/-- A cancel reaches the task of a plane (R313): it waits for the monitor, and for a drain, to end. -/
def cancelPlane (s : State) (r p : Nat) : State :=
  let pl := s.plane r p
  if (s.tile r).monitor ∨ pl.drains = true then s.modPlane r p (fun pl => { pl with cancel := true })
  else endPlane s r p { code := 2, pc := pl.resumePoint }

/-- CANCEL_INTERRUPT (R313): the task halts at the boundary and ends with END 0x2; in the monitor, and during a commit drain,
the cancel waits. An open speculation is rolled back. A suspended task ends too (R298), in the plane that is being loaded for it where
there is one. -/
def execCancelInterrupt (rank plane launch : Nat) (s : State) : Host.Outcome State Fault Refusal :=
  runEvent (Instr.cancelInterrupt rank plane launch).wf s (fun s =>
    match [plane, 1 - plane].find? (fun p => runsLaunch (s.plane rank p) launch) with
    | some p => cancelPlane s rank p
    | none =>
      match s.suspended.find? (fun u => decide (u.rank = rank ∧ u.plane.task.launch = launch)) with
      | some u => endSusp s u { code := 2 }
      | none => s)

/-- Marks a pre-emption pending at a plane that holds a task, loaded or not; a speculation open at the tile is rolled back (R45,
R298). -/
def markPreempt (s : State) (r p : Nat) : State :=
  let st := (s.plane r p).state
  if 1 ≤ st ∧ st ≤ 4 then rollPlanes (s.modPlane r p (fun pl => { pl with preempt := some (pkgOf r * 4096 + 0x511) })) r
  else s

/-- PREEMPT_INTERRUPT (R298, R300): for both tiles of a DUAL pair. -/
def execPreemptInterrupt (rank plane : Nat) (s : State) : Host.Outcome State Fault Refusal :=
  runEvent (Instr.preemptInterrupt rank plane).wf s (fun s =>
    let s' := markPreempt s rank plane
    match partnerOf s rank plane with
    | some (r2, p2) => markPreempt s' r2 p2
    | none => s')

/-- The interrupting rank of a pre-emption that a plane may take now. One that is pending while the plane is being loaded, or
before its token of the resume kind has run, is taken after that (R298: DESIGN CHOICE, log entry 103). -/
def Plane.preemptDue (pl : Plane) : Option Nat := if pl.state = 1 ∨ pl.resumeKind = true then none else pl.preempt

/-- Takes a pending pre-emption of plane p (R45, R298): the monitor is entered on its behalf once no speculation is open at the tile
and no drain is under way. An EXIT that waits is given up, and its bundle executes again on resume; the effects of the bundle's
other words stand, of which R189 says nothing (DESIGN CHOICE, log entry 89). A task that had not begun is resident from now on. -/
def takePreempt (s : State) (r p by_ : Nat) : State :=
  if (s.tile r).drains then s
  else
    let s := rollPlanes s r
    let pc := (s.plane r p).resumePoint
    let s := s.modPlane r p (fun pl => { pl with preempt := none, halted := true, exiting := none, plain := none, token := false })
    monitorEntry s r p { cause := cPREEMPT, info := BitVec.ofNat 64 by_ } pc (npcAt s r p pc)

/-- PREEMPT (R298): taken at a boundary, never in the monitor. -/
def execPreempt (rank : Nat) (s : State) : Host.Outcome State Fault Refusal :=
  runEvent (Instr.preempt rank).wf s (fun s =>
    let t := s.tile rank
    if t.monitor || t.fenced then s
    else
      match t.plane0.preemptDue, t.plane1.preemptDue with
      | some b, _ => takePreempt s rank 0 b
      | none, some b => takePreempt s rank 1 b
      | none, none => s)

/-! ## Fences (R35, R84, R289, R314) -/

/-- The matching engine of a plane learns that a tile is fenced (R84): sends to it complete PEERDOWN, and so do receives that
name it. -/
def Plane.peerDown (pl : Plane) (f : Nat) : Plane :=
  let l := pl.prq.filter (fun q => decide (q.src = f))
  let pl := l.foldl (fun pl q => pl.complete q.flag q.id (recvRecord q 0 0 stPEERDOWN 0 0 0 15)) pl
  Plane.finSends { pl with
    prq := pl.prq.filter (fun q => decide (q.src ≠ f)),
    sends := pl.sends.map (fun sd => { sd with copies := sd.copies.map (fun c => if c.dst = f ∧ c.fin = none then c.finish stPEERDOWN 0 else c) }) }

/-- R84 at a plane: its sends and receives, and the deliveries whose pull from the fenced tile has not landed in full. -/
def peerDownAt (s : State) (r p f : Nat) : State :=
  let s := finSends (s.modPlane r p (fun pl => pl.peerDown f)) r p
  (s.plane r p).deliveries.foldl (fun s d => if (d.pulling || (d.piped && decide (d.data ≠ []))) && decide (d.hdr.src = f) then failDelivery s r p d stPEERDOWN 0 else s) s

/-- Releases every barrier tree that holds a fenced tile with PEERDOWN (R40). -/
def releaseFenced (s : State) (f : Nat) : State :=
  s.launches.foldl (fun s l =>
    if !l.fin && l.members.any (fun m => decide (m.2 = f) || (l.dual && decide (m.2 = evenOf f))) then releaseTrees s l.num 1 else s) s

/-- Sends the fence notice of a tile to every other tile that holds a task (R314). -/
def sendNotices (s : State) (f : Nat) : State :=
  s.tiles.foldl (fun s t =>
    if t.1 ≠ f ∧ epOf t.1 < 0x400 ∧ (t.2.plane0.state ≠ 0 ∨ t.2.plane1.state ≠ 0 ∨ s.suspended.any (fun u => decide (u.rank = t.1)) = true) then
      emitNet s f t.1 0 (.fenceNotice f t.1)
    else s) s

/-- Whether the spare of a tile's column can repair it (R341): the spare is neither in use nor fenced. -/
def spareFree (s : State) (r : Nat) : Bool :=
  let e := 1024 + epOf r / 256 % 4 * 16 + epOf r % 16
  !((s.pkg (pkgOf r)).isSpared e) && !((s.pkg (pkgOf r)).isFenced e)

/-- A plane that was being loaded for a suspended task is given up, and the task stays suspended with its spill queue (R299). -/
def unload (s : State) (r p : Nat) (u : Susp) : State :=
  let pl := s.plane r p
  let s := { s with suspended := s.suspended.map (fun v =>
    if v = u then { v with plane := { v.plane with spillq := v.plane.spillq ++ pl.spillq, queueHead := pl.queueHead, arrives := pl.arrives } }
    else v) }
  freePlane s r p

/-- The other tile's half of a DUAL task that ends at a tile (R46, R314): in a plane, or suspended. One that is fenced ends on its
own. -/
def endPartner (s : State) (k : Task) : State :=
  match planeOfTask (s.tile k.partner) k.launch k.index with
  | some p => if (s.tile k.partner).fenced ∨ (s.plane k.partner p).state = 6 then s else cancelPlane s k.partner p
  | none =>
    match suspOf s k.partner k with
    | some u => endSusp s u { code := 2 }
    | none => s

/-- Ends a task of a plane of a fenced tile, at both tiles of a DUAL pair (R314). -/
def endTask (s : State) (r p : Nat) (e : Ending) : State :=
  let k := (s.plane r p).task
  let s := endPlane s r p e
  if k.dual then endPartner s k else s

/-- Takes a plane of a fenced tile out of service: its task ends, or stays suspended when it was only being loaded. -/
def evict (s : State) (r p : Nat) (e : Ending) : State :=
  let pl := s.plane r p
  if 1 ≤ pl.state ∧ pl.state ≤ 4 then
    match (if pl.state ≤ 2 then suspOf s r pl.task else none) with
    | some u => unload s r p u
    | none => endTask s r p { e with pc := pl.resumePoint }
  else s

/-- Takes both planes of a fenced tile out of service. -/
def endResidents (s : State) (r : Nat) (e : Ending) : State := evict (evict s r 0 e) r 1 e

/-- Tasks suspended at a fenced tile that no spare can repair end with END 0x5 (R299). -/
def endSuspended (s : State) (r : Nat) : State :=
  if spareFree s r then s
  else (s.suspended.filter (fun u => decide (u.rank = r))).foldl (fun s u =>
    let s := endSusp s u { code := 5 }
    if u.plane.task.dual then endPartner s u.plane.task else s) s

/-- The coordinator's work for a fenced tile (R314). Its tasks have ended already after an HBMISS or a monitor fault. -/
def coordinate (s : State) (r : Nat) : State :=
  let reason := bitsHL ((s.pkg (pkgOf r)).healthOf (epOf r)) 61 56
  let s := if reason = 2 ∨ reason = 3 then s
    else endResidents s r { code := 1, info := BitVec.ofNat 64 reason }
  sendNotices (releaseFenced (endSuspended s r) r) r

/-- FENCE_NOTICE (R84, R314): at the fenced tile itself, the coordinator's work; elsewhere the matching engines'. -/
def execFenceNotice (fenced tile : Nat) (s : State) : Host.Outcome State Fault Refusal :=
  runEvent (Instr.fenceNotice fenced tile).wf s (fun s =>
    if fenced = tile then (if (s.tile fenced).fenced then coordinate s fenced else s)
    else
      let s := peerDownAt (peerDownAt s tile 0 fenced) tile 1 fenced
      let s := { s with suspended := s.suspended.map (fun u => if u.rank = tile then { u with plane := u.plane.peerDown fenced } else u) }
      releaseFenced (pumpTile s tile) fenced)

/-- A heartbeat miss at plane p of a tile (R35): the tile is fenced, and the running task traps HBMISS to the monitor. A companion that
has not started to run ends at once with END 0x3; the monitor is entered for any other when the first task has ended
(DEDUCED, log entry 90). -/
def hbmissAt (s : State) (r p : Nat) : State :=
  let s := rollPlanes s r
  let hb := (s.plane r p).regs.hbcnt
  let pkg := pkgOf r
  let s := countUp (blackBox s pkg 0x0018 r (hb % 2 ^ 29)) pkg 3
  let s := fenceEntry (s.modTile r (fun t => { t with fenced := true })) pkg (epOf r) 2
  let pc := (s.plane r p).resumePoint
  let s := s.modPlane r p (fun pl => { pl with exiting := none, plain := none, yieldWait := false })
  let s := if (s.plane r (1 - p)).state = 3 then s
    else evict s r (1 - p) { code := 3, cause := cHBMISS, info := BitVec.ofNat 64 hb }
  let s := monitorEntry s r p { cause := cHBMISS, info := BitVec.ofNat 64 hb } pc (npcAt s r p pc)
  emitOnce s (.fenceNotice r r)

/-- The DUAL partner of a tile that missed its heartbeat is fenced with it (R46). -/
def hbmissPair (s : State) (r p hb : Nat) : State :=
  if (s.tile r).fenced then s
  else
    let s := countUp s (pkgOf r) 3
    let s := fenceEntry (s.modTile r (fun t => { t with fenced := true, monitor := false, running := none })) (pkgOf r) (epOf r) 2
    let s := evict s r p { code := 1, cause := cHBMISS, info := BitVec.ofNat 64 hb }
    emitOnce (endResidents s r { code := 3, cause := cHBMISS, info := BitVec.ofNat 64 hb }) (.fenceNotice r r)

/-- HBMISS (R35, R292): taken at a boundary; a commit drain ends first. -/
def execHbmiss (rank : Nat) (s : State) : Host.Outcome State Fault Refusal :=
  runEvent (Instr.hbmiss rank).wf s (fun s =>
    let t := s.tile rank
    match t.running with
    | none => s
    | some p =>
      if !(t.pl p).missed || t.monitor || t.fenced || t.drains then s
      else
        let tw := partnerOf s rank p
        let hb := (t.pl p).regs.hbcnt
        let s := hbmissAt s rank p
        match tw with
        | some (r2, p2) => hbmissPair s r2 p2 hb
        | none => s)

/-- The rest of a monitor fault (R289): the tile is handled as after a heartbeat miss, and both of its tasks end with END 0x1
and CAUSE 0x0E. -/
def monitorFaultRest (s : State) (r : Nat) : State :=
  let s := fenceEntry s (pkgOf r) (epOf r) 3
  let s := s.modTile r (fun t => { t with mfault := false })
  let s := endResidents s r { code := 1, cause := cHBMISS, info := (s.tile r).mtinfo }
  emitOnce s (.fenceNotice r r)

/-- MONITOR_WATCHDOG_EXPIRY (R289): the watchdog at 2^22 is a monitor fault; the step also ends any monitor fault. -/
def execMonitorWatchdogExpiry (rank : Nat) (s : State) : Host.Outcome State Fault Refusal :=
  runEvent (Instr.monitorWatchdogExpiry rank).wf s (fun s =>
    let t := s.tile rank
    if t.monitor then
      if t.mwatch < 2 ^ 22 then s else monitorFaultRest (monitorFault s rank (Config.watchdogCause s.tick)) rank
    else if t.mfault then monitorFaultRest s rank
    else s)

end Sys2Proof.Machine
end

