-- ==== Sys2Proof/Machine/Place.lean ====
section
/-! DEFINITION. The graph walker's evaluations (R29, R304), the placement decision of a die with its lottery (R307 to R309),
the loader (R301), and the start of a window (R310). -/

namespace Sys2Proof.Machine

/-! ## The graph walker -/

/-- The node that a walker evaluates next: the lowest ready one; a launch node waits while 64 run (R304). -/
def Graph.next (g : Graph) : Option Nat :=
  (List.range g.nodes.length).find? (fun k =>
    match g.nodes[k]? with
    | some n => decide (n.st = 1 ∧ (n.kind ≠ 0 ∨ g.running < 64))
    | none => false)

/-- The graph with a control node evaluated, which signals a list of successors. -/
def Graph.took (g : Graph) (k : Nat) (succ : List Nat) : Graph :=
  { g with nodes := signalNodes (g.nodes.modify k (fun n => { n with st := 3 })) succ, eval := g.eval + 1 }

/-- A node whose counter is loaded: it is ready at once when that is zero. -/
def Node.load (n : Node) (c : Nat) : Node := { n with count := c, st := if c = 0 then 1 else 0 }

/-- A while node whose word is nonzero: its body's counters are reloaded from NPRED and its own from NBACK, and the body's
entry is signalled. -/
def Graph.again (g : Graph) (k : Nat) (n : Node) : Graph :=
  let l := g.nodes.mapIdx (fun i x => if n.bodyLo ≤ i ∧ i ≤ n.bodyHi then x.load x.npred else x)
  let l := l.modify k (fun x => x.load x.nback)
  { g with nodes := signalNodes l (n.succ.take 1), eval := g.eval + 1 }

/-- The successor that an if or switch node takes (R29). -/
def Node.choose (n : Node) (w : Nat) : List Nat :=
  if n.kind = 1 then (if w ≠ 0 then n.succ.take 1 else (n.succ.drop 1).take 1)
  else (n.succ.drop (if w < n.succ.length - 1 then w else n.succ.length - 1)).take 1

/-- Whether a request writes at its target: a put, an atomic or a reduction, routines included. -/
def reqWrites (q : Req) : Bool := decide (q.op ≠ .get ∧ q.op ≠ .query)

/-- Whether a write of a launch of a graph has still to be performed: of a plane that drains, or of a fenced tile. -/
def writesOut (s : State) (g : Graph) : Bool :=
  s.tiles.any (fun t => t.2.reqs.any (fun e =>
    reqWrites e.req && decide ((t.2.pl e.req.plane).state = 6) && ((s.launchOf (t.2.pl e.req.plane).task.launch).bind (fun l => l.graph.map (·.1))) = some g.num))
  || s.agenda.any (fun d =>
    match requestOf d.ev with
    | some q => reqWrites q && decide (q.job = g.job) && (s.tile q.rank).fenced
    | none => false)

/-- Evaluates node k of a graph (R29, R304). A condition word is read after every write of the launches that have ended. -/
def evalNode (s : State) (g : Graph) (k : Nat) (n : Node) : State :=
  if n.kind = 0 then
    enqueueLaunch (s.modGraph g.num (fun g => { g with nodes := g.nodes.modify k (fun n => { n with st := 2 }) })) g.job g.pkg n.addr
      (some (g.num, k))
  else if n.kind = 4 then
    s.modGraph g.num (fun g =>
      let g := g.took k []
      { g with exitSeen := true, nodes := g.nodes.map (fun n => if n.st = 0 then { n with st := 3 } else n) })
  else if writesOut s g then s
  else
    match schedRead s g.pkg (s.jobPart g.job g.pkg) n.addr 8 with
    | .error (fc, s) => s.modGraph g.num (fun g => { g with status := 4, fcode := fc, node := k })
    | .ok (b, s) =>
      let w := leNat b
      if n.kind = 2 then
        s.modGraph g.num (fun g => if w ≠ 0 then g.again k n else g.took k ((n.succ.drop 1).take 1))
      else s.modGraph g.num (fun g => g.took k (n.choose w))

/-- GRAPH_NODE_EVAL (R304). -/
def execGraphNodeEval (pkg graph : Nat) (s : State) : Host.Outcome State Fault Refusal :=
  runEvent (Instr.graphNodeEval pkg graph).wf s (fun s =>
    match s.graphOf graph with
    | none => s
    | some g =>
      if g.fin || g.stopped || decide (g.pkg ≠ pkg) then s
      else
        match g.next with
        | none => s
        | some k =>
          match g.nodes[k]? with
          | none => s
          | some n => advance (graphGo (evalNode s g k n) graph))

/-! ## Which planes a task may take (R308) -/

/-- The gang launch that holds a plane while it waits (R307). -/
def State.heldBy (s : State) (r p : Nat) : Option Launch :=
  s.launches.find? (fun l => !l.fin && l.heldPlanes.contains (r, p))

/-- Whether a plane holds a task: loading, resident, in the monitor or draining. -/
def Plane.holds (pl : Plane) : Bool := decide (pl.state ≠ 0 ∧ pl.state ≠ 5)

/-- The bytes of tile store that a plane's allocation takes (R19). -/
def State.roomOf (s : State) (r p : Nat) : Nat :=
  let pl := s.plane r p
  if pl.holds then pl.regs.tslen else ((s.heldBy r p).map (·.tslen)).getD 0

/-- Whether a tile waits for the repair of its column (R341): no placement until then. -/
def columnWaits (s : State) (r : Nat) : Bool :=
  spareFree s r && (List.range (epOf r / 16 % 16 + 1)).any (fun y =>
    (s.tile (r - epOf r % 256 + 16 * y + epOf r % 16)).fenced)

/-- Whether a tile's planes are offered at all (R308, R341). -/
def offered (s : State) (r : Nat) : Bool := !(s.tile r).fenced && !columnWaits s r

/-- Whether a task of a job holds a rank: resident, or held for, or suspended there (R308). -/
def jobHolds (s : State) (r job : Nat) : Bool :=
  [0, 1].any (fun p =>
    ((s.plane r p).holds && decide ((s.plane r p).task.job = job)) || ((s.heldBy r p).map (·.job)) = some job)
    || s.suspended.any (fun u => decide (u.rank = r ∧ u.plane.task.job = job))

/-- Whether a plane holds a task of a gang launch. -/
def Plane.holdsGang (pl : Plane) : Bool := pl.holds && decide (pl.task.bgroups ≠ 0)

/-- Whether a gang launch may take a tile: its other plane holds no task of a gang and is held for none, and its cluster no
member of another in one of the launch's groups (R32, R308, R309). -/
def gangOk (s : State) (l : Launch) (r : Nat) : Bool :=
  let cluster := fun (x : Nat) => (pkgOf x, epOf x / 256, epOf x / 64 % 4, epOf x / 4 % 4)
  [0, 1].all (fun p => !(s.plane r p).holdsGang && (s.heldBy r p).all (·.test.isSome))
    && s.launches.all (fun k =>
        k.fin || decide (k.num = l.num) || decide (k.bgroups &&& l.bgroups = 0)
          || !((k.members.map (·.2) ++ k.heldPlanes.map (·.1)).any (fun x => decide (cluster x = cluster r))))

/-- Whether a task of a launch may take plane p of tile r. -/
def planeOk (s : State) (l : Launch) (part r p : Nat) : Bool :=
  decide (s.partOf r = some part) && offered s r && decide ((s.plane r p).state = 0) && (s.heldBy r p).isNone
    && decide (l.tslen + s.roomOf r (1 - p) ≤ 0x80000) && !jobHolds s r l.job && (!l.gang || gangOk s l r)

/-- The first plane of a tile that a task may take. -/
def planeFor (s : State) (l : Launch) (part r : Nat) : Option (Nat × Nat) :=
  ([0, 1].find? (planeOk s l part r)).map (fun p => (r, p))

/-- The planes that a task takes at a tile: one, or two of a pair for a DUAL task. -/
def slotsAt (s : State) (l : Launch) (part r : Nat) : Option (List (Nat × Nat)) :=
  if l.dual then
    if r % 2 ≠ 0 then none
    else
      match planeFor s l part r, planeFor s l part (r + 1) with
      | some a, some b => some [a, b]
      | _, _ => none
  else (planeFor s l part r).map (fun a => [a])

/-- The index of the task that a launch places next, or how many tasks a gang holds planes for. -/
def Launch.turn (l : Launch) : Nat := if l.gang then l.heldPlanes.length / (if l.dual then 2 else 1) else l.next

/-- The active gang launches of a package, but one, that have members in a barrier group (R309). -/
def gangsIn (s : State) (l : Launch) (g : Nat) : List Launch :=
  s.launches.filter (fun k => !k.fin && decide (k.num ≠ l.num ∧ k.pkg = l.pkg ∧ k.members ≠ []) && k.bgroups.testBit g)

/-- The cluster of a rank in its die. -/
def clusterOf (r : Nat) : Nat := epOf r % 256 / 64 * 4 + epOf r / 4 % 4

/-- The segment numbers of group g that the active gangs use on some dies. -/
def segsUsed (s : State) (l : Launch) (g : Nat) (dies : List Nat) : List Nat :=
  (gangsIn s l g).flatMap (fun k => k.members.filterMap (fun m =>
    if dies.contains (epOf m.2 / 256) then
      some (ngetD (s.pkg l.pkg).bgseg (4 * (epOf m.2 / 256) + g) 0 / 16 ^ clusterOf m.2 % 16)
    else none))

/-- The lowest segment number that no active gang uses on the dies in group g (R309). -/
def freeSegment (s : State) (l : Launch) (g : Nat) (dies : List Nat) : Option Nat :=
  (List.range 16).find? (fun k => !(segsUsed s l g dies).contains k)

/-- The planes of each task of a gang that holds enough: in fixed placement each task has its own tile. -/
def gangSlots (l : Launch) : List (Nat × List (Nat × Nat)) :=
  let w := if l.dual then 2 else 1
  (List.range l.ntask).map (fun n =>
    (n, if l.fixed then
          l.heldPlanes.filter (fun x => (l.fixedEp n).any (fun e => decide (x.1 = l.pkg * 4096 + e ∨ (l.dual = true ∧ x.1 = l.pkg * 4096 + e + 1))))
        else (l.heldPlanes.drop (w * n)).take w))

/-- The dies that a gang launch spans with the planes it holds. -/
def gangDies (l : Launch) : List Nat := (l.heldPlanes.map (fun x => epOf x.1 / 256)).dedup

/-- Whether a gang that holds planes may be placed: it has one for every task, all in service and with no gang's task beside
them (R32), and each of its groups has a free segment number (R307 to R309). -/
def gangReady (s : State) (l : Launch) : Bool :=
  decide (l.ntask ≤ l.turn) && l.heldPlanes.all (fun x => offered s x.1 && !(s.plane x.1 (1 - x.2)).holdsGang)
    && (List.range 4).all (fun g => !l.bgroups.testBit g || (freeSegment s l g (gangDies l)).isSome)

/-- The planes that a gang in fixed placement takes on a die: of any task for which it holds none. -/
def fixedSlots (s : State) (l : Launch) (part die : Nat) : Option (List (Nat × Nat)) :=
  (List.range l.ntask).findSome? (fun n =>
    match l.fixedEp n with
    | some e =>
      if e / 256 ≠ die ∨ l.heldPlanes.any (fun x => decide (x.1 = l.pkg * 4096 + e)) = true then none
      else slotsAt s l part (l.pkg * 4096 + e)
    | none => none)

/-- The planes of a die that the next task of a launch takes (R308); for a gang that can be placed, none more. A test takes a free
plane of its tile (R338). -/
def nextSlots (s : State) (l : Launch) (die : Nat) : Option (List (Nat × Nat)) :=
  let part := s.jobPart l.job l.pkg
  match l.test with
  | some e =>
    let r := l.pkg * 4096 + e
    ([0, 1].find? (fun p => offered s r && decide ((s.plane r p).state = 0) && (s.heldBy r p).isNone)).map (fun p => [(r, p)])
  | none =>
    if l.ntask ≤ l.turn then (if l.gang && gangReady s l then some [] else none)
    else if l.gang && l.fixed then fixedSlots s l part die
    else if l.fixed then
      match l.fixedEp l.turn with
      | some e => if e / 256 = die then slotsAt s l part (l.pkg * 4096 + e) else none
      | none => none
    else (List.range 256).findSome? (fun i => slotsAt s l part (l.pkg * 4096 + die * 256 + i))

/-! ## Placing -/

/-- The address of a queue register of a die (Tables 17.5, 19.12). -/
def qcfgAddr (die q : Nat) : Nat := 0x10000 + 0x1000 * die + 8 * q

/-- The rank at which a queue of a die competes (R311). -/
def Package.queueRank (p : Package) (die q : Nat) : Nat :=
  if q < 60 then p.reg (qcfgAddr die q) % 16 else p.reg (0x10000 + 0x1000 * die + 0x200) % 16

/-- The initial context of a task of a launch in plane p (R31, R33, R63, R301, Table 2.2). -/
def Launch.regs (l : Launch) (n p rank : Nat) : Regs :=
  let mode := l.f 50 1
  { (default : Regs) with
    frm := mode / 4 % 4, deadchk := mode.testBit 0, valloc := l.f 49 1, hbiv := l.f 60 4, utvec := 4 * l.f 64 2, myrank := rank,
    gridpos := n % l.lw + n / l.lw * 2 ^ 16,
    srseed := BitVec.ofNat 64 ((n % l.lw + n / l.lw * 2 ^ 16) % 2 ^ 32 + 1),
    geom := BitVec.ofNat 64 (l.f 40 2 + l.f 42 2 * 2 ^ 16 + l.f 44 2 * 2 ^ 32 + l.f 46 2 * 2 ^ 48),
    tsbase := if p = 0 then 0 else 0x80000 - l.tslen, tslen := l.tslen, tillsz := l.till, plen := l.plen }

/-- A plane that the loader has begun to fill with task n of a launch (R301). -/
def loadingPlane (s : State) (l : Launch) (n r p rank partner : Nat) : Plane :=
  let old := s.plane r p
  { (default : Plane) with
    regs := l.regs n p rank, state := 1, specCount := old.specCount, releasing := old.releasing,
    task := { job := l.job, launch := l.num, index := n, eager := l.f 58 2 * 64, bgroups := l.bgroups, specs := l.f 51 1 / 16,
              specmax := l.f 52 1, dual := l.dual, partner := partner, part := s.jobPart l.job l.pkg, spillva := l.spill n,
              lstatva := l.record n, trank := (s.pkg l.pkg).queueRank (epOf r / 256) l.qid } }

/-- The rank of a task that takes a list of planes: the even-x tile of a pair (R46). -/
def slotsRank (slots : List (Nat × Nat)) : Nat := ((slots.head?).map (·.1)).getD 0

/-- Begins the loading of one of a task's planes. -/
def loadOne (s : State) (l : Launch) (n : Nat) (slots : List (Nat × Nat)) (x : Nat × Nat) : State :=
  let partner := ((slots.find? (fun y => decide (y.1 ≠ x.1))).map (·.1)).getD 0
  emitOnce (s.modPlane x.1 x.2 (fun _ => loadingPlane s l n x.1 x.2 (slotsRank slots) partner)) (.loadComplete x.1 x.2)

/-- Tags a task's spill area with its rank (R320). -/
def tagSpill (s : State) (l : Launch) (n rank : Nat) : State :=
  let part := s.jobPart l.job l.pkg
  dropTr (setOwners s l.pkg part (l.spill n) rank) l.pkg part (l.spill n) (l.spill n + (2 ^ 20 - 1))

/-- Places task n of a launch on planes (R308, R320). After the last one the launch blocks its queue on no die any more (R307). -/
def placeTask (s : State) (num n : Nat) (slots : List (Nat × Nat)) : State :=
  match s.launchOf num with
  | none => s
  | some l =>
    let s := slots.foldl (fun s x => loadOne s l n slots x) (tagSpill s l n (slotsRank slots))
    let s := if l.ntask ≤ n + 1 then wakeDies s l.pkg (s.jobPart l.job l.pkg) else s
    s.modLaunch num (fun l =>
      { l with next := max l.next (n + 1), queued := decide (n + 1 < l.ntask),
               members := if l.gang then l.members ++ [(n, slotsRank slots)] else l.members })

/-- The mask of group g on a die: the members of the active gangs, and some ranks. -/
def groupMask (s : State) (l : Launch) (g die : Nat) (ranks : List Nat) : Nat :=
  (((gangsIn s l g).flatMap (fun k => k.members.map (·.2))) ++ ranks).foldl
    (fun m r => if epOf r / 256 = die then putBits m (r % 256) (r % 256) 1 else m) 0

/-- Writes BGMASKn and BGSEGn of the dies that a gang launch spans (R309). -/
def carve (s : State) (l : Launch) (ranks : List Nat) : State :=
  let dies := (ranks.map (fun r => epOf r / 256)).dedup
  ((List.range 4).filter (fun g => l.bgroups.testBit g)).foldl (fun s g =>
    let k := (freeSegment s l g dies).getD 0
    let mask := fun d => groupMask s l g d ranks
    s.modPkg l.pkg (fun p =>
      let p := { p with bgmask := dies.foldl (fun m d => nset m (4 * d + g) (mask d)) p.bgmask }
      { p with bgseg := ranks.foldl (fun m r =>
          let key := 4 * (epOf r / 256) + g
          let c := clusterOf r
          nset m key (putBits (ngetD m key 0) (4 * c + 3) (4 * c) k)) p.bgseg })) s

/-- Places a whole gang launch (R308, R309). -/
def placeGang (s : State) (num : Nat) : State :=
  match s.launchOf num with
  | none => s
  | some l =>
    let g := gangSlots l
    let s := carve s l (g.map (fun x => slotsRank x.2))
    let s := s.modLaunch num (fun l => { l with heldPlanes := [] })
    g.foldl (fun s x => placeTask s num x.1 x.2) s

/-- A queue's head launch takes planes: its next task is placed, a gang holds them until it can be placed whole, or a tile's test
begins in its plane, and how it comes out is free (R338). -/
def takeSlots (s : State) (l : Launch) (slots : List (Nat × Nat)) : State :=
  match l.test with
  | some e =>
    emitOnce (s.modLaunch l.num (fun l => { l with heldPlanes := slots, queued := false }))
      (.fieldTest l.pkg e (Config.testPasses s.tick e))
  | none =>
    if l.gang then
      let s := s.modLaunch l.num (fun l => { l with heldPlanes := l.heldPlanes ++ slots })
      match s.launchOf l.num with
      | some l => if gangReady s l then placeGang s l.num else s
      | none => s
    else placeTask s l.num l.next slots

/-! ## The decision (R307) -/

/-- Whether a launch stands in a queue of a die (R306); a test stands in its tile's die. -/
def inQueue (s : State) (pkg die q : Nat) (l : Launch) : Bool :=
  l.queued && !l.fin && decide (l.pkg = pkg ∧ l.qid = q)
    && (match l.test with
        | some e => decide (e / 256 = die)
        | none => ((s.pkg pkg).diesOf (s.jobPart l.job pkg)).contains die)

/-- The launch at the head of a queue of a die. -/
def headOf (s : State) (pkg die q : Nat) : Option Launch := s.launches.find? (inQueue s pkg die q)

/-- A queue that may be served, with its head launch and the planes that launch takes. -/
def served (s : State) (pkg die q : Nat) : Option (Launch × List (Nat × Nat)) :=
  if !((s.pkg pkg).reg (qcfgAddr die q)).testBit 31 then none
  else (headOf s pkg die q).bind (fun l => (nextSlots s l die).map (fun x => (l, x)))

/-- The queue among those of equal rank that comes first after the queue last served. -/
def afterLast (l : List Nat) (last : Nat) : Option Nat := (l.find? (fun q => decide (last < q))).orElse (fun _ => l.head?)

/-- The generator's next state (R307). -/
def lseedNext (x : Nat) : Nat := if x % 2 = 1 then (x / 2) ^^^ 0x80200003 else x / 2

/-- The queue whose ticket range holds a value. -/
def byTicket : List (Nat × Nat) → Nat → Option Nat
  | [], _ => none
  | (q, t) :: r, v => if v < t then some q else byTicket r (v - t)

/-- LAGE of a queue register. -/
def lageOf (v : Nat) : Nat := bitsHL v 15 8

/-- Draw() of R307 over the eligible system queues: the winner and the package after it. -/
def draw (p : Package) (die : Nat) (e : List Nat) : Option Nat × Package :=
  let sa := 0x10000 + 0x1000 * die + 0x208
  let x := lseedNext (p.reg sa)
  let p := p.setReg sa x
  let tk := e.map (fun q => (q, bitsHL (p.reg (qcfgAddr die q)) 23 16))
  let win := (e.find? (fun q => decide (lageOf (p.reg (qcfgAddr die q)) = 64))).orElse
    (fun _ => byTicket tk (x * (tk.map (·.2)).sum / 2 ^ 32))
  match win with
  | none => (none, p)
  | some w =>
    (some w, e.foldl (fun p q =>
      let v := p.reg (qcfgAddr die q)
      p.setReg (qcfgAddr die q) (putBits v 15 8 (if q = w then 0 else min (lageOf v + 1) 64))) p)

/-- The queue that wins a decision, with its head launch and planes, and the state in which the draw has been made. -/
def decideQueue (s : State) (pkg die : Nat) : Option (Launch × List (Nat × Nat)) × State :=
  let users := (List.range 60).filter (fun q => (served s pkg die q).isSome)
  let sys := (List.range 4).map (· + 60) |>.filter (fun q =>
    decide (bitsHL ((s.pkg pkg).reg (qcfgAddr die q)) 23 16 ≠ 0) && (served s pkg die q).isSome)
  let best := (users.map ((s.pkg pkg).queueRank die)).foldl max 0
  if sys ≠ [] ∧ (users = [] ∨ best ≤ (s.pkg pkg).queueRank die 60) then
    let d := draw (s.pkg pkg) die sys
    let s := s.modPkg pkg (fun _ => d.2)
    (d.1.bind (served s pkg die), s)
  else
    match afterLast (users.filter (fun q => decide ((s.pkg pkg).queueRank die q = best))) (ngetD (s.pkg pkg).lastq die 59) with
    | none => (none, s)
    | some q => (served s pkg die q, s.modPkg pkg (fun p => { p with lastq := nset p.lastq die q }))

/-! ## Resuming a suspended task (R299) -/

/-- Whether a plane other than a suspended task's lets that task resume: it holds no task of its job (R308), and no gang's when the
task is a gang's (R32), nor is it held for one. -/
def besideOk (pl : Plane) (held : Option Launch) (l : Launch) : Bool :=
  !(pl.holds && decide (pl.task.job = l.job)) && !(l.gang && pl.holdsGang)
    && held.all (fun k => k.test.isSome || (decide (k.job ≠ l.job) && !l.gang))

/-- The plane that a suspended task may take at its own tile. -/
def resumeFor (s : State) (u : Susp) (l : Launch) : Option (Susp × Nat) :=
  ([0, 1].find? (fun p =>
    offered s u.rank && decide ((s.plane u.rank p).state = 0) && (s.heldBy u.rank p).isNone
      && decide (l.tslen + s.roomOf u.rank (1 - p) ≤ 0x80000)
      && besideOk (s.plane u.rank (1 - p)) (s.heldBy u.rank (1 - p)) l)).map (fun p => (u, p))

/-- Begins the loading of a plane for a suspended task: its token is of the resume kind, its arrivals stay diverted, and its
spill queue goes with it. -/
def resumeOne (s : State) (l : Launch) (x : Susp × Nat) : State :=
  let u := x.1
  let r := u.rank
  let k := u.plane.task
  let pl := loadingPlane s l k.index r x.2 u.plane.regs.myrank k.partner
  let pl := { pl with resumeKind := true, resume := u.plane.resume, diverted := true, spillq := u.plane.spillq,
                      queueAt := u.plane.queueAt, queueHead := u.plane.queueHead, arrives := u.plane.arrives,
                      rollbacks := u.plane.rollbacks }
  let s := { s with suspended := s.suspended.map (fun v => if v = u then { v with plane := { v.plane with spillq := [] } } else v) }
  emitOnce (s.modPlane r x.2 (fun _ => pl)) (.loadComplete r x.2)

/-- The suspended tasks of a die that are not being resumed. -/
def outAt (s : State) (pkg die : Nat) : List Susp :=
  s.suspended.filter (fun u => decide (pkgOf u.rank = pkg ∧ epOf u.rank / 256 = die)
    && (planeOfTask (s.tile u.rank) u.plane.task.launch u.plane.task.index).isNone)

/-- Resumes the first suspended task of a die whose planes are free; the tiles of a DUAL pair together (R300). -/
def resumeSome (s : State) (pkg die : Nat) : Option State :=
  (outAt s pkg die).findSome? (fun u =>
    match s.launchOf u.plane.task.launch with
    | none => none
    | some l =>
      let us := (outAt s pkg die).filter (fun v => decide (v.plane.task.launch = l.num ∧ v.plane.task.index = u.plane.task.index))
      let xs := us.filterMap (fun v => resumeFor s v l)
      if xs.length = us.length then some (xs.foldl (fun s x => resumeOne s l x) s) else none)

/-- Whether a lower die of a launch's partition offers a plane to the same task at the same time: its decision is due too, and may
serve the launch (R308). -/
def lowerOffers (s : State) (l : Launch) (die : Nat) : Bool :=
  l.test.isNone && ((s.pkg l.pkg).diesOf (s.jobPart l.job l.pkg)).any (fun d =>
    decide (d < die) && s.agenda.any (fun e => decide (e.ev = .placementDecision l.pkg d))
      && (served s l.pkg d l.qid).any (fun x => decide (x.1.num = l.num))
      && (decide (l.qid < 60) || decide (bitsHL ((s.pkg l.pkg).reg (qcfgAddr d l.qid)) 23 16 ≠ 0)))

/-- One placement decision of a die (R307), or the resumption of a suspended task; while something may follow, the next is
due. It waits while a lower die's is due that may take the same task (R308). -/
def placeAt (s : State) (pkg die : Nat) : State :=
  let again := fun (s : State) => emitOnce s (.placementDecision pkg die)
  match (if Config.resumes s.tick then resumeSome s pkg die else none) with
  | some s => again s
  | none =>
    match decideQueue s pkg die with
    | (some (l, slots), t) => again (if lowerOffers s l die then s else takeSlots t l slots)
    | (none, s) => if outAt s pkg die = [] then s else again s

/-- PLACEMENT_DECISION (R307). -/
def execPlacementDecision (pkg die : Nat) (s : State) : Host.Outcome State Fault Refusal :=
  runEvent (pkgWf pkg && decide (die < 4)) s (fun s => placeAt s pkg die)

/-! ## The loader (R301) -/

/-- The images that the loader writes into a plane, or a fault: the program, and the data image unless the task resumes. -/
def readImages (s : State) (l : Launch) (resume : Bool) : Except (Nat × State) (List Byte × List Byte × State) :=
  let part := s.jobPart l.job l.pkg
  match schedRead s l.pkg part (l.f 0 8) l.plen with
  | .error f => .error f
  | .ok (b, s) =>
    if resume then .ok (b, [], s)
    else
      match schedRead s l.pkg part (l.f 16 8) l.datalen with
      | .error f => .error f
      | .ok (d, s) => .ok (b, d, s)

/-- Fills a plane, and sets its swap token last; a fault ends the launch LOADFAULT (R308). Nothing of an earlier task is left in the
allocation (R177): past the data image it reads as if nothing had written it (log entry 2). -/
def loadAt (s : State) (r p : Nat) : State :=
  let pl := s.plane r p
  match s.launchOf pl.task.launch with
  | none => s
  | some l =>
    match readImages s l pl.resumeKind with
    | .error (_, s) => cancelLaunch s l.num true
    | .ok (b, d, s) =>
      let lo := pl.regs.tsbase
      let m := memWrite (memWrite s.mem (codeAddr r p 0) b) (tsAddr r lo) d
      let s := { s with mem := memClear m (tsAddr r (lo + d.length)) (pl.regs.tslen - d.length) }
      let s := s.modTile r (fun t => { t with stale := t.stale.filter (fun e => decide (16 * e.gran < lo ∨ lo + pl.regs.tslen ≤ 16 * e.gran)) })
      let s := s.modPlane r p (fun pl => { pl with state := 2, token := true })
      if (s.tile r).running.isNone then decideTile s r none else s

/-- LOAD_COMPLETE (R301). -/
def execLoadComplete (rank plane : Nat) (s : State) : Host.Outcome State Fault Refusal :=
  runEvent (Instr.loadComplete rank plane).wf s (fun s =>
    if (s.plane rank plane).state = 1 then loadAt s rank plane else s)

/-- WINDOW_START (R310). -/
def execWindowStart (rank : Nat) (s : State) : Host.Outcome State Fault Refusal :=
  runEvent (Instr.windowStart rank).wf s (fun s => s.modTile rank Tile.newWindow)

end Sys2Proof.Machine
end

