-- ==== Sys2Proof/Machine/Sys.lean ====
section
/-! DEFINITION. The SYS words (spec/16_sys_state.md R296 to R299; spec/18_sys_translation.md R327): leaving the monitor,
PLANESW, the saving and loading of a context, FENCEALL, DIVERT and RESUME, TLBINV; and the steps of the monitor's registers
(R290, R313). -/

namespace Sys2Proof.Machine

/-- PRIV for a SYS word at the user level (R165). -/
def illegalPriv {α : Type} (i : Instr) : Chk α := trapW cPRIV (BitVec.ofNat 64 (i.word % 2 ^ 32))

/-- What every SYS word needs: the monitor level, and no open speculation (R165, R198, Table 2.6). -/
def needMonitor (s : State) (i : Instr) : Chk Unit := do
  let _ ← (if s.mon then .ok () else illegalPriv i)
  noSpec s

/-! ## TRET and PLANESW -/

/-- Whatever of a plane waits may go on (R298): its sends, its channels, its matrix queue, and arrivals that have not been
signalled. -/
def kickEngines (s : State) (r p : Nat) : State :=
  let s := mxKick ((List.range 4).foldl (fun s k => chKick s r p k) (pumpTile s r)) r p
  if (s.plane r p).held.isEmpty then s else emitOnce s (.arriveSignalRelease r p)

/-- DETAIL of the trap that MTCAUSE reports. -/
def Tile.mdetail (t : Tile) : Nat := bitsHL t.mtcause.toNat 47 40

/-- CAUSE of the trap that MTCAUSE reports. -/
def Tile.mcause (t : Tile) : Nat := t.mtcause.toNat % 256

/-- The END, CAUSE, INFO, PC and CODE of a task that TRET ends (Table 16.3). The Abort service records END 0x4 with the
task's x1 (R295), and a companion of a heartbeat miss END 0x3 (R35). -/
def tretEnding (t : Tile) : Ending :=
  let b := (t.pl t.mtpcPlane).regs.bank
  let abort := decide (t.mcause = cMONCALL ∧ t.mtinfo = 3)
  { code := if abort then 4 else if t.mcause = cHBMISS ∧ t.mdetail = 1 then 3 else 1, cause := t.mcause, info := t.mtinfo, pc := t.mtpc,
    ecode := if abort then (if b.dead.getLsbD 1 then 0 else ((b.x[1]?).getD 0).toNat % 2 ^ 32) else t.mendCode }

/-- A plane in the monitor is resident again, and its halt is over (R298, R310). -/
def Plane.outOfMonitor (pl : Plane) : Plane := if pl.state = 4 then { pl with state := 3, halted := false } else pl

/-- The level of a tile becomes user: no plane of it is in the monitor, wherever the monitor has put MTPC.PLANE (R310). -/
def leaveMonitor (s : State) (r : Nat) : State :=
  s.modTile r (fun t => { t with monitor := false, plane0 := t.plane0.outOfMonitor, plane1 := t.plane1.outOfMonitor })

/-- Writes an x register of plane p of a tile, which makes it live. -/
def putTaskX (s : State) (r p n : Nat) (v : Word) : State :=
  s.modPlane r p (fun pl => { pl with regs := { pl.regs with bank := pl.regs.bank.setX n v } })

/-- Whether x1 of a task is a valid address of 32 bytes for the Log service (Table 16.4). -/
def logAddress (g : Regs) : Option Nat :=
  let a := if g.bank.dead.getLsbD 1 then 0 else ((g.bank.x[1]?).getD 0).toNat
  if a % 32 = 0 ∧ a + 32 ≤ g.tslen - g.tillsz then some a else none

/-- The Log service of MONCALL 2 (R295, Tables 16.4, 19.9): the 32 bytes stand in the black box, as a USERLOG record and the two CONT
records that follow it. -/
def userLog (s : State) (p a : Nat) : State :=
  let g := (s.curTile.pl p).regs
  let b := tsBytes s s.cur p pathP (g.tsbase + a) 32
  bbPut s (pkgOf s.cur) [(0x0030, g.myrank, 2), (0x0031, 1, leNat (b.take 16)), (0x0031, 2, leNat (b.drop 16))]

/-- What a task finds when the monitor returns from a MONCALL: the results that Table 16.4 gives the services, which stand in x1 and
x2 whatever the monitor's code did (R295, log entry 23). -/
def serviceResults (s : State) (p call : Nat) : State :=
  if call = 0 then putTaskX s s.cur p 2 0
  else if call = 1 then putTaskX (putTaskX s s.cur p 1 (BitVec.ofNat 64 s.podTime)) s.cur p 2 0
  else if call = 2 then
    match logAddress (s.curTile.pl p).regs with
    | some a => putTaskX (userLog s p a) s.cur p 2 0
    | none => putTaskX s s.cur p 2 2
  else putTaskX (putTaskX s s.cur p 1 0) s.cur p 2 1

/-- Plane p of the current tile runs at the user level again, or enters the monitor for its resumption when it holds a token of the
resume kind that PLANESW took (R299). -/
def returnTo (s : State) (p : Nat) : State :=
  let s := (leaveMonitor s s.cur).modTile s.cur (fun t => { t.setPl p { t.pl p with ran := true } with running := some p })
  let pl := s.plane s.cur p
  if pl.resumeKind then
    monitorEntry (s.modPlane s.cur p (fun pl => { pl with resumeKind := false })) s.cur p
      { cause := cPREEMPT, detail := 1, slot := 3, info := BitVec.ofNat 64 (pkgOf s.cur * 4096 + 0x511) } pl.resume
      (npcAt s s.cur p pl.resume)
  else s

/-- The call of the MONCALL for which the monitor runs, when MTPC.PLANE is the plane that made it (R295). -/
def Tile.moncall (t : Tile) : Option Nat :=
  if t.mcause = cMONCALL ∧ t.mtcause.toNat / 2 ^ 32 % 2 = t.mtpcPlane then some (t.mtinfo.toNat % 2 ^ 32) else none

/-- Whether TRET ends the task (R296): by ACT, but for a MONCALL, of which Abort alone ends it (R295, log entry 23), and always at a
fenced tile (R314). -/
def Tile.tretEnds (t : Tile) : Bool :=
  t.fenced || (match t.moncall with
    | some c => decide (c = 3)
    | none => decide (t.mendAct = 1))

/-- TRET with ACT 0 (R122, R295, R296): fetch resumes at MTPC; the channel of a copy whose fault the trap reported goes on. The
end of a pre-emption is a decision of the arbiter, with the interrupted plane ready (R298). -/
def tretResume (s : State) : State :=
  let t := s.curTile
  let p := t.mtpcPlane
  let own := decide (t.mtcause.toNat / 2 ^ 32 % 2 = p)
  let s := match t.moncall with
    | some c => serviceResults s p c
    | none => s
  let s := s.modPlane s.cur p (fun pl =>
    { pl with state := 3, halted := false, regs := { pl.regs with pc := t.mtpc },
              hold := if t.mcause = cENGFAULT then pl.hold.map (fun h => if h = some t.mdetail then none else h) else pl.hold })
  let s := if own && decide (t.mcause = cPREEMPT ∧ t.mdetail = 0) then decideTile (leaveMonitor s s.cur) s.cur t.running
    else returnTo s p
  kickEngines (kickEngines s s.cur 0) s.cur 1

/-- The companion of a task that missed its heartbeat is the monitor's next case when that task has ended (R35, R293; DEDUCED, log
entry 90). -/
def companionEntry (s : State) (r p : Nat) (info : Word) : State :=
  let pl := s.plane r p
  if pl.state = 3 then
    monitorEntry s r p { cause := cHBMISS, detail := 1, info := info } pl.resumePoint (npcAt s r p pl.resumePoint)
  else s

/-- TRET with ACT 1 (R296). After a pre-emption of the plane that did not run, the arbiter makes a decision (R298). -/
def tretEnd (s : State) : State :=
  let t := s.curTile
  let p := t.mtpcPlane
  let s := endPlane (leaveMonitor s s.cur) s.cur p (tretEnding t)
  if t.mcause = cHBMISS ∧ t.mdetail = 0 ∧ t.fenced = true then companionEntry s s.cur (1 - p) t.mtinfo
  else if t.mcause = cPREEMPT ∧ t.running = some (1 - p) then decideTile s s.cur (some (1 - p))
  else s

/-- Whether a request waits for a DUAL partner's, so that nothing of it has left the tile. -/
def ReqSt.unpaired (q : ReqSt) : Bool := !q.ready && decide (q.owner = .flag)

/-- Whether a plane's engines hold nothing that has started: what a DUAL pair has still to compare has not (R300). -/
def engIdle (t : Tile) (p : Nat) : Bool :=
  let pl := t.pl p
  (List.range 4).all (fun k => (pl.ch k).all (fun c => !c.begun)) && pl.mx.all (fun e => !e.started) && decide (pl.deliveries = [])
    && t.reqs.all (fun q => decide (q.req.plane ≠ p) || q.unpaired)
    && pl.sends.all (fun sd => sd.copies.all (fun c => !c.left || c.settled || c.fin.isSome)
        && (!sd.eager || sd.held || !sd.paired || decide (sd.kind = 4 ∨ sd.kind = 6)))

/-- What a tile keeps of a plane whose task is suspended: nothing that waited for a DUAL partner's. -/
def Tile.without (t : Tile) (p : Nat) : Tile :=
  { t with reqs := t.reqs.filter (fun q => decide (q.req.plane ≠ p)), dualq := t.dualq.filter (fun e => decide (e.1 ≠ p)),
           running := if t.running = some p then none else t.running }

/-- The record of the task of plane p as it is suspended (R298, R300). -/
def suspension (t : Tile) (r p : Nat) : Susp :=
  { rank := r, plane := { t.pl p with resume := t.mtpc, state := 5, token := false },
    dualq := (t.dualq.filter (fun e => decide (e.1 = p))).map (·.2.2),
    reqs := t.reqs.filter (fun q => decide (q.req.plane = p)) }

/-- TRET with ACT 2 (R298): the plane and its allocation are free, and the task is suspended. One that no CTXLOAD has restored stays
suspended as it was, and one whose cancel is pending ends (R313). -/
def tretSuspend (s : State) : State :=
  let t := s.curTile
  let p := t.mtpcPlane
  if (t.pl p).cancel then endPlane (leaveMonitor s s.cur) s.cur p { code := 2, pc := t.mtpc }
  else
    match suspOf s s.cur (t.pl p).task with
    | some u => decideTile ((unload (leaveMonitor s s.cur) s.cur p u).modTile s.cur (fun t => t.without p)) s.cur none
    | none =>
      let s' := (leaveMonitor { s with suspended := s.suspended ++ [suspension t s.cur p] } s.cur).modTile s.cur (fun t => t.without p)
      decideTile (freePlane s' s.cur p) s.cur none

/-- TRET (R296). A task of a fenced tile ends whatever ACT says (R314). A suspension waits for what its engines have
started. The marks of the bundle are applied first (R163). -/
def execTret (f : G0) (s : State) : Host.Outcome State Fault Refusal :=
  runWord 0 f.g s (fun s => do
    let _ ← needMonitor s (.tret f)
    let t := s.curTile
    let _ ← orStall (decide (t.mendAct ≠ 2) || t.tretEnds || engIdle t t.mtpcPlane)
    let s := applyKills s
    let s' := if t.tretEnds then tretEnd s else if t.mendAct = 2 then tretSuspend s else tretResume s
    .ok { s' with bundle := { s'.bundle with moved := true } })

/-- Whether PLANESW finds the other plane resident or with a swap token (R296). -/
def Plane.swappable (pl : Plane) : Bool := decide (pl.state = 3) || (pl.token && decide (pl.state = 2))

/-- The exchange of PLANESW: this plane is left resident at MTPC, and the monitor stands for the other, which a token of the resume
kind still resumes under R299 when it first runs. -/
def swapPlanes (s : State) : State :=
  let t := s.curTile
  let p := t.mtpcPlane
  let o := 1 - p
  let q := t.pl o
  let t := t.setPl p { t.pl p with state := 3, regs := { (t.pl p).regs with pc := t.mtpc } }
  let t := t.setPl o { q with state := 4, token := false, exiting := none, readyAll := false }
  s.setTile s.cur { t with mtpc := q.resumePoint % 2 ^ 16, mtpcPlane := o }

/-- PLANESW (R296). -/
def execPlanesw (f : G0) (s : State) : Host.Outcome State Fault Refusal :=
  runWord 0 f.g s (fun s => do
    let _ ← needMonitor s (.planesw f)
    .ok (if (s.curTile.pl (1 - s.curTile.mtpcPlane)).swappable then swapPlanes s else s))

/-- FENCEALL (R296). -/
def execFenceall (f : G0) (s : State) : Host.Outcome State Fault Refusal :=
  runWord 0 f.g s (fun s => do
    let _ ← needMonitor s (.fenceall f)
    let _ ← orStall (engIdle s.curTile s.ctxP)
    .ok s)

/-! ## The context record (Table 16.7) -/

/-- SYSST after a SYS operation: 0 OK, 1 with a fault code, 2 BADCTX. -/
def setSysst (s : State) (st fc : Nat) : State :=
  s.modTile s.cur (fun t => { t with sysStatus := st, sysFcode := if st = 1 then fc else t.sysFcode })

/-- The state as the user level of a plane would read its CSRs. -/
def userView (s : State) (p : Nat) : State := s.modTile s.cur (fun t => { t with monitor := false, running := some p })

/-- The word of a matrix instruction. -/
def MxOp.instr : MxOp → Instr
  | .mma f => .mma f
  | .mzero f => .mzero f
  | .mldacc f => .mldacc f
  | .mstacc f => .mstacc f
  | .msend f _ => .msend f

/-- The flag that a matrix instruction binds; that of an MSEND is its send's. -/
def MxOp.binds : MxOp → Option Nat
  | .msend f _ => some f.fn
  | op => op.flag

/-- The flags that are bound to saved unstarted entries. -/
def savedFlags (l : List Unstarted) : List Nat :=
  l.flatMap (fun u =>
    match u with
    | .copy _ c => c.flag :: (c.follow.map (fun f => f.1.fn)).toList
    | .matrix e => e.op.binds.toList)

/-- A number with the bits of a list of indices set. -/
def bitsOf (l : List Nat) : Nat := l.dedup.foldl (fun a n => a + 2 ^ n) 0

/-- A row of Table 16.7: its offset and its bytes, and whether it is written. -/
abbrev CtxRow : Type := Nat × List Byte × Bool

/-- The elements of an accumulator, row by row. -/
def accBytes (a : Acc) : List Byte := (List.range 1024).flatMap (fun k => leBytes 4 (ngetD a.el k 0).toNat)

/-- The lattice store of a descriptor. -/
def latBytes (d : TDesc) : List Byte := (List.range 256).flatMap (fun k => leBytes 4 ((d.lat[k]?).getD 0).toNat)

/-- The rows of the context record of a plane: v is the state in which its CSRs read as at the user level. -/
def ctxRows (v : State) (g : Regs) (pc : Nat) (saved : List Unstarted) : List CtxRow :=
  let b := g.bank
  let live := fun n => decide (n = 0) || !b.dead.getLsbD n
  [ (0x0000, leBytes 8 (bitsOf ((List.range 64).filter (fun n => (g.fl n).on))), true),
    (0x0008, leBytes 8 (bitsOf (savedFlags saved)), true),
    (0x0010, leBytes 4 (bitsOf ((List.range 32).filter live)), true),
    (0x0018, leBytes 8 (bitsOf ((List.range g.valloc).filter (fun n => !g.vdead.getLsbD n))), true),
    (0x0020, leBytes 2 (pc / 4), true),
    (0x0022, leBytes 1 g.valloc, true),
    (0x0023, leBytes 1 b.ret.length, true),
    (0x0024, leBytes 2 g.rsdepth, true),
    (0x0027, leBytes 1 (bitsOf ((List.range 4).filter (fun n => ((g.acc[n]?).getD {}).int32))), true) ]
  ++ (List.range 32).map (fun n => (0x0040 + 8 * n, leBytes 8 ((b.x[n]?).getD 0).toNat, live n))
  ++ [ (0x0140, leBytes 1 (1 + 4 * boolsNat ((b.p.toList).drop 2)), true),
       (0x0144, b.ix.toList, true),
       (0x0160, b.ret.reverse.flatMap (leBytes 2) ++ leBytes (32 - 2 * b.ret.length) 0, true) ]
  ++ (List.range 6).map (fun n => (0x0180 + 16 * n, leBytes 16 ((g.q[n + 2]?).getD 0).toNat, true))
  ++ (List.range 0x1B).map (fun k => (0x0200 + 8 * k, leBytes 8 (csrRead v k).toNat, true))
  ++ (List.range 4).map (fun n => (0x02E0 + 4 * n, leBytes 4 ((g.wmark[n]?).getD 0), true))
  ++ (List.range 4).map (fun n => (0x02F0 + 4 * n, leBytes 4 ((g.route[n]?).getD 0), true))
  ++ (List.range 64).map (fun n => (0x0300 + 16 * n, leBytes 16 (g.fl n).status.toNat, true))
  ++ (List.range 16).map (fun n => (0x0700 + 32 * n, leBytes 32 ((g.t[n]?).getD {}).raw.toNat, true))
  ++ (List.range 4).map (fun n => (0x0900 + 4096 * n, accBytes ((g.acc[n]?).getD {}), true))
  ++ (List.range 16).map (fun n => (0x4900 + 1024 * n, latBytes ((g.t[n]?).getD {}), ((g.t[n]?).getD {}).cb2))
  ++ (List.range g.valloc).map (fun n => (0x8900 + 128 * n, leBytes 128 ((g.v[n]?).getD 0).toNat, !g.vdead.getLsbD n))

/-- The gaps that the rows leave from an offset on, up to 64 KiB: their bytes are zero. -/
def ctxGaps : Nat → List CtxRow → List CtxRow
  | at_, [] => [(at_, leBytes (65536 - at_) 0, true)]
  | at_, x :: r =>
    (if at_ < x.1 then [(at_, leBytes (x.1 - at_) 0, true)] else []) ++ ctxGaps (x.1 + x.2.1.length) r

/-- Writes rows at an address of the task's virtual memory; it stops at the first fault. -/
def writeRows (s : State) (r : Nat) (pl : Plane) (base : Nat) : List CtxRow → State × Option Nat
  | [] => (s, none)
  | x :: l =>
    if x.2.2 then
      match spillWrite s r pl (base + x.1) x.2.1 with
      | (s, none) => writeRows s r pl base l
      | y => y
    else writeRows s r pl base l

/-- An entry of the engine record (R297): 128 bytes with the kind, the channel, the flag, the word, the x values that it reads, and
the block. -/
def engineEntry (kind ch fn word : Nat) (xs : List Word) (blk : Nat) : List Byte :=
  leBytes 4 kind ++ leBytes 1 ch ++ leBytes 1 fn ++ leBytes 2 0 ++ leBytes 8 word
    ++ (List.range 6).flatMap (fun i => leBytes 8 ((xs[i]?).getD 0).toNat) ++ leBytes 64 blk

/-- The entries of an unstarted command: that of a COPYM is followed by one for its follow-on (R251). -/
def engineEntries : Unstarted → List (List Byte)
  | .copy k c =>
    engineEntry (if c.kind = 2 then 2 else 1) k c.flag c.word c.xs c.blk.toNat
      :: (c.follow.map (fun f => engineEntry 4 k f.1.fn ((Instr.mma f.1).word % 2 ^ 32) [f.2] 0)).toList
  | .matrix e => [engineEntry (if e.follow then 4 else 3) 0 (e.op.binds.getD 0) (e.op.instr.word % 2 ^ 32) [e.xv] 0]

/-- The unstarted entries of a plane, in engine order: those saved before, the matrix queue, the channels. -/
def unstartedOf (pl : Plane) : List Unstarted :=
  pl.saved ++ ((pl.mx.filter (fun e => !e.started)).map Unstarted.matrix)
    ++ (List.range 4).flatMap (fun k => ((pl.ch k).filter (fun c => !c.begun && !c.mon)).map (Unstarted.copy k))

/-- A plane without its unstarted entries, which are saved at a tick, with the flags that are bound then. -/
def saveUnstarted (tick : Nat) (pl : Plane) : Plane :=
  { pl with recTick := tick, out := (List.range 64).filter (fun n => (pl.regs.fl n).bound.isSome), saved := unstartedOf pl,
            mx := pl.mx.filter (·.started), chan := pl.chan.map (fun l => l.filter (fun c => c.begun || c.mon)) }

/-- The 32 bytes that CTXSAVE writes for entry i of a matching record: R297 places no field (log entry 25). -/
def matchingEntry (tick i : Nat) : List Byte := (List.range 32).map (fun j => Config.recordByte tick (32 * i + j))

/-- The rows of the engine and matching records; R297 does not place the fields of a matching entry, so its bytes are free. -/
def recordRows (tick : Nat) (pl : Plane) : List CtxRow :=
  let l := (unstartedOf pl).flatMap engineEntries
  let n := pl.prq.length + pl.uq.length
  (0x12000, leBytes 64 l.length, true) :: (List.range l.length).map (fun i => (0x12040 + 128 * i, (l[i]?).getD [], true))
    ++ [(0x14000, (List.range n).flatMap (matchingEntry tick), decide (n ≠ 0))]

/-- A SYS word's address: nothing when its low bits break the alignment that Table 16.5 gives. -/
def needCtxVa (x : Word) (i : Instr) : Chk Unit := if x.toNat / 2 % 2 ^ 19 = 0 then .ok () else illegal i

/-- The bytes of a plane's allocation. -/
def imageBytes (s : State) (r : Nat) (g : Regs) : List Byte := memRead s.mem (tsAddr r g.tsbase) g.tslen

/-- What CTXSAVE writes, row by row: the context record with zeros where Table 16.7 names nothing, the engine and matching
records, and the image. -/
def saveRows (s : State) (p : Nat) (img : Bool) : List CtxRow :=
  let pl := s.plane s.cur p
  let rows := ctxRows (userView s p) pl.regs s.curTile.mtpc (unstartedOf pl)
  ((rows ++ ctxGaps 0 rows).map (fun x => (0x2000 + x.1, x.2))) ++ recordRows s.tick pl
    ++ [(0x40000, imageBytes s s.cur pl.regs, img)]

/-- CTXSAVE (R296, R297). -/
def execCtxsave (f : RA) (s : State) : Host.Outcome State Fault Refusal :=
  runWord 0 f.g s (fun s => do
    let _ ← needMonitor s (.ctxsave f)
    let x ← readX s f.ra
    let _ ← needCtxVa x (.ctxsave f)
    let p := s.ctxP
    let _ ← orStall (engIdle s.curTile p)
    let base := x.toNat / 2 ^ 20 * 2 ^ 20
    let s := killX s f.la f.ra
    .ok (match writeRows s s.cur (s.plane s.cur p) base (saveRows s p (x.getLsbD 0)) with
      | (s, some fc) => setSysst s 1 fc
      | (s, none) => setSysst (s.modPlane s.cur p (saveUnstarted s.tick)) 0 0))

/-- A number of n bytes at an offset of a record. -/
def recNat (b : List Byte) (off n : Nat) : Nat := leNat ((b.drop off).take n)

/-- An accumulator from its record. -/
def accOfBytes (b : List Byte) (n : Nat) (lost : Option Nat) : Acc :=
  let el := (List.range 1024).filterMap (fun k =>
    let v := recNat b (0x0900 + 4096 * n + 4 * k) 4
    if v = 0 then none else some (k, BitVec.ofNat 32 v))
  { int32 := (recNat b 0x0027 1).testBit n, el := el, lost := lost }

/-- A bank from its record (Table 16.7). -/
def bankOfBytes (b : List Byte) : Bank :=
  let live := recNat b 0x0010 4
  { x := Vector.ofFn (fun (n : Fin 32) => if n.1 ≠ 0 ∧ live.testBit n.1 = true then BitVec.ofNat 64 (recNat b (0x0040 + 8 * n.1) 8) else 0)
    dead := ~~~(BitVec.ofNat 32 live) &&& ~~~(1#32)
    p := Vector.ofFn (fun (n : Fin 8) => decide (2 ≤ n.1) && (recNat b 0x0140 1).testBit n.1)
    ix := Vector.ofFn (fun (n : Fin 4) => BitVec.ofNat 8 (recNat b (0x0144 + n.1) 1))
    ret := ((List.range (min 16 (recNat b 0x0023 1))).map (fun k => recNat b (0x0160 + 2 * k) 2 % 2 ^ 15)).reverse }

/-- A status record without its reserved bits (R6, Table 4.5). -/
def recMask (v : Quad) : Quad := v &&& ~~~(7#128 <<< 25)

/-- The flag n as the context record gives it. One that is bound stays bound, and one of out, the flags that were bound when the
record was written, whose operation has completed since, keeps what it completed with (R297). -/
def loadFlag (old : Regs) (out : List Nat) (b : List Byte) (n : Nat) : Flag :=
  let f := old.fl n
  if out.contains n ∧ f.bound = none then f
  else { f with on := (recNat b 0 8).testBit n, status := recMask (BitVec.ofNat 128 (recNat b (0x0300 + 16 * n) 16)) }

/-- The registers of a plane with what the context record restores (R297): the launch's RO CSRs stay, and so do the flags that an
operation binds. -/
def loadRegs (now old : Regs) (out : List Nat) (b : List Byte) : Regs :=
  let csr := fun k => recNat b (0x0200 + 8 * k) 8
  let vlive := recNat b 0x0018 8
  { now with
    bank := bankOfBytes b
    v := Vector.ofFn (fun (n : Fin 64) =>
      if n.1 < now.valloc ∧ vlive.testBit n.1 = true then BitVec.ofNat 1024 (recNat b (0x8900 + 128 * n.1) 128) else 0)
    vdead := ~~~(BitVec.ofNat 64 vlive)
    q := Vector.ofFn (fun (n : Fin 8) => if n.1 < 2 then 0 else BitVec.ofNat 128 (recNat b (0x0180 + 16 * (n.1 - 2)) 16))
    acc := Vector.ofFn (fun (n : Fin 4) => accOfBytes b n.1 ((old.acc[n.1]?).getD {}).lost)
    t := Vector.ofFn (fun (n : Fin 16) =>
      let d : TDesc := { raw := BitVec.ofNat 256 (recNat b (0x0700 + 32 * n.1) 32) }
      if d.cb2 then { d with lat := (List.range 256).map (fun k => BitVec.ofNat 32 (recNat b (0x4900 + 1024 * n.1 + 4 * k) 4)) } else d)
    flag := Vector.ofFn (fun (n : Fin 64) => loadFlag old out b n.1)
    wmark := Vector.ofFn (fun (n : Fin 4) => recNat b (0x02E0 + 4 * n.1) 4)
    route := Vector.ofFn (fun (n : Fin 4) => recNat b (0x02F0 + 4 * n.1) 4)
    rsdepth := recNat b 0x0024 2 % 2 ^ 13
    pc := recNat b 0x0020 2 * 4
    frm := csr 0 % 4
    fflags := BitVec.ofNat 6 (csr 1)
    srseed := BitVec.ofNat 64 (csr 2)
    retrylim := bitsHL (csr 3) 11 8
    boff := csr 3 % 16
    specst := BitVec.ofNat 64 (csr 4)
    ph := old.ph
    deadchk := (csr 6).testBit 8
    utvec := bitsHL (csr 8) 15 2 * 4
    utpc := bitsHL (csr 9) 15 2 * 4
    utcause := BitVec.ofNat 64 (csr 0xA) &&& 0xFFFF0000000103FF#64
    utinfo := BitVec.ofNat 64 (csr 0xB)
    cycle := csr 0x18
    hbcnt := csr 0x19 % 2 ^ 29 }

/-- A copy command as its entry gives it (R226 to R228, R297); the operation is the one that its flag is bound to. -/
def copyOfEntry (g : Regs) (e : List Byte) (kind : Nat) (fk : Option Nat) : CopyCmd :=
  { id := ((g.fl (recNat e 5 1)).bound).getD 0, kind := kind, flag := recNat e 5 1, blk := BitVec.ofNat 512 (recNat e 64 64),
    fk := fk, word := recNat e 8 4, xs := (List.range 3).map (fun i => BitVec.ofNat 64 (recNat e (16 + 8 * i) 8)) }

/-- The matrix instruction of an entry (R297). -/
def matrixOfEntry (g : Regs) (e : List Byte) (op : MxOp) : Unstarted :=
  .matrix { id := ((op.binds.bind (fun n => (g.fl n).bound)).getD 0), op := op, xv := BitVec.ofNat 64 (recNat e 16 8),
            follow := decide (recNat e 0 4 = 4) }

/-- The command of an entry of the engine record, read from its word. A word that no engine accepts is none. -/
def unstartedOfEntry (g : Regs) (e : List Byte) : Option Unstarted :=
  let k := recNat e 4 1
  match decodeWord (recNat e 8 4) none with
  | .ok (.copy _) => some (.copy k (copyOfEntry g e 1 none))
  | .ok (.copyq f) => some (.copy k (copyOfEntry g e 2 (some f.rd)))
  | .ok (.copym _) => some (.copy k (copyOfEntry g e 3 none))
  | .ok (.copyx _) => some (.copy k (copyOfEntry g e 4 none))
  | .ok (.mma f) => some (matrixOfEntry g e (.mma f))
  | .ok (.mzero f) => some (matrixOfEntry g e (.mzero f))
  | .ok (.mldacc f) => some (matrixOfEntry g e (.mldacc f))
  | .ok (.mstacc f) => some (matrixOfEntry g e (.mstacc f))
  | .ok (.msend f) => some (matrixOfEntry g e (.msend f ((g.fl f.fn).bound.getD 0)))
  | _ => none

/-- The commands of the entries of an engine record: a follow-on directly behind a COPYM is that copy's. -/
def unstartedOfEntries (g : Regs) (l : List (List Byte)) : List Unstarted :=
  l.foldr (fun e r =>
    match unstartedOfEntry g e, r with
    | some (.copy k c), .matrix m :: r' =>
      (match m.op with
       | .mma f => if c.kind = 3 ∧ m.follow = true then .copy k { c with follow := some (f, m.xv) } :: r' else .copy k c :: r
       | _ => .copy k c :: r)
    | some u, r => u :: r
    | none, r => r) []

/-- What an engine record restores: the entries that CTXSAVE took out, when the record holds them as it wrote them, and otherwise
what its bytes say. -/
def loadedEntries (g : Regs) (saved : List Unstarted) (l : List (List Byte)) : List Unstarted :=
  if l = saved.flatMap engineEntries then saved else unstartedOfEntries g l

/-- Puts saved entries back at the head of a plane's engines, in their order (R296). -/
def requeue (pl : Plane) (l : List Unstarted) : Plane :=
  let mx := l.filterMap (fun u => match u with
    | .matrix e => some e
    | .copy _ _ => none)
  { pl with
    mx := pl.mx.filter (·.started) ++ mx ++ pl.mx.filter (fun e => !e.started)
    chan := pl.chan.mapIdx (fun k c =>
      c.filter (·.begun) ++ (l.filterMap (fun u => match u with
        | .copy j e => if j = k then some e else none
        | .matrix _ => none)) ++ c.filter (fun e => !e.begun))
    saved := [] }

/-- A physical address of an allocation that began at one base, in an allocation that begins at another. -/
def rebase (old new a : Nat) : Nat := a + new - old

/-- The engine and matching records of a task in an allocation that begins elsewhere (R299). -/
def Plane.rebased (pl : Plane) (old new : Nat) : Plane :=
  { pl with prq := pl.prq.map (fun q => { q with addr := rebase old new q.addr }),
            sends := pl.sends.map (fun sd => { sd with addr := rebase old new sd.addr }) }

/-- A request that waits for a DUAL partner's, in plane p of an allocation that begins elsewhere; a QUERY's block has a task
address. -/
def ReqSt.rebased (q : ReqSt) (p old new : Nat) : ReqSt :=
  { q with addr := rebase old new q.addr,
           req := { q.req with plane := p, dst := if q.req.op = .query then q.req.dst else rebase old new q.req.dst } }

/-- A suspended task's operations that a DUAL pair has still to compare are the plane's again, timed from now (R300). -/
def rejoinDual (s : State) (r p : Nat) (u : Susp) (new : Nat) : State :=
  let s := s.modTile r (fun t =>
    { t with reqs := t.reqs ++ u.reqs.map (fun q => q.rebased p u.plane.regs.tsbase new),
             dualq := t.dualq ++ u.dualq.map (fun op => (p, s.podTime, op)) })
  if u.dualq.isEmpty then s else emitOnce s (.dualTimeout r p)

/-- A posted receive as its entry of the matching record gives it: as it was where the bytes are those that CTXSAVE wrote, and
otherwise with the fields of Table 4.1 that the bytes say (log entry 25). -/
def Recv.ofEntry (q : Recv) (wrote b : List Byte) : Recv :=
  if b = wrote then q
  else { q with src := Config.recordField b 0 % 2 ^ 24, group := Config.recordField b 2 % 2 ^ 8, tag := Config.recordField b 3 % 2 ^ 16 }

/-- An unexpected message as its entry of the matching record gives it, likewise. -/
def Uq.ofEntry (u : Uq) (wrote b : List Byte) : Uq :=
  if b = wrote then u
  else
    { u with line := Config.recordField b 9 % 2048,
             hdr := { u.hdr with src := Config.recordField b 0 % 2 ^ 24, group := Config.recordField b 2 % 2 ^ 8,
                                 tag := Config.recordField b 3 % 2 ^ 16, len := Config.recordField b 4 % 2 ^ 25,
                                 seq := Config.recordField b 5 % 2 ^ 32 } }

/-- The posted receives and the unexpected messages of a plane as the entries of a matching record give them: CTXSAVE wrote them at a
tick. -/
def Plane.withMatching (pl : Plane) (tick : Nat) (l : List (List Byte)) : Plane :=
  let entry := fun (i : Nat) => (l[i]?).getD (matchingEntry tick i)
  { pl with prq := pl.prq.mapIdx (fun i q => q.ofEntry (matchingEntry tick i) (entry i)),
            uq := pl.uq.mapIdx (fun i u => u.ofEntry (matchingEntry tick (pl.prq.length + i)) (entry (pl.prq.length + i))) }

/-- The bytes that CTXLOAD has read: the entries of the engine and matching records, and the image, when IMG = 1. -/
abbrev Loaded : Type := List (List Byte) × List (List Byte) × Option (List Byte)

/-- The plane of a task as its records leave it: those of a suspended one come first. -/
def loadedPlane (pl : Plane) (u : Option Susp) (b : List Byte) (d : Loaded) : Plane :=
  let from_ := (u.map (·.plane)).getD pl
  let pl' := match u with
    | some u => takeRecords pl { u with plane := u.plane.rebased u.plane.regs.tsbase pl.regs.tsbase }
    | none => pl
  requeue { pl'.withMatching from_.recTick d.2.1 with regs := loadRegs pl.regs from_.regs from_.out b, out := [] }
    (loadedEntries from_.regs pl'.saved d.1)

/-- Restores a task from its records (R296). -/
def loadCtx (s : State) (p : Nat) (b : List Byte) (d : Loaded) : State :=
  let r := s.cur
  let base := (s.plane r p).regs.tsbase
  let u := suspOf s r (s.plane r p).task
  let s := s.modPlane r p (fun pl => loadedPlane pl u b d)
  let s := match u with
    | some u => rejoinDual { s with suspended := s.suspended.filter (fun v => decide (v ≠ u)) } r p u base
    | none => s
  match d.2.2 with
  | some d => { s with mem := memWrite s.mem (tsAddr r base) d }
  | none => s

/-- CTXLOAD reads the engine record: its entries, at most 63, or the fault that is met. -/
def readEngine (s : State) (p base : Nat) : Except (Nat × State) (List (List Byte) × State) :=
  match spillRead s s.cur (s.plane s.cur p) (base + 0x12000) 64 with
  | .error fc => .error fc
  | .ok (n, s) =>
    let n := min 63 (leNat n)
    match spillRead s s.cur (s.plane s.cur p) (base + 0x12040) (128 * n) with
    | .error fc => .error fc
    | .ok (b, s) => .ok ((List.range n).map (fun i => (b.drop (128 * i)).take 128), s)

/-- CTXLOAD reads the matching record: its entries, as many as the task has, or the fault that is met. -/
def readMatching (s : State) (p base : Nat) : Except (Nat × State) (List (List Byte) × State) :=
  let pl := s.plane s.cur p
  let k := ((suspOf s s.cur pl.task).map (·.plane)).getD pl
  let n := k.prq.length + k.uq.length
  match spillRead s s.cur pl (base + 0x14000) (32 * n) with
  | .error fc => .error fc
  | .ok (b, s) => .ok ((List.range n).map (fun i => (b.drop (32 * i)).take 32), s)

/-- Whether a record fits the current allocation: TSLEN and TILLSZ are the saved ones. -/
def ctxFits (g : Regs) (b : List Byte) : Bool :=
  decide (recNat b (0x0200 + 8 * 0x14) 8 = g.tslen ∧ recNat b (0x0200 + 8 * 0x15) 8 = g.tillsz)

/-- The image that CTXLOAD reads, when IMG = 1. -/
def readImage (s : State) (p base : Nat) (img : Bool) : Except (Nat × State) (Option (List Byte) × State) :=
  if !img then .ok (none, s)
  else
    match spillRead s s.cur (s.plane s.cur p) (base + 0x40000) (s.plane s.cur p).regs.tslen with
    | .error fc => .error fc
    | .ok (d, s) => .ok (some d, s)

/-- The engine and matching records and the image, or the fault that is met. -/
def readRecords (s : State) (p base : Nat) (img : Bool) : Except (Nat × State) (Loaded × State) :=
  match readEngine s p base with
  | .error fc => .error fc
  | .ok (l, s) =>
    match readMatching s p base with
    | .error fc => .error fc
    | .ok (m, s) =>
      match readImage s p base img with
      | .error fc => .error fc
      | .ok (d, s) => .ok ((l, m, d), s)

/-- What CTXLOAD does: the records are read whole before anything is restored. -/
def ctxloadAt (s : State) (p base : Nat) (img : Bool) : State :=
  let pl := s.plane s.cur p
  match spillRead s s.cur pl (base + 0x2000) 65536 with
  | .error (fc, s) => setSysst s 1 fc
  | .ok (b, s) =>
    if !ctxFits pl.regs b then setSysst s 2 0
    else
      match readRecords s p base img with
      | .error (fc, s) => setSysst s 1 fc
      | .ok (d, s) => setSysst (kickEngines (cascadeAll (loadCtx s p b d) s.cur p) s.cur p) 0 0

/-- CTXLOAD (R296). -/
def execCtxload (f : RA) (s : State) : Host.Outcome State Fault Refusal :=
  runWord 0 f.g s (fun s => do
    let _ ← needMonitor s (.ctxload f)
    let x ← readX s f.ra
    let _ ← needCtxVa x (.ctxload f)
    .ok (ctxloadAt (killX s f.la f.ra) s.ctxP (x.toNat / 2 ^ 20 * 2 ^ 20) (x.getLsbD 0)))

/-! ## DIVERT and RESUME -/

/-- The spill queue's address: aligned to 64 KiB, or ILLEGAL. -/
def needQueueVa (x : Word) (i : Instr) : Chk Unit := if x.toNat % 65536 = 0 then .ok () else illegal i

/-- Whether the device can write at the spill queue's address: the fault, if it cannot (log entry 19). -/
def queueFault (s : State) (p : Nat) (x : Word) : Option Nat :=
  match spillPlace s.cur (s.plane s.cur p) true s x.toNat with
  | .error (fc, _) => some fc
  | .ok _ => none

/-- Diversion of a plane's arrivals to a spill queue begins (R296, R298): entries that an earlier diversion left stay in it. -/
def Plane.divertTo (pl : Plane) (x : Nat) : Plane :=
  { pl with diverted := true, readmit := false, queueAt := x, queueHead := if pl.spillq.isEmpty then 0 else pl.queueHead }

/-- DIVERT (R296, R298): it waits for the deliveries that were there when it began. -/
def execDivert (f : RA) (s : State) : Host.Outcome State Fault Refusal :=
  runWord 0 f.g s (fun s => do
    let _ ← needMonitor s (.divert f)
    let x ← readX s f.ra
    let _ ← needQueueVa x (.divert f)
    let k := (killX s f.la f.ra).modTile s.cur (fun t => { t with divertWait := none })
    match (if s.curTile.divertWait.isSome then none else queueFault s s.ctxP x) with
    | some fc => .ok (setSysst k 1 fc)
    | none =>
      let w := s.curTile.divertWait.getD (s.ctx.deliveries.map (·.did))
      if s.ctx.deliveries.any (fun d => w.contains d.did) then .error (.held (s.modTile s.cur (fun t => { t with divertWait := some w })))
      else .ok (setSysst (k.modCtx (fun pl => pl.divertTo x.toNat)) 0 0))

/-- An entry of a spill queue with the payload that its bytes hold. -/
def SpillE.withBytes (e : SpillE) (b : List Byte) : SpillE :=
  match e with
  | .msg m => .msg { m with payload := b.drop 32 }
  | .pull q => .pull q

/-- Admits an entry that has left the spill queue, if it can be placed, or serves it when it is a pull (R299). -/
def admitEntry (s : State) (r p : Nat) : SpillE → Option State
  | .pull q => some (servePull s q true)
  | .msg m =>
    match enter s r p m false true with
    | (.refused, _) => none
    | (_, s) => some s

/-- The spill queue of a plane without its head entry. -/
def Plane.popSpill (pl : Plane) (e : SpillE) : Plane :=
  { pl with spillq := pl.spillq.drop 1, queueHead := (pl.queueHead + spillCost e) % 262144 }

/-- Reads the head entry of a plane's spill queue and admits it: whether it left the queue, or the fault that is met (R296, R299). -/
def readmitHead (s : State) (r p : Nat) (e : SpillE) : Except (Nat × State) (Bool × State) :=
  let pl := s.plane r p
  match queueRead s r pl pl.queueHead (spillCost e) with
  | .error fc => .error fc
  | .ok (b, s) =>
    match admitEntry (s.modPlane r p (fun pl => pl.popSpill e)) r p (e.withBytes b) with
    | some s => .ok (true, s)
    | none => .ok (false, s)

/-- Admits entries of a spill queue in order, until one stays or a fault is met; diversion ends when the queue is empty. -/
def readmitAll : Nat → State → Nat → Nat → State × Option Nat
  | 0, s, _, _ => (s, none)
  | n + 1, s, r, p =>
    match (s.plane r p).spillq with
    | [] => (s.modPlane r p (fun pl => { pl with diverted := false, readmit := false }), none)
    | e :: _ =>
      match readmitHead s r p e with
      | .error (fc, s) => (s, some fc)
      | .ok (true, s) => readmitAll n s r p
      | .ok (false, s) => (s, none)

/-- The redelivery of a plane's spill queue (R299). -/
def readmit (s : State) (r p : Nat) : State × Option Nat := readmitAll ((s.plane r p).spillq.length + 1) s r p

/-- RESUME of a diverted plane (R296, R299): a fault stops it where it stands. -/
def resumeAt (s : State) (r p x : Nat) : State :=
  match readmit (s.modPlane r p (fun pl => { pl with queueAt := x, readmit := true })) r p with
  | (s, none) => setSysst s 0 0
  | (s, some fc) => setSysst (s.modPlane r p (fun pl => { pl with readmit := false })) 1 fc

/-- RESUME (R296, R299). -/
def execResume (f : RA) (s : State) : Host.Outcome State Fault Refusal :=
  runWord 0 f.g s (fun s => do
    let _ ← needMonitor s (.resume f)
    let x ← readX s f.ra
    let _ ← needQueueVa x (.resume f)
    let k := killX s f.la f.ra
    .ok (if s.ctx.diverted then resumeAt k s.cur s.ctxP x.toNat else setSysst k 0 0))

/-- SPILL_HEAD_READMIT (R299): an entry whose bytes cannot be read stays. -/
def execSpillHeadReadmit (rank plane : Nat) (s : State) : Host.Outcome State Fault Refusal :=
  runEvent (Instr.spillHeadReadmit rank plane).wf s (fun s =>
    if (s.plane rank plane).diverted && (s.plane rank plane).readmit then (readmit s rank plane).1 else s)

/-! ## TLBINV (R327) -/

/-- The span of an invalidation: all of the partition when the length is 0; nothing when it leaves the address space. -/
def invSpan (va n : Nat) : Option (Nat × Nat) :=
  if 2 ^ 48 ≤ va ∨ (n ≠ 0 ∧ 2 ^ 48 < va + n) then none else some (if n = 0 then (0, 2 ^ 48 - 1) else (va, va + n - 1))

/-- TLBINV (R327): the entries are dropped once, and the word then stalls until the requests they translated have ended. -/
def execTlbinv (f : RAB) (s : State) : Host.Outcome State Fault Refusal :=
  runWord 0 f.g s (fun s => do
    let _ ← needMonitor s (.tlbinv f)
    let a ← readX s f.ra
    let b ← readX s f.rb
    match invSpan a.toNat b.toNat with
    | none => illegal (.tlbinv f)
    | some (lo, hi) =>
      let pkg := pkgOf s.cur
      let part := s.ctx.task.part
      let s := match s.curTile.tlbWait with
        | some _ => s
        | none => (dropTr s pkg part lo hi).modTile s.cur (fun t => { t with tlbWait := some (translatedIn s pkg part lo hi) })
      if (stillOut s (s.curTile.tlbWait.getD [])).isEmpty then
        .ok (killX (killX (s.modTile s.cur (fun t => { t with tlbWait := none })) f.la f.ra) f.lb f.rb)
      else .error (.held s))

/-! ## Steps of the monitor's registers -/

/-- TXVAL_WRITE (R290). -/
def execTxvalWrite (rank value : Nat) (s : State) : Host.Outcome State Fault Refusal :=
  runEvent (Instr.txvalWrite rank value).wf s (fun s => txWrite s rank (BitVec.ofNat 64 value))

/-- Whether a value of SCANCEL names a level of a task of a launch: its launch, graph, phase or job. -/
def ownLevel (s : State) (launch pkg v : Nat) : Bool :=
  let level := v / 2 ^ 62
  let n := v % 2 ^ 32
  let l := s.launchOf launch
  if level = 0 then decide (n = launch) && l.isSome
  else if level = 1 then decide ((l.bind (fun l => l.graph.map (·.1))) = some n)
  else if level = 2 then decide ((l.bind (fun l => (s.jobAt l.job pkg).map (·.phaseNum))) = some n)
  else decide ((l.map (·.job)) = some n)

/-- Cancels a level by its number (R313). -/
def cancelLevel (s : State) (pkg level n : Nat) : State :=
  if level = 0 then cancelLaunch s n false
  else if level = 1 then cancelGraph s n
  else if level = 2 then
    (match s.jobs.find? (fun j => decide (j.phaseNum = n ∧ j.pkg = pkg) && !j.fin) with
     | some j => cancelPhase s j.num pkg
     | none => s)
  else cancelJob s n pkg

/-- SCANCEL_WRITE (R313) of a word by the monitor, when the task in MTPC.PLANE was of a launch. A word that names no level of the task
is ignored, with BADCANCEL. -/
def scancelAt (s : State) (rank launch v : Nat) : State :=
  if ownLevel s launch (pkgOf rank) v then cancelLevel s (pkgOf rank) (v / 2 ^ 62) (v % 2 ^ 32)
  else blackBox s (pkgOf rank) 0x0021 rank v

/-- SCANCEL_WRITE (R313): the launch is that of the task in MTPC.PLANE when the monitor wrote the register. -/
def execScancelWrite (rank value : Nat) (s : State) : Host.Outcome State Fault Refusal :=
  runEvent (Instr.scancelWrite rank value).wf s (fun s => scancelAt s rank (value / 2 ^ 64) (value % 2 ^ 64))

end Sys2Proof.Machine
end

