-- ==== Sys2Proof/Machine/Barrier.lean ====
section
/-! DEFINITION. The steps of barriers and of speculation past them (spec/02_execution.md R36 to R44): signals that leave, phases
that complete, conflicts, and the end of a commit drain. -/

namespace Sys2Proof.Machine

/-! ## Signals (R36, R37, R39) -/

/-- The ARRIVEs of plane p on group g that the DUAL comparison has not released (R39). -/
def arriveTokens (t : Tile) (p g : Nat) : Nat :=
  (t.dualq.filter (fun e => decide (e.1 = p ∧ e.2.2 = .arrive g))).length

/-- A member's signal reaches the tree of a group, which completes its phase when every member's has (R36). -/
def signalTree (s : State) (num index g : Nat) : State :=
  let s := s.modLaunch num (fun l =>
    let t := (l.trees[g]?).getD {}
    { l with trees := l.trees.setIfInBounds g { t with arrived := t.arrived ++ [index] } })
  match s.launchOf num with
  | none => s
  | some l => if l.ntask ≤ ((l.trees[g]?).getD {}).arrived.length then emitOnce s (.barrierPhaseComplete num g) else s

/-- Whether an arrival still waits: for an earlier one of its group, for the pair's comparison, for its sends and
acknowledgements, or for the tree to reach its phase. later counts the group's arrivals from this one on. -/
def heldBack (s : State) (t : Tile) (p : Nat) (k : Task) (kept : List Held) (later : Nat) (h : Held) : Bool :=
  let tree := match s.launchOf k.launch with
    | some l => (l.trees[h.group]?).getD {}
    | none => {}
  kept.any (fun e => decide (e.group = h.group)) || decide (later ≤ arriveTokens t p h.group)
    || h.waits.any (stillHolds t p) || decide (tree.phase ≠ h.phase) || tree.arrived.contains k.index

/-- Releases the signals of a list of arrivals that may leave, oldest first; the answer holds those that wait. t and p give the
plane that holds them. The odd tile of a DUAL pair sends no signal of its own (R39). -/
def signals (t : Tile) (p : Nat) (k : Task) (odd : Bool) : List Held → List Held → State → List Held × State
  | [], kept, s => (kept, s)
  | h :: l, kept, s =>
    if s.groupOut k.launch h.group ≠ 0 then signals t p k odd l kept s
    else
      let later := ((h :: l).filter (fun e => decide (e.group = h.group))).length
      if odd then
        signals t p k odd l (if later ≤ arriveTokens t p h.group then kept ++ [h] else kept) s
      else if heldBack s t p k kept later h then signals t p k odd l (kept ++ [h]) s
      else signals t p k odd l kept (signalTree s k.launch k.index h.group)

/-- Whether a task's tile is the odd one of a DUAL pair. -/
def isOdd (r : Nat) (k : Task) : Bool := k.dual && decide (r % 2 = 1)

/-- The signals of the task of a plane. -/
def planeSignals (s : State) (r p : Nat) : State :=
  let pl := s.plane r p
  let x := signals (s.tile r) p pl.task (isOdd r pl.task) pl.held [] s
  x.2.modPlane r p (fun pl => { pl with held := x.1 })

/-- The signals of a task suspended at a tile, whose engines have sent what they had started. -/
def suspSignals (s : State) (u : Susp) : State :=
  let t : Tile := { (default : Tile) with plane0 := u.plane }
  let x := signals t 0 u.plane.task (isOdd u.rank u.plane.task) u.plane.held [] s
  { x.2 with suspended := x.2.suspended.map (fun v => if v = u then { v with plane := { v.plane with held := x.1 } } else v) }

/-- Every signal of a tile's plane and of the tasks suspended there that may leave. The step stays due while one waits. -/
def releaseSignals (s : State) (r p : Nat) : State :=
  let s := planeSignals s r p
  let s := (s.suspended.filter (fun u => decide (u.rank = r))).foldl suspSignals s
  if (s.plane r p).held ≠ [] ∨ s.suspended.any (fun u => decide (u.rank = r) && !u.plane.held.isEmpty) = true then
    emitOnce s (.arriveSignalRelease r p)
  else s

/-- ARRIVE_SIGNAL_RELEASE (R37). -/
def execArriveSignalRelease (rank plane : Nat) (s : State) : Host.Outcome State Fault Refusal :=
  runEvent (Instr.arriveSignalRelease rank plane).wf s (fun s => releaseSignals s rank plane)

/-- A tree completes its phase: it waits for the next, and the speculations that await the phase begin their commits (R44). -/
def completePhase (s : State) (l : Launch) (g : Nat) : State :=
  let t := (l.trees[g]?).getD {}
  let s := s.modLaunch l.num (fun l => { l with trees := l.trees.setIfInBounds g { t with phase := !t.phase, done := t.done + 1, arrived := [] } })
  l.members.foldl (fun s m =>
    match planeOfTask (s.tile m.2) l.num m.1 with
    | none => s
    | some p =>
      let tw := partnerOf s m.2 p
      let s := beginCommit s m.2 p g (t.done + 1)
      match tw with
      | some (r2, p2) => beginCommit s r2 p2 g (t.done + 1)
      | none => s) s

/-- BARRIER_PHASE_COMPLETE (R36): when every member has signalled the phase. -/
def execBarrierPhaseComplete (launch group : Nat) (s : State) : Host.Outcome State Fault Refusal :=
  runEvent (Instr.barrierPhaseComplete launch group).wf s (fun s =>
    match s.launchOf launch with
    | none => s
    | some l =>
      let t := (l.trees[group]?).getD {}
      if t.out ≠ 0 ∨ t.arrived.length < l.ntask then s else completePhase s l group)

/-! ## Conflicts and commits (R42, R44) -/

/-- CONFLICT_NOTICE (R42, R124): a notice about a speculation that has ended already changes nothing; its release flits
confirm. -/
def execConflictNotice (rank plane number : Nat) (s : State) : Host.Outcome State Fault Refusal :=
  runEvent (Instr.conflictNotice rank plane number).wf s (fun s =>
    match (s.plane rank plane).spec with
    | some sp => if sp.number = number then rollback s rank plane true else s
    | none => s)

/-- The held sends of a speculation are released in program order; those of a DUAL pair are compared first (R44, R46), an MSEND
from its snapshot on (R269). -/
def releaseHeld (s : State) (r p : Nat) (ids : List Nat) : State :=
  let s := if (s.plane r p).task.dual then 
      (ids.filter (fun id => ((s.plane r p).send id).any (fun sd => decide (sd.kind ≠ 6) || sd.held))).foldl
        (fun s id => pushDual s r p (.send id)) s
    else s
  pumpTile s r

/-- The end of a commit drain. -/
def commitAt (s : State) (r p : Nat) (sp : Spec) : State :=
  let ids := ((s.plane r p).sends.filter (·.spec)).map (·.id)
  let s := s.modTile r (fun t =>
    { t.setPl p (committed (t.pl p) sp) with reqs := committedReqs t.reqs p })
  let s := lateArrives (releaseHeld s r p ids) r p
  kickEngines (pumpRelease s r p) r p

/-- The next line of a commit drain, in order of first write (R44): what has landed in it before is replaced, what lands later
stays. -/
def drainLine (s : State) (r p : Nat) (sp : Spec) : State :=
  emitOnce ((drainEscrow s r (sp.escrow.take 1)).modPlane r p (fun pl =>
    { pl with spec := some { sp with escrow := sp.escrow.drop 1 } })) (.escrowDrainEnd r p)

/-- ESCROW_DRAIN_END (R44): the drain goes on by a line, or ends when none is left. -/
def execEscrowDrainEnd (rank plane : Nat) (s : State) : Host.Outcome State Fault Refusal :=
  runEvent (Instr.escrowDrainEnd rank plane).wf s (fun s =>
    match (s.plane rank plane).spec with
    | some sp => if !sp.committing then s else if sp.escrow.isEmpty then commitAt s rank plane sp else drainLine s rank plane sp
    | none => s)

end Sys2Proof.Machine
end

