-- ==== Sys2Proof/Machine/Platform.lean ====
section
/-! DEFINITION. The steps of the platform (spec/19_sys_platform.md R333 to R344; spec/06_vaults.md R132, R133;
spec/07_optical_fabric.md R136, R138; spec/18_sys_translation.md R324): bring-up, field tests and spares, refresh takeover,
page moves, power. -/

namespace Sys2Proof.Machine

/-! ## Fences of any unit -/

/-- The lane of a health entry. -/
def laneOfEntry (e : Nat) : Option Nat := if 1344 ≤ e ∧ e < 2368 then some (e - 1344) else none

/-- A lane next to the service lane on its fibre that may take a position: in service, not leased, the position is free on the
fibre, and the peer it leaves keeps its floor of 2 lanes (R138). The lowest-numbered is taken. -/
def Package.replacement (p : Package) (g : Nat) : Option Nat :=
  if p.slotted || decide (g = 0) || p.fibreAt 127 g then none
  else ((List.range 7).map (· + 1016)).find? (fun l =>
    !p.laneFenced l && !p.leased l && !p.homing.contains l && decide (p.pos l ≠ 0 ∧ 3 ≤ p.ownLanes (p.pos l)))

/-- Fences a unit for a reason (R339, R340); for a lane in default mode, a neighbour of the service lane may take its place
(R138). -/
def fenceAny (s : State) (pkg e reason : Nat) : State :=
  if (s.pkg pkg).isFenced e then s
  else
    match laneOfEntry e with
    | none => fenceUnit s pkg e reason
    | some l =>
      let g := (s.pkg pkg).pos l
      let s := fenceUnit s pkg e reason
      s.modPkg pkg (fun p =>
        match p.replacement g with
        | some k => (p.tune k g).goHome s.podTime
        | none => p)

/-- CRC_REPLAY (R136, R339): the replay delivers the flit; the lane's count rises, and CRCLIM fences it. -/
def crcAt (s : State) (pkg lane : Nat) : State :=
  let e := 1344 + lane
  if (s.pkg pkg).isFenced e then s
  else
    let s := countUp (s.modPkg pkg (fun p => p.bumpHealth e 47 32)) pkg 5
    let w := windowOf s e
    let old := ngetD (s.pkg pkg).windowCount e (w, 0)
    let n := if old.1 = w then old.2 + 1 else 1
    let s := s.modPkg pkg (fun p => { p with windowCount := nset p.windowCount e (w, n) })
    if bitsHL ((s.pkg pkg).reg 8) 51 40 ≤ n then fenceAny s pkg e 6 else s

/-- CRC_REPLAY (R136). -/
def execCrcReplay (pkg lane : Nat) (s : State) : Host.Outcome State Fault Refusal :=
  runEvent (Instr.crcReplay pkg lane).wf s (fun s => crcAt s pkg lane)

/-- LIMIT_WINDOW_END (R339): counts of windows that have ended restart; those of the hour are tiles' and vaults', those of the
second lanes'. -/
def execLimitWindowEnd (pkg : Nat) (hour : Bool) (s : State) : Host.Outcome State Fault Refusal :=
  runEvent (Instr.limitWindowEnd pkg hour).wf s (fun s =>
    s.modPkg pkg (fun p =>
      { p with windowCount := p.windowCount.filter (fun (e : Nat × (Nat × Nat)) =>
          decide ((laneOfEntry e.1).isNone ≠ hour) || decide (e.2.1 = windowOf s e.1)) }))

/-! ## Field tests (R338) -/

/-- Whether a step is a request that stands at a vault. -/
def standsAt (s : State) (v : Nat) (d : Due) : Bool :=
  let at_ := fun (q : Req) => decide (d.via = none) && (visits s q).contains v
  match d.ev with
  | .vaultGet q => at_ q
  | .vaultPut q => at_ q
  | .vaultAtom q => at_ q
  | .vaultRed q => at_ q
  | .vaultRedf q => at_ q
  | .vaultFship q => at_ q
  | .vaultQuery q => at_ q
  | _ => false

/-- Whether a unit that is no tile is idle for a test: a spare not in use; a vault whose channel has no request queued and whose core
runs; a lane whose queue is empty and whose peer keeps its floor (R138). -/
def unitIdle (s : State) (pkg e : Nat) : Bool :=
  let p := s.pkg pkg
  if e < 1088 then !p.isSpared e
  else if e < 1344 then
    let v := pkg * 4096 + 0x400 + (e - 1088)
    (s.vault v).waiting.isEmpty && !p.smcDown ((e - 1088) / 32) && s.agenda.all (fun d => !standsAt s v d)
  else
    match laneOfEntry e with
    | none => true
    | some l =>
      let g := p.pos l
      decide (g = 0 ∨ 3 ≤ p.ownLanes g) && s.agenda.all (fun d => decide ((d.via.map (·.1)) ≠ some (queueKey pkg g)))

/-- A field test of an idle unit: a pass resets TESTAGE, a failure counts in TFAIL and fences the unit. -/
def testUnit (s : State) (pkg e : Nat) (pass : Bool) : State :=
  let s := countUp s pkg 6
  if pass then s.modPkg pkg (fun p => { p with lastPass := nset p.lastPass e s.podTime })
  else fenceAny (countUp (s.modPkg pkg (fun p => p.bumpHealth e 55 48)) pkg 7) pkg e 1

/-- The end of a tile's test: the launch on system queue 60 that holds a plane for it leaves, and the plane is free again. -/
def testTile (s : State) (pkg e : Nat) (pass : Bool) : State :=
  let mine := fun (l : Launch) => decide (l.pkg = pkg ∧ l.test = some e)
  if s.launches.any (fun l => mine l && !l.heldPlanes.isEmpty) then
    emitOnce (testUnit { s with launches := s.launches.filter (fun l => !mine l) } pkg e pass) (.placementDecision pkg (e / 256))
  else queueTest s pkg e

/-- FIELD_TEST (R338): a tile's test runs once the placement has given it a free plane, and is queued otherwise; any other unit's
waits for the unit to be idle. A fenced unit is not tested. -/
def execFieldTest (pkg entry : Nat) (pass : Bool) (s : State) : Host.Outcome State Fault Refusal :=
  runEvent (Instr.fieldTest pkg entry pass).wf s (fun s =>
    if (s.pkg pkg).isFenced entry then s
    else if entry < 1024 then testTile s pkg entry pass
    else if unitIdle s pkg entry then testUnit s pkg entry pass
    else emitOnce s (.fieldTest pkg entry pass))

/-! ## Repair by a spare (R341) -/

/-- The spare's entry for a tile's column. -/
def spareOf (e : Nat) : Nat := 1024 + e / 256 * 16 + e % 16

/-- Whether a field test holds a plane of a tile (R338). -/
def testHolds (s : State) (r k : Nat) : Bool := s.launches.any (fun l => l.test.isSome && l.heldPlanes.contains (r, k))

/-- Whether both planes of every tile of a column, from a tile's row on, are free: a test in a plane takes it too. -/
def columnFree (s : State) (pkg e : Nat) : Bool :=
  (List.range (16 - e / 16 % 16)).all (fun i =>
    [0, 1].all (fun k =>
      decide ((s.plane (pkg * 4096 + e + 16 * i) k).state = 0) && !testHolds s (pkg * 4096 + e + 16 * i) k))

/-- The column shifts onto its spare, which has passed its test: the tile is in service again. No other fenced tile of the column can
be repaired any more (R299). -/
def repairAt (s : State) (pkg e : Nat) : State :=
  let sp := spareOf e
  let s := s.modPkg pkg (fun p =>
    { p with health := nset (nset p.health e (putBits (putBits (p.healthOf e) 63 63 0) 62 62 1)) sp (putBits (p.healthOf sp) 62 62 1) })
  let s := s.modTile (pkg * 4096 + e) (fun t => { t with fenced := false })
  let die := e / 256
  let left := 16 - (s.pkg pkg).sparesUsed die
  let s := blackBox s pkg 0x0011 (unitOfEntry pkg e) (die + e % 16 * 2 ^ 8 + left * 2 ^ 16)
  emitOnce (columnLost (checkReplace s pkg) pkg sp) (.placementDecision pkg die)

/-- The spare of a tile's column is tested and takes over; one that fails is fenced itself. -/
def useSpare (s : State) (pkg e : Nat) : State :=
  if Config.testPasses s.tick (spareOf e) then
    repairAt (s.modPkg pkg (fun p => { p with lastPass := nset p.lastPass (spareOf e) s.podTime })) pkg e
  else fenceAny s pkg (spareOf e) 1

/-- SPARE_REPAIR (R341): at the launch boundary of the column; nothing for a tile in service, or one that no spare can
repair, or while the compute dies have no power (R344). -/
def execSpareRepair (pkg entry : Nat) (s : State) : Host.Outcome State Fault Refusal :=
  runEvent (Instr.spareRepair pkg entry).wf s (fun s =>
    if 1024 ≤ entry ∨ (s.pkg pkg).powered = false ∨ (s.pkg pkg).isFenced entry = false ∨ spareFree s (pkg * 4096 + entry) = false then s
    else if columnFree s pkg entry && !s.agenda.any (fun d => decide (d.ev = .fenceNotice (pkg * 4096 + entry) (pkg * 4096 + entry))) then
      useSpare s pkg entry
    else emitOnce s (.spareRepair pkg entry))

/-! ## Stack management cores (R132, R334) -/

/-- Sets or clears MOVING of a page's slice entry. -/
def Package.setMoving (p : Package) (dpn : Nat) (b : Bool) : Package :=
  { p with slice := nset p.slice dpn (putBits (p.sliceOf dpn) 31 31 (if b then 1 else 0)) }

/-- The package without a page move. -/
def Package.endMove (p : Package) (hot cold : Nat) : Package := { p with moving := p.moving.erase (hot, cold) }

/-- The stack that holds a page. -/
def Package.stackOf (p : Package) (dpn : Nat) : Nat := bitsHL (p.sliceOf dpn) 30 28

/-- Abandons the page moves of a stack: the old frames stay in force (R132). -/
def dropMoves (p : Package) (k : Nat) : Package :=
  let l := p.moving.filter (fun m => decide (p.stackOf m.1 = k ∨ p.stackOf m.2 = k))
  l.foldl (fun p m => (p.setMoving m.1 false).setMoving m.2 false) { p with moving := p.moving.filter (fun m => !l.contains m) }

/-- REFRESH_TAKEOVER (R132, R334): SMCDOWN is set and recorded; a restarted core that stops again is down again. -/
def execRefreshTakeover (pkg stack : Nat) (s : State) : Host.Outcome State Fault Refusal :=
  runEvent (Instr.refreshTakeover pkg stack).wf s (fun s =>
    if (s.pkg pkg).smcDown stack then s.modPkg pkg (fun p => { p with beats := ndel p.beats stack })
    else
      let s := s.modPkg pkg (fun p =>
        dropMoves { p.setReason stack 7 with smcOff := p.smcOff ++ [stack] } stack)
      blackBox s pkg 0x0013 (2368 + stack) stack)

/-- SMC_RESTART (R334): the restart of a stopped core succeeds, and its beats begin, or fails; the third failure leaves the
stack under autonomous refresh (R343). -/
def execSmcRestart (pkg stack : Nat) (ok : Bool) (s : State) : Host.Outcome State Fault Refusal :=
  runEvent (Instr.smcRestart pkg stack ok).wf s (fun s =>
    let p := s.pkg pkg
    let n := ngetD p.smcFails stack 0
    if p.smcDown stack = false ∨ 3 ≤ n ∨ ngetD p.beats stack 0 ≠ 0 then s
    else if ok then s.modPkg pkg (fun p => { p with beats := nset p.beats stack 16 })
    else
      checkReplace (s.modPkg pkg (fun p =>
        { p with smcFails := nset p.smcFails stack (n + 1), degradedSmc := p.degradedSmc || decide (n + 1 = 3) })) pkg)

/-- SMCUP (R334): after 16 consecutive beats refresh returns to the core, and SMCDOWN clears. -/
def execSmcup (pkg stack : Nat) (s : State) : Host.Outcome State Fault Refusal :=
  runEvent (Instr.smcup pkg stack).wf s (fun s =>
    if (s.pkg pkg).smcDown stack = false ∨ ngetD (s.pkg pkg).beats stack 0 < 16 then s
    else
      let s := s.modPkg pkg (fun p =>
        { p.setReason stack 0 with smcOff := p.smcOff.filter (fun k => decide (k ≠ stack)), beats := ndel p.beats stack,
                                   smcFails := ndel p.smcFails stack })
      blackBox s pkg 0x0014 (2368 + stack) stack)

/-- REFRESH_SPLIT (R133): one more refresh is postponed; at the eighth the burst is split after its granule and the refresh
issued. The split changes latency alone. That the count of the postponed returns to 0 then is the model's reading: R133 says only that
the refresh is issued (DESIGN CHOICE, log entry 93). -/
def execRefreshSplit (vault : Nat) (s : State) : Host.Outcome State Fault Refusal :=
  runEvent (Instr.refreshSplit vault).wf s (fun s =>
    s.modVault vault (fun v => { v with postponed := if 7 ≤ v.postponed then 0 else v.postponed + 1 }))

/-! ## Hot-page moves (R324) -/

/-- The partition of the vault that holds a page. -/
def pagePart (s : State) (pkg dpn : Nat) : Option Nat := s.partOf (s.holdingVault pkg (dpn * 65536))

/-- Whether a page may be moved: its vault is in service, holds no filter entry on it, and its core runs. -/
def pageFree (s : State) (pkg dpn : Nat) : Bool :=
  let v := s.vault (s.holdingVault pkg (dpn * 65536))
  !v.fenced && v.filter.all (fun e => decide (e.line / 1024 ≠ dpn)) && !(s.pkg pkg).isMoving dpn
    && !(s.pkg pkg).smcDown ((s.pkg pkg).stackOf dpn)

/-- Completes the sums of the dirty reduction objects on a page (R117, R324). -/
def settleSums (s : State) (pkg dpn : Nat) : State :=
  let home := s.holdingVault pkg (dpn * 65536)
  ((s.vault home).objects.filter (fun o => decide (dpn64 o.1 = dpn) && o.2)).foldl (fun s o =>
    match completeSum s home pkg o.1 with
    | (s, some g) => noteBad s pkg g
    | (s, none) => s) s

/-- Whether a page holds a reduction object that is listed as dirty. -/
def pageDirty (s : State) (pkg dpn : Nat) : Bool :=
  (s.vault (s.holdingVault pkg (dpn * 65536))).objects.any (fun o => decide (dpn64 o.1 = dpn) && o.2)

/-- Drops the objects of a page, all clean, from the table of the vault that holds it. -/
def dropObjects (s : State) (pkg dpn : Nat) : State :=
  s.modVault (s.holdingVault pkg (dpn * 65536)) (fun v => { v with objects := v.objects.filter (fun o => decide (dpn64 o.1 ≠ dpn)) })

/-- PAGE_MOVE (R324): MOVING is set in both slice entries; pages that may not be exchanged are left alone, and so are those with
a dirty object whose sum cannot be completed. -/
def execPageMove (pkg hot cold : Nat) (s : State) : Host.Outcome State Fault Refusal :=
  runEvent (Instr.pageMove pkg hot cold).wf s (fun s =>
    let p := s.pkg pkg
    if p.stackOf hot ≠ p.stackOf cold ∧ (pagePart s pkg hot).isSome = true ∧ pagePart s pkg hot = pagePart s pkg cold
        ∧ pageFree s pkg hot = true ∧ pageFree s pkg cold = true then
      let s := settleSums (settleSums s pkg hot) pkg cold
      if pageDirty s pkg hot || pageDirty s pkg cold then s
      else
      let s := dropObjects (dropObjects s pkg hot) pkg cold
      emit (s.modPkg pkg (fun p => { ((p.setMoving hot true).setMoving cold true) with moving := p.moving ++ [(hot, cold)] }))
        (.pageMoveEnd pkg hot cold)
    else s)

/-- The granules of a frame: those at an address of its 64 KiB. -/
def inFrame (a g : Nat) : Bool := decide (a / 16 ≤ g ∧ g < a / 16 + 4096)

/-- Moves the marks of uncorrectable granules with the bytes of two frames at vaults v and w. -/
def swapBad (s : State) (v w a b : Nat) : State :=
  let x := (s.vault v).bad.filter (inFrame a)
  let y := (s.vault w).bad.filter (inFrame b)
  let s := s.modVault v (fun k => { k with bad := k.bad.filter (fun g => !inFrame a g) ++ y.map (fun g => g + a / 16 - b / 16) })
  s.modVault w (fun k => { k with bad := k.bad.filter (fun g => !inFrame b g) ++ x.map (fun g => g + b / 16 - a / 16) })

/-- The exchange of two pages: the frames are copied crosswise, the slice entries are rewritten, and MOVING clears. -/
def exchange (s : State) (pkg hot cold : Nat) : State :=
  let p := s.pkg pkg
  let a := s.dpaAddr pkg (hot * 65536)
  let b := s.dpaAddr pkg (cold * 65536)
  let x := memRead s.mem a 65536
  let y := memRead s.mem b 65536
  let s := swapBad s (s.holdingVault pkg (hot * 65536)) (s.holdingVault pkg (cold * 65536)) a b
  let s := { s with mem := memWrite (memWrite s.mem a y) b x }
  s.modPkg pkg (fun k =>
    { k with slice := nset (nset k.slice hot (putBits (p.sliceOf cold) 31 31 0)) cold (putBits (p.sliceOf hot) 31 31 0),
             moving := k.moving.erase (hot, cold) })

/-- Whether a vault that holds one of two pages is fenced: they are not moved (R340). -/
def moveFenced (s : State) (pkg hot cold : Nat) : Bool :=
  (s.vault (s.holdingVault pkg (hot * 65536))).fenced || (s.vault (s.holdingVault pkg (cold * 65536))).fenced

/-- PAGE_MOVE_END (R324): an exchange that was abandoned does not end, and one of a fenced vault's page is abandoned (R340). -/
def execPageMoveEnd (pkg hot cold : Nat) (s : State) : Host.Outcome State Fault Refusal :=
  runEvent (Instr.pageMoveEnd pkg hot cold).wf s (fun s =>
    if !(s.pkg pkg).moving.contains (hot, cold) then s
    else if moveFenced s pkg hot cold then
      s.modPkg pkg (fun p => ((p.setMoving hot false).setMoving cold false).endMove hot cold)
    else exchange s pkg hot cold)

/-! ## Power and cooling (R344) -/

/-- One step of clk by 100 MHz, between 1.5 and 2.5 GHz. -/
def clkStep (c : Nat) (lower : Bool) : Nat := if lower then (if 15 < c then c - 1 else c) else (if c < 25 then c + 1 else c)

/-- THROTTLE (R344): trigger is 0 for power and 1 for temperature; nothing at the end of the range. -/
def execThrottle (pkg trigger : Nat) (lower : Bool) (s : State) : Host.Outcome State Fault Refusal :=
  runEvent (pkgWf pkg) s (fun s =>
    let c := clkStep (s.pkg pkg).clk lower
    if c = (s.pkg pkg).clk then s
    else blackBox (s.modPkg pkg (fun p => { p with clk := c })) pkg 0x001A (Config.noUnit 0x001A pkg) (c + trigger % 2 * 2 ^ 8))

/-- The compute tiles of a package. -/
def pkgTiles (pkg : Nat) : List Nat := (List.range 1024).map (fun e => pkg * 4096 + e)

/-- THERMTRIP (R344): at 115 °C the compute dies lose their power, and with it all that they held; the tiles are out of service until
a RESET. -/
def execThermtrip (pkg temp : Nat) (s : State) : Host.Outcome State Fault Refusal :=
  runEvent (pkgWf pkg) s (fun s =>
    if temp < 115 then s
    else
    let s := blackBox s pkg 0x001B (Config.noUnit 0x001B pkg) (temp % 256)
    let s := { s with tiles := (pkgTiles pkg).foldl (fun m r => nset m r { (default : Tile) with fenced := true }) s.tiles,
                      suspended := s.suspended.filter (fun u => decide (pkgOf u.rank ≠ pkg)) }
    s.modPkg pkg (fun p => { p with powered := false }))

/-! ## RESET and loss of power (R333, R336) -/

/-- Whether an address belongs to a package's tile stores, planes, monitor stores or vaults. -/
def ownAddr (pkg a : Nat) : Bool :=
  let kind := a / 2 ^ 96
  let unit := a / 2 ^ 64 % 2 ^ 32
  decide ((kind = 0 ∧ pkgOf unit = pkg) ∨ (kind = 1 ∧ pkgOf (unit / 2) = pkg) ∨ (kind = 2 ∧ pkgOf unit = pkg) ∨ (kind = 3 ∧ unit = pkg))

/-- The package of a command step. -/
def cmdPkg : Instr → Option Nat
  | .jobrun c => some c.pkg
  | .countq c => some c.pkg
  | .cancel c => some c.pkg
  | .resync c => some c.pkg
  | .tlbinvCommand c => some c.pkg
  | .partset c => some c.pkg
  | .cfgrd c => some c.pkg
  | .cfgwr c => some c.pkg
  | .healthrd c => some c.pkg
  | .bbread c => some c.pkg
  | .testnow c => some c.pkg
  | .fence c => some c.pkg
  | .reset c => some c.pkg
  | _ => none

/-- A package at step 1 of bring-up: what its non-volatile store holds stays, with the ring addresses that the adapter holds. -/
def Package.restart (p : Package) : Package :=
  { (default : Package) with
    bb := p.bb, bbSeq := p.bbSeq, bbLost := p.bbLost, boot := p.boot, replaceReq := p.replaceReq,
    cmdAddr := p.cmdAddr, cmdSize := p.cmdSize, cmdHead := p.cmdHead, compAddr := p.compAddr, compSize := p.compSize,
    compTail := p.compTail, evTail := p.evTail }

/-- The package restarts (R333): its tiles and vaults stand as at power-on, its work is gone, and its memories hold whatever
they hold then. -/
def resetPkg (s : State) (pkg : Nat) : State :=
  let s := bbCommit s pkg
  let s := s.modPkg pkg Package.restart
  { s with
    tiles := s.tiles.filter (fun (e : Nat × Tile) => decide (pkgOf e.1 ≠ pkg)),
    vaults := s.vaults.filter (fun (e : Nat × Vault) => decide (pkgOf e.1 ≠ pkg)),
    jobs := s.jobs.filter (fun j => decide (j.pkg ≠ pkg)),
    launches := s.launches.filter (fun l => decide (l.pkg ≠ pkg)),
    graphs := s.graphs.filter (fun g => decide (g.pkg ≠ pkg)),
    streams := s.streams.filter (fun x => decide (x.pkg ≠ pkg)),
    suspended := s.suspended.filter (fun u => decide (pkgOf u.rank ≠ pkg)),
    agenda := s.agenda.filter (fun d => decide (cmdPkg d.ev ≠ some pkg)),
    mem := (Config.resetBytes s.tick).foldl (fun m x => if ownAddr pkg x.1 then memPut m x.1 x.2 else m) s.mem }

/-- POWER_LOSS (R336): the waiting records are committed, and the package is off. -/
def execPowerLoss (pkg : Nat) (s : State) : Host.Outcome State Fault Refusal :=
  runEvent (pkgWf pkg) s (fun s => (resetPkg s pkg).modPkg pkg (fun p => { p with powered := false }))

/-! ## Bring-up (R333) -/

/-- Step 1: the SCP boots and records BOOT. -/
def bootStep (s : State) (pkg : Nat) : State :=
  let s := s.modPkg pkg (fun p => { p with powered := true, boot := p.boot + 1 })
  blackBox s pkg 0x0001 (Config.noUnit 0x0001 pkg) ((s.pkg pkg).boot % 2 ^ 32)

/-- The structural test of one unit: a failing unit is fenced, and a tile repaired where its spare is free. -/
def structural (s : State) (pkg e : Nat) : State :=
  if Config.structuralFails s.tick e then
    let s := fenceAny s pkg e 1
    if e < 1024 ∧ spareFree s (pkg * 4096 + e) = true then useSpare s pkg e else s
  else s.modPkg pkg (fun p => { p with lastPass := nset p.lastPass e s.podTime })

/-- Step 3: every spare, tile, vault and lane is tested. -/
def testStep (s : State) (pkg : Nat) : State :=
  ((List.range 64).map (· + 1024) ++ List.range 1024 ++ (List.range 1280).map (· + 1088)).foldl (fun s e => structural s pkg e) s

/-- The monitor store's image, loaded into every tile of a package. -/
def loadMonitors (s : State) (pkg : Nat) : State :=
  let img := (List.range 16384).map (Config.monitorImage pkg)
  { s with mem := (pkgTiles pkg).foldl (fun m r => memWrite m (monAddr r 0) img) s.mem }

/-- The address of a routine word's register (Table 19.12). -/
def routineAddr (v w : Nat) : Nat := 0x40000 + 0x1000 * v + 4 * w

/-- A step word of a routine in range (Tables 6.5, 6.6). -/
def stepOk (w : Nat) : Bool :=
  let op := bitsHL w 31 28
  decide (w % 2 ^ 16 = 0) && (decide (op = 14) || !w.testBit 19) && decide ((op = 15) = (bitsHL w 18 16 ≠ 0))

/-- An entry takes effect with its header (R118, R330): the check, and the words in force. word gives the words as stored; the
header's reserved field reads zero (R6, R7). -/
def loadEntry (v : Vault) (word : Nat → Nat) (n : Nat) : Vault :=
  let ok := decide (word (16 * n) % 2 ^ 28 = 0) && (List.range 15).all (fun k => stepOk (word (16 * n + k + 1)))
  let hdr := bitsHL (word (16 * n)) 30 28 * 2 ^ 28 + (if ok && (word (16 * n)).testBit 31 then 2 ^ 31 else 0)
  { v with routine := (List.range 15).foldl (fun m k => nset m (16 * n + k + 1) (word (16 * n + k + 1))) (nset v.routine (16 * n) hdr) }

/-- Step 4: the monitor stores and the routine tables are loaded, the latter from the flash image. -/
def loadStep (s : State) (pkg : Nat) : State :=
  let s := loadMonitors s pkg
  (List.range 256).foldl (fun s v =>
    let word := fun w => Config.flashRoutine pkg v w % 2 ^ 32
    let s := s.modVault (pkg * 4096 + 0x400 + v) (fun x => (List.range 64).foldl (fun x n => loadEntry x word n) x)
    s.modPkg pkg (fun p => (List.range 1024).foldl (fun p w =>
      p.setReg (routineAddr v w) (if w % 16 = 0 then ngetD (s.vault (pkg * 4096 + 0x400 + v)).routine w 0 else word w)) p)) s

/-- A step of bring-up fails: DEVST.FAIL is set, and STAGE stays. -/
def failStage (s : State) (pkg k code : Nat) : State :=
  let s := s.modPkg pkg (fun p => { p with stage := k, failed := true })
  blackBox s pkg 0x0003 (Config.noUnit 0x0003 pkg) (k + code % 256 * 2 ^ 8)

/-- The package at a step of bring-up. -/
def setStage (s : State) (pkg k : Nat) : State := s.modPkg pkg (fun p => { p with stage := k })

/-- A step before step 5 fails: step 5 runs all the same, and the link stays closed when it fails too; STAGE stays at the first. -/
def failEarly (s : State) (pkg k code : Nat) : State :=
  let s := failStage s pkg k code
  match Config.linkFails s.tick with
  | some c =>
    blackBox (s.modPkg pkg (fun p => { p with linkDown := true })) pkg 0x0003 (Config.noUnit 0x0003 pkg) (5 + c % 256 * 2 ^ 8)
  | none => s

/-- The steps of Table 19.4 in order, up to the step that fails (0 for none). -/
def bringUp (s : State) (pkg fail code : Nat) : State :=
  let s := bootStep s pkg
  if fail = 1 ∨ fail = 2 then failEarly s pkg fail code
  else
    let s := testStep (setStage s pkg 3) pkg
    if fail = 3 then failEarly s pkg 3 code
    else
      let s := loadStep (setStage s pkg 4) pkg
      if fail = 4 then failEarly s pkg fail code
      else if fail = 5 then failStage s pkg fail code
      else
        let s := s.modPkg pkg (fun p => { p with stage := 6, ready := true })
        blackBox s pkg 0x0002 (Config.noUnit 0x0002 pkg) (s.pkg pkg).devst

/-- POWER_ON (R333): bring-up after power-on or a RESET; nothing for a package that has been brought up or has failed. -/
def execPowerOn (pkg failStep code : Nat) (s : State) : Host.Outcome State Fault Refusal :=
  runEvent (Instr.powerOn pkg failStep code).wf s (fun s =>
    if (s.pkg pkg).ready || (s.pkg pkg).failed then s else bringUp s pkg failStep code)

end Sys2Proof.Machine
end

