-- ==== Sys2Proof/Machine/Command.lean ====
section
/-! DEFINITION. The configuration registers and the command channel (spec/19_sys_platform.md R328 to R337; spec/17_sys_sched.md
R303, R312, R313; spec/18_sys_translation.md R316, R327; spec/06_vaults.md R118). -/

namespace Sys2Proof.Machine

/-! ## Configuration registers (R330) -/

/-- Whether a partition of a package has an active job (R328, R329). -/
def State.busyPart (s : State) (pkg n : Nat) : Bool := s.jobs.any (fun j => !j.fin && decide (j.pkg = pkg ∧ j.part = n))

/-- A register of Table 19.12, as an address names it. -/
inductive CfgReg where
  | devst
  | hlimits
  | plimit
  | part (n : Nat)
  | qcfg (die q : Nat)
  | plcfg (die : Nat)
  | lseed (die : Nat)
  | lmctl
  | slotstart
  | slot (n : Nat)
  | rngLow (p n : Nat)
  | rngHigh (p n : Nat)
  | ptroot (p : Nat)
  | routine (v w : Nat)
  deriving DecidableEq, Repr

/-- The register at an address (Table 19.12). -/
def cfgReg (a : Nat) : Option CfgReg :=
  if a = 0 then some .devst
  else if a = 0x8 then some .hlimits
  else if a = 0x10 then some .plimit
  else if 0x40000 ≤ a ∧ a < 0x140000 then
    (if a % 4 = 0 then some (.routine ((a - 0x40000) / 0x1000) (a % 0x1000 / 4)) else none)
  else if a % 8 ≠ 0 then none
  else if 0x100 ≤ a ∧ a < 0x140 then some (.part ((a - 0x100) / 8))
  else if 0x10000 ≤ a ∧ a < 0x14000 then
    let d := (a - 0x10000) / 0x1000
    let o := a % 0x1000
    if o < 0x200 then some (.qcfg d (o / 8)) else if o = 0x200 then some (.plcfg d) else if o = 0x208 then some (.lseed d) else none
  else if a = 0x20000 then some .lmctl
  else if a = 0x20008 then some .slotstart
  else if 0x20100 ≤ a ∧ a < 0x20300 then some (.slot ((a - 0x20100) / 8))
  else if 0x30000 ≤ a ∧ a < 0x30800 then
    let p := (a - 0x30000) / 0x100
    let n := a % 0x100 / 16
    some (if a % 16 = 0 then .rngLow p n else .rngHigh p n)
  else if 0x30800 ≤ a ∧ a < 0x30840 then some (.ptroot ((a - 0x30800) / 8))
  else none

/-- The address of a range entry's low half. -/
def rngAddr (p n : Nat) : Nat := 0x30000 + 0x100 * p + 16 * n

/-- The value that a register reads as. -/
def cfgRead (p : Package) (a : Nat) : CfgReg → Nat
  | .devst => p.devst
  | .lmctl => p.lmctl
  | _ => p.reg a

/-- A write of PLIMIT: the nearer bound for a value outside 1,200 to 2,300 (R344). -/
def plimitSet (s : State) (pkg v : Nat) : State :=
  s.modPkg pkg (fun p => p.setReg 0x10 (min 2300 (max 1200 (v % 2 ^ 12))))

/-- A write of LSEED: zero stores 1 (R307). -/
def lseedSet (s : State) (pkg die v : Nat) : State :=
  s.modPkg pkg (fun p => p.setReg (0x10000 + 0x1000 * die + 0x208) (if v % 2 ^ 32 = 0 then 1 else v % 2 ^ 32))

/-- A write of 1 to DEVST bit 1 (R333). -/
def replaceSet (s : State) (pkg : Nat) : State :=
  if (s.pkg pkg).spareOrVault then s else s.modPkg pkg (fun p => { p with replaceReq := false })

/-- A write of PTROOTp: its valid bit and DPA[41:13] (R317). -/
def ptrootSet (s : State) (pkg p v : Nat) : State :=
  if s.busyPart pkg p then s
  else s.modPkg pkg (fun k => k.setReg (0x30800 + 8 * p) (v % 2 + bitsHL v 41 13 * 2 ^ 13))

/-- The span of a range entry, when it is valid. -/
def rngSpan (p v : Nat) : Option (Nat × Nat) := (rangeTr p 0 v).map (fun t => (t.lo, t.hi))

/-- Drops the translations of a partition that cover an address of a range entry's range. -/
def dropRange (s : State) (pkg p v : Nat) : State :=
  match rngSpan p v with
  | some (lo, hi) => dropTr s pkg p lo hi
  | none => s

/-- A write of a range entry's low half (R316, R330): the whole entry takes effect, after every translation that meets its old
or its new range has been dropped. -/
def rngLowSet (s : State) (pkg p n v : Nat) : State :=
  let lo := v % 2 ^ 64 - bitsHL v 37 5 * 2 ^ 5
  let s := s.modPkg pkg (fun k => k.setReg (rngAddr p n) lo)
  let new := lo + (s.pkg pkg).reg (rngAddr p n + 8) * 2 ^ 64
  let s := dropRange (dropRange s pkg p (ngetD (s.pkg pkg).rng (p * 16 + n) 0)) pkg p new
  s.modPkg pkg (fun k => { k with rng := nset k.rng (p * 16 + n) new })

/-- The partition of a vault's granule. -/
def vaultPart (s : State) (pkg v : Nat) : Option Nat := s.partOf (pkg * 4096 + 0x400 + v)

/-- Whether a routine table may not be written: its partition has an active job (R329). -/
def routineBusy (s : State) (pkg v : Nat) : Bool :=
  match vaultPart s pkg v with
  | some n => s.busyPart pkg n
  | none => false

/-- A write of a routine word (R118, R330): a step word is stored; a header word is checked and brings its entry into force. -/
def routineSet (s : State) (pkg v w x : Nat) : State :=
  if routineBusy s pkg v then s
  else
    let s := s.modPkg pkg (fun k => k.setReg (routineAddr v w) (x % 2 ^ 32))
    if w % 16 ≠ 0 then s
    else
      let p := s.pkg pkg
      let s := s.modVault (pkg * 4096 + 0x400 + v) (fun k => loadEntry k (fun i => p.reg (routineAddr v i)) (w / 16))
      s.modPkg pkg (fun k => k.setReg (routineAddr v w) (ngetD (s.vault (pkg * 4096 + 0x400 + v)).routine w 0))

/-- A write of QCFGn (Table 17.5): EN and RANK of a user queue, EN and TICKETS of a system queue; LAGE is read only. -/
def qcfgSet (s : State) (pkg die q v : Nat) : State :=
  let a := qcfgAddr die q
  let s := s.modPkg pkg (fun p =>
    let old := p.reg a
    p.setReg a (if q < 60 then putBits (putBits old 31 31 (v / 2 ^ 31)) 3 0 v
      else putBits (putBits old 31 31 (v / 2 ^ 31)) 23 16 (v / 2 ^ 16)))
  emitOnce s (.placementDecision pkg die)

/-- A write of a register with no behaviour of its own (R6, R7): its RW fields take the value's bits. -/
def plainSet (s : State) (pkg a v : Nat) : State :=
  match cfgReg a with
  | some .hlimits => checkReplace (s.modPkg pkg (fun p => p.setReg a (v % 2 ^ 64 - bitsHL v 15 8 * 2 ^ 8))) pkg
  | some (.qcfg d q) => qcfgSet s pkg d q v
  | some (.plcfg _) => s.modPkg pkg (fun p => p.setReg a (v % 16))
  | some .slotstart => s.modPkg pkg (fun p => p.setReg a (v % 2 ^ 64))
  | some (.rngHigh _ _) => s.modPkg pkg (fun p => p.setReg a (v % 2 ^ 64))
  | some (.routine n w) => if w % 16 = 0 then s else routineSet s pkg n w v
  | _ => s

/-- A write of any register by CFGWR (R329, R330): the status, and the state. -/
def cfgWrite (s : State) (pkg a v : Nat) : Nat × State :=
  match cfgReg a with
  | none => (1, s)
  | some (.part _) => (1, s)
  | some .devst => (0, if v.testBit 1 then replaceSet s pkg else s)
  | some .plimit => (0, plimitSet s pkg v)
  | some (.lseed d) => (0, lseedSet s pkg d v)
  | some .lmctl => (0, lmctlWrite s pkg v)
  | some (.slot n) => (0, slotWrite s pkg n v)
  | some (.rngLow p n) => (0, rngLowSet s pkg p n v)
  | some (.ptroot p) => if s.busyPart pkg p then (2, s) else (0, ptrootSet s pkg p v)
  | some (.routine n w) => if routineBusy s pkg n then (2, s) else (0, routineSet s pkg n w v)
  | some _ => (0, plainSet s pkg a v)

/-- RANGE_ENTRY_WRITE (R316). -/
def execRangeEntryWrite (pkg p n value : Nat) (s : State) : Host.Outcome State Fault Refusal :=
  runEvent (pkgWf pkg && decide (p < 8 ∧ n < 16 ∧ value < 2 ^ 128)) s (fun s => rngLowSet s pkg p n value)

/-- ROUTINE_ENTRY_WRITE (R118). -/
def execRoutineEntryWrite (pkg vault word value : Nat) (s : State) : Host.Outcome State Fault Refusal :=
  runEvent (pkgWf pkg && decide (0x400 ≤ epOf vault ∧ epOf vault < 0x500 ∧ word < 1024 ∧ value < 2 ^ 128)) s (fun s =>
    routineSet s pkg (epOf vault - 0x400) word value)

/-- PTROOT_WRITE (R329). -/
def execPtrootWrite (pkg p value : Nat) (s : State) : Host.Outcome State Fault Refusal :=
  runEvent (pkgWf pkg && decide (p < 8 ∧ value < 2 ^ 128)) s (fun s => ptrootSet s pkg p value)

/-- REPLACE_CLEAR (R333). -/
def execReplaceClear (pkg : Nat) (s : State) : Host.Outcome State Fault Refusal :=
  runEvent (pkgWf pkg) s (fun s => replaceSet s pkg)

/-- PLIMIT_WRITE (R344). -/
def execPlimitWrite (pkg value : Nat) (s : State) : Host.Outcome State Fault Refusal :=
  runEvent (pkgWf pkg && decide (value < 2 ^ 128)) s (fun s => plimitSet s pkg value)

/-- LSEED_WRITE (R307). -/
def execLseedWrite (pkg die value : Nat) (s : State) : Host.Outcome State Fault Refusal :=
  runEvent (pkgWf pkg && decide (die < 4 ∧ value < 2 ^ 128)) s (fun s => lseedSet s pkg die value)

/-- SRSEED_WRITE (R63). -/
def execSrseedWrite (rank plane value : Nat) (s : State) : Host.Outcome State Fault Refusal :=
  runEvent (rankWf rank && planeWf plane && decide (value < 2 ^ 128)) s (fun s =>
    s.modPlane rank plane (fun p => { p with regs := { p.regs with srseed := seedOf (BitVec.ofNat 64 value) } }))

/-- REGISTER_WRITE (R6, R7). -/
def execRegisterWrite (pkg addr value : Nat) (s : State) : Host.Outcome State Fault Refusal :=
  runEvent (pkgWf pkg && decide (value < 2 ^ 128)) s (fun s => plainSet s pkg addr value)

/-! ## The rings (R331) -/

/-- Whether the command channel is open: the link has trained, in step 5 of bring-up (R333). -/
def Package.linkOpen (p : Package) : Bool := p.ready || (p.failed && decide (p.stage ≤ 4) && !p.linkDown)

/-- Writes the completion of a command: OP, OLD, TAG, STATUS and results (log entry 22 gives the place of each). -/
def complete (s : State) (c : Cmd) (op status : Nat) (res : List Byte) : State :=
  let p := s.pkg c.pkg
  let b := leBytes 1 op ++ leBytes 1 (if c.old then 1 else 0) ++ leBytes 2 c.tag ++ leBytes 1 status ++ leBytes 3 0
    ++ (res ++ leBytes 24 0).take 24
  let s := { s with mem := memWrite s.mem (hostAddr c.pkg (p.compAddr + 32 * p.compTail)) b }
  s.modPkg c.pkg (fun p => { p with compTail := (p.compTail + 1) % p.compSize })

/-- The step of a command by its OP (Table 19.3). -/
def cmdStep (op : Nat) (c : Cmd) : Option Instr :=
  if op = 1 then some (.jobrun c)
  else if op = 2 then some (.countq c)
  else if op = 3 then some (.cancel c)
  else if op = 4 then some (.resync c)
  else if op = 5 then some (.tlbinvCommand { c with d := 0 })
  else if op = 6 then some (.partset c)
  else if op = 7 then some (.cfgrd c)
  else if op = 8 then some (.cfgwr c)
  else if op = 9 then some (.healthrd c)
  else if op = 10 then some (.bbread c)
  else if op = 11 then some (.testnow c)
  else if op = 12 then some (.fence c)
  else if op = 13 then some (.reset c)
  else none

/-- Fetches one command of 64 bytes: its step is due, or it completes BADCMD. -/
def fetchCmd (s : State) (pkg : Nat) : State :=
  let p := s.pkg pkg
  let b := memRead s.mem (hostAddr pkg (p.cmdAddr + 64 * p.cmdHead)) 64
  let f := fun o n => leNat ((b.drop o).take n)
  let c : Cmd := { pkg := pkg, tag := f 2 2, a := f 8 8, b := f 16 8, c := f 24 8, d := f 32 8, old := false }
  let s := s.modPkg pkg (fun p => { p with cmdHead := (p.cmdHead + 1) % p.cmdSize })
  match cmdStep (f 0 1) c with
  | none => complete s c (f 0 1) 1 []
  | some i => if f 1 1 ≠ 0 ∨ f 4 4 ≠ 0 ∨ f 40 24 ≠ 0 then complete s c (f 0 1) 1 [] else emit s i

/-- Fetches commands up to the tail, in ring order. -/
def fetchCmds : Nat → State → Nat → Nat → State
  | 0, s, _, _ => s
  | n + 1, s, pkg, tail => if (s.pkg pkg).cmdHead = tail then s else fetchCmds n (fetchCmd s pkg) pkg tail

/-- DOORBELL (R331): nothing while the link is down, or for an index outside the ring. -/
def execDoorbell (pkg tail : Nat) (s : State) : Host.Outcome State Fault Refusal :=
  runEvent (pkgWf pkg) s (fun s =>
    let p := s.pkg pkg
    if p.linkOpen && decide (tail < p.cmdSize) then fetchCmds p.cmdSize s pkg tail else s)

/-- A ring size of R331: a power of 2 from 16 to 4,096. -/
def ringSize (n : Nat) : Bool := decide (n ∈ [16, 32, 64, 128, 256, 512, 1024, 2048, 4096])

/-- A command fetched before the rings were re-initialised completes with OLD set (R331). -/
def setOld (pkg : Nat) (i : Instr) : Instr :=
  let f : Cmd → Cmd := fun c => { c with old := c.old || decide (c.pkg = pkg) }
  match i with
  | .jobrun c => .jobrun (f c)
  | .countq c => .countq (f c)
  | .cancel c => .cancel (f c)
  | .resync c => .resync (f c)
  | .tlbinvCommand c => .tlbinvCommand (f c)
  | .partset c => .partset (f c)
  | .cfgrd c => .cfgrd (f c)
  | .cfgwr c => .cfgwr (f c)
  | .healthrd c => .healthrd (f c)
  | .bbread c => .bbread (f c)
  | .testnow c => .testnow (f c)
  | .fence c => .fence (f c)
  | i => i

/-- RING_REINIT (R331): nothing for a ring whose size is out of range. -/
def execRingReinit (pkg cmdAddr cmdSize compAddr compSize : Nat) (s : State) : Host.Outcome State Fault Refusal :=
  runEvent (pkgWf pkg) s (fun s =>
    if ringSize cmdSize && ringSize compSize then
      let s := { s with agenda := s.agenda.map (fun (d : Due) => { d with ev := setOld pkg d.ev }) }
      s.modPkg pkg (fun p =>
        { p with cmdAddr := cmdAddr % 2 ^ 64, cmdSize := cmdSize, cmdHead := 0, compAddr := compAddr % 2 ^ 64, compSize := compSize,
                 compTail := 0 })
    else s)

/-! ## Commands (Table 19.3) -/

/-- Whether a RESYNC of a package is in progress: it runs ahead of every other command (R331). -/
def resyncDue (s : State) (pkg : Nat) : Bool :=
  s.agenda.any (fun d => match d.ev with
    | .resync c => decide (c.pkg = pkg)
    | _ => false)

/-- Runs a command that needs a package in step 6 of bring-up, unless early holds (R331). -/
def command (s : State) (i : Instr) (c : Cmd) (op : Nat) (early : Bool) (f : State → State) : State :=
  if decide (op ≠ 4) && resyncDue s c.pkg then emit s i
  else if early || (s.pkg c.pkg).ready then f s
  else complete s c op 5 []

/-- The 64-byte job record at an address, as a job, when every range that Table 17.1 states holds; in each case with the state that
the read leaves. -/
def jobOf (s : State) (pkg part addr : Nat) (mask : Nat) : Except State (Job × State) :=
  match schedRead s pkg part addr 64 with
  | .error e => .error e.2
  | .ok (b, s) =>
    let f := fun o n => leNat ((b.drop o).take n)
    let j : Job := { num := f 0 2, pkg := pkg, part := part, addr := addr, nphase := f 3 1, quota := f 4 2, phaseva := f 8 8,
                     groupva := f 16 8, doneva := f 24 8, streamva := f 32 8 }
    if decide (addr % 64 = 0 ∧ 1 ≤ j.num ∧ f 2 1 = mask ∧ 1 ≤ j.nphase ∧ j.quota ≤ 992)
        && decide (f 6 2 = 0 ∧ f 40 24 = 0 ∧ j.streamva % 65536 = 0) && (s.jobAt j.num pkg).isNone then .ok (j, s) else .error s

/-- The partition whose granules a mask names. -/
def partNamed (p : Package) (mask : Nat) : Option Nat := (List.range 8).find? (fun n => p.partValid n && decide (p.partMask n = mask))

/-- What JOBRUN does (R303). -/
def jobrunAt (s : State) (c : Cmd) : State :=
  match partNamed (s.pkg c.pkg) c.b with
  | none => complete s c 1 3 []
  | some n =>
    if 16 ≤ (s.jobs.filter (fun j => !j.fin && decide (j.pkg = c.pkg ∧ j.part = n))).length then complete s c 1 2 []
    else
      match jobOf s c.pkg n c.a c.b with
      | .error s => complete s c 1 4 []
      | .ok (j, s) =>
        let (groups, s) := readGroups s c.pkg n j.groupva
        let j := { j with groups := groups }
        advance (startPhase (complete { s with jobs := s.jobs ++ [j] } c 1 0 []) j.num j.pkg)

/-- JOBRUN (R303). -/
def execJobrun (c : Cmd) (s : State) : Host.Outcome State Fault Refusal :=
  runEvent (Instr.jobrun c).wf s (fun s => command s (.jobrun c) c 1 false (fun s => jobrunAt s c))

/-- The count and the status of a level by its number (R312, R28); nothing for a number that names none. A phase or a job reads
status 0 while it runs, and then the status of its completion word. -/
def levelCount (s : State) (pkg level n : Nat) : Option (Nat × Nat) :=
  if level = 0 then (s.launchOf n).bind (fun l => if l.pkg = pkg then some (l.left, l.status) else none)
  else if level = 1 then
    (s.graphOf n).bind (fun g =>
      if g.pkg = pkg then some (if g.fin then 0 else g.running + (g.nodes.filter (fun x => decide (x.st = 1))).length, g.status) else none)
  else if level = 2 then
    s.jobs.findSome? (fun j =>
      if j.pkg ≠ pkg then none
      else
        match j.past.find? (fun x => decide (x.1 = n)) with
        | some x => some (0, x.2.1)
        | none => if j.phaseNum = n ∧ j.fin = false then some (j.left, 0) else none)
  else if level = 3 then
    (s.jobRec n pkg).map (fun j =>
      (j.nphase - j.phase, if j.fin then (if j.cancelled then 2 else if j.anyError then 1 else 0) else 0))
  else none

/-- COUNTQ (R312). -/
def execCountq (c : Cmd) (s : State) : Host.Outcome State Fault Refusal :=
  runEvent (Instr.countq c).wf s (fun s => command s (.countq c) c 2 false (fun s =>
    match levelCount s c.pkg c.a c.b with
    | some (n, st) => complete s c 2 0 (leBytes 8 n ++ leBytes 8 st)
    | none => complete s c 2 1 []))

/-- CANCEL (R313): the results report the status of a level that has completed already (R28). -/
def execCancel (c : Cmd) (s : State) : Host.Outcome State Fault Refusal :=
  runEvent (Instr.cancel c).wf s (fun s => command s (.cancel c) c 3 false (fun s =>
    match levelCount s c.pkg c.a c.b with
    | some (_, st) => cancelLevel (complete s c 3 0 (leBytes 8 st)) c.pkg c.a c.b
    | none => complete s c 3 1 []))

/-- Completes a command with results in host memory: FAULT when their write fails, else they are written. -/
def completeMem (s : State) (c : Cmd) (op a : Nat) (data res : List Byte) : State :=
  if Config.hostWriteFails s.tick then complete s c op 7 []
  else complete { s with mem := memWrite s.mem (hostAddr c.pkg a) data } c op 0 res

/-! ## The summary (R335, Table 19.8) -/

/-- A bit map of n bits. -/
def bitMap (n : Nat) (f : Nat → Bool) : Nat := (List.range n).foldl (fun a i => if f i then a + 2 ^ i else a) 0

/-- A partition's row of the summary. -/
def partRow (s : State) (pkg n : Nat) : List Byte :=
  let ts := (pkgTiles pkg).filter (fun r => decide (s.partOf r = some n))
  let busy := (ts.map (fun r => ([0, 1].filter (fun p => (s.plane r p).holds)).length)).sum
  let down := (ts.filter (fun r => (s.pkg pkg).isFenced (epOf r))).length
  leBytes 8 ((s.pkg pkg).part n) ++ leBytes 1 (s.jobs.filter (fun j => !j.fin && decide (j.pkg = pkg ∧ j.part = n))).length
    ++ leBytes 2 busy ++ leBytes 2 down ++ leBytes 19 0

/-- A job's row of the summary. -/
def jobRow (j : Job) : List Byte :=
  leBytes 2 j.num ++ leBytes 1 j.part ++ leBytes 1 j.phase ++ leBytes 4 j.left ++ leBytes 8 j.addr

/-- The launches that wait in a queue of a die. -/
def waitingIn (s : State) (pkg die q : Nat) : Nat :=
  min 255 (s.launches.filter (inQueue s pkg die q)).length

/-- The commands of a package in progress. -/
def inProgress (s : State) (pkg : Nat) : Nat := (s.agenda.filter (fun d => decide (cmdPkg d.ev = some pkg))).length

/-- The summary of a package: 4 KiB. -/
def summary (s : State) (pkg : Nat) : List Byte :=
  let p := s.pkg pkg
  leBytes 2 1 ++ leBytes 2 0x1024 ++ leBytes 4 p.boot ++ leBytes 8 s.podTime ++ leBytes 8 p.devst
    ++ leBytes 4 ((p.cmdHead + p.cmdSize - 1) % p.cmdSize) ++ leBytes 2 (inProgress s pkg) ++ leBytes 2 p.evDropped
    ++ leBytes 4 p.bbSeq ++ leBytes 4 p.bbLost ++ leBytes 24 0
    ++ (List.range 8).flatMap (partRow s pkg)
    ++ (((s.jobs.filter (fun j => !j.fin && decide (j.pkg = pkg))).flatMap jobRow) ++ leBytes 2048 0).take 2048
    ++ (List.range 256).flatMap (fun i => leBytes 1 (waitingIn s pkg (i / 64) (i % 64)))
    ++ leBytes 128 (bitMap 1024 p.isFenced)
    ++ leBytes 16 (bitMap 64 (fun i => p.isSpared (1024 + i)))
    ++ leBytes 32 (bitMap 256 (fun v => p.isFenced (1088 + v)))
    ++ leBytes 128 (bitMap 1024 p.laneFenced)
    ++ leBytes 16 (bitMap 8 p.smcDown)
    ++ (List.range 8).flatMap (fun k => leBytes 8 (ngetD p.counters k 0)) ++ leBytes 64 0 ++ leBytes 1024 0

/-- RESYNC (R335): the records that wait are committed before the summary reports their events (R336); its own record follows. -/
def execResync (c : Cmd) (s : State) : Host.Outcome State Fault Refusal :=
  runEvent (Instr.resync c).wf s (fun s => command s (.resync c) c 4 true (fun s =>
    if c.a % 4096 ≠ 0 then complete s c 4 1 []
    else
      let s := bbCommit s c.pkg
      let q := (s.pkg c.pkg).bbSeq
      blackBox (completeMem s c 4 c.a (summary s c.pkg) []) c.pkg 0x0040 (Config.noUnit 0x0040 c.pkg) (q % 2 ^ 32)))

/-! ## The other commands -/

/-- TLBINV (R327): the entries are dropped once; operand D then holds a number, under which the package keeps the requests that the
command waits for, and it completes when they have ended. -/
def execTlbinvCommand (c : Cmd) (s : State) : Host.Outcome State Fault Refusal :=
  runEvent (Instr.tlbinvCommand c).wf s (fun s => command s (.tlbinvCommand c) c 5 false (fun s =>
    if 8 ≤ c.a then complete s c 5 1 []
    else if (s.pkg c.pkg).partValid c.a = false then complete s c 5 3 []
    else
      match invSpan c.b c.c with
      | none => complete s c 5 1 []
      | some (lo, hi) =>
        match nget (s.pkg c.pkg).invWait c.d with
        | some l =>
          if (stillOut s l).isEmpty then
            complete (s.modPkg c.pkg (fun p => { p with invWait := p.invWait.filter (fun x => decide (x.1 ≠ c.d)) })) c 5 0 []
          else emit s (.tlbinvCommand c)
        | none =>
          let l := translatedIn s c.pkg c.a lo hi
          let s := dropTr s c.pkg c.a lo hi
          if l = [] then complete s c 5 0 []
          else
            let (n, s) := freshId s
            emit (s.modPkg c.pkg (fun p => { p with invWait := nset p.invWait n l })) (.tlbinvCommand { c with d := n })))

/-- PARTn's bits (Table 19.1). -/
def partBits (v : Nat) : Nat := v % 2 ^ 20 + bitsHL v 31 31 * 2 ^ 31

/-- The status of a PARTSET (R328): BADPART before BUSY. -/
def partStatus (s : State) (pkg n v : Nat) : Nat :=
  let p := s.pkg pkg
  let mask := v % 256
  let others := (List.range 8).filter (fun k => decide (k ≠ n) && p.partValid k)
  if (v.testBit 31 && decide (mask = 0)) || others.any (fun k => decide (p.partMask k &&& mask ≠ 0)) then 6
  else if s.busyPart pkg n && decide (partBits v ≠ partBits (p.part n)) then 2
  else 0

/-- PARTSET (R328). -/
def execPartset (c : Cmd) (s : State) : Host.Outcome State Fault Refusal :=
  runEvent (Instr.partset c).wf s (fun s => command s (.partset c) c 6 false (fun s =>
    if 8 ≤ c.a then complete s c 6 1 []
    else
      let st := partStatus s c.pkg c.a c.b
      let s := if st = 0 then s.modPkg c.pkg (fun p => p.setReg (0x100 + 8 * c.a) (partBits c.b)) else s
      complete s c 6 st []))

/-- CFGRD (R330). -/
def execCfgrd (c : Cmd) (s : State) : Host.Outcome State Fault Refusal :=
  runEvent (Instr.cfgrd c).wf s (fun s => command s (.cfgrd c) c 7 true (fun s =>
    match cfgReg c.a with
    | none => complete s c 7 1 []
    | some r =>
      let s := bbCommit s c.pkg
      complete s c 7 0 (leBytes 8 (cfgRead (s.pkg c.pkg) c.a r))))

/-- CFGWR (R329, R330). -/
def execCfgwr (c : Cmd) (s : State) : Host.Outcome State Fault Refusal :=
  runEvent (Instr.cfgwr c).wf s (fun s => command s (.cfgwr c) c 8 false (fun s =>
    let x := cfgWrite s c.pkg c.a c.b
    complete x.2 c 8 x.1 []))

/-- HEALTHRD (R337). -/
def execHealthrd (c : Cmd) (s : State) : Host.Outcome State Fault Refusal :=
  runEvent (Instr.healthrd c).wf s (fun s => command s (.healthrd c) c 9 true (fun s =>
    if c.b + c.c ≤ 2376 then
      let s := bbCommit s c.pkg
      completeMem s c 9 c.a ((List.range c.c).flatMap (fun i => leBytes 8 (s.healthWord c.pkg (c.b + i)))) (leBytes 8 c.c)
    else complete s c 9 1 []))

/-- The records held from a SEQ on: of the last 4,096, those whose SEQ lies in a span of n from it (R336). -/
def heldRecords (p : Package) (first n : Nat) : List Nat :=
  ((List.range (min 4096 p.bbSeq)).map (fun i => p.bbSeq - min 4096 p.bbSeq + i)).filter (fun q =>
    decide (seqDist (first % 2 ^ 32) (q % 2 ^ 32) < n))

/-- BBREAD (R336): the records written, and the first SEQ held. -/
def execBbread (c : Cmd) (s : State) : Host.Outcome State Fault Refusal :=
  runEvent (Instr.bbread c).wf s (fun s => command s (.bbread c) c 10 true (fun s =>
    if 1 ≤ c.c ∧ c.c ≤ 4096 then
      let s := bbCommit s c.pkg
      let p := s.pkg c.pkg
      let l := heldRecords p c.b c.c
      completeMem s c 10 c.a (l.flatMap (fun q => leBytes 32 (ngetD p.bb (q % 4096) 0).toNat))
        (leBytes 8 l.length ++ leBytes 8 ((p.bbSeq - min 4096 p.bbSeq) % 2 ^ 32))
    else complete s c 10 1 []))

/-- TESTNOW (R338). -/
def execTestnow (c : Cmd) (s : State) : Host.Outcome State Fault Refusal :=
  runEvent (Instr.testnow c).wf s (fun s => command s (.testnow c) c 11 false (fun s =>
    if c.a < 2376 then complete (queueTest s c.pkg c.a) c 11 0 [] else complete s c 11 1 []))

/-- FENCE (R339). -/
def execFence (c : Cmd) (s : State) : Host.Outcome State Fault Refusal :=
  runEvent (Instr.fence c).wf s (fun s => command s (.fence c) c 12 false (fun s =>
    if c.a < 2376 then complete (fenceAny s c.pkg c.a 8) c 12 0 [] else complete s c 12 1 []))

/-- RESET (R333): no completion. -/
def execReset (c : Cmd) (s : State) : Host.Outcome State Fault Refusal :=
  runEvent (Instr.reset c).wf s (fun s => command s (.reset c) c 13 true (fun s => resetPkg s c.pkg))

end Sys2Proof.Machine
end

