-- ==== Sys2Proof/Machine/HostMem.lean ====
section
/-! DEFINITION. Device requests to host memory through the host windows (R107, R108, R321; spec/05_memory_model.md,
spec/18_sys_translation.md). -/

namespace Sys2Proof.Machine

/-- The host address of byte i of a request, of the part whose first byte is base. -/
def hostOff (q : Req) (i : Nat) : Nat := Config.windowBase q.pkg (q.dpa / 2 ^ 39) + q.dpa % 2 ^ 39 + (i - q.base)

/-- The address in memory of byte i of a host request. -/
def hostByte (q : Req) (i : Nat) : Nat := hostAddr q.pkg (hostOff q i)

/-- n bytes of host memory from byte i of a request on. -/
def hostRead (s : State) (q : Req) (i n : Nat) : List Byte := (List.range n).map (fun k => memGet s.mem (hostByte q (i + k)))

/-- Writes bytes of host memory from byte i of a request on. -/
def hostWrite (s : State) (q : Req) (i : Nat) (b : List Byte) : State :=
  { s with mem := (List.range b.length).foldl (fun m k => memPut m (hostByte q (i + k)) ((b[k]?).getD 0)) s.mem }

/-- An AtomicOp on host memory: the old value's bytes and the bytes that it writes, if any (R109). -/
def hostAtomic (s : State) (q : Req) (op : Nat) (w : Bool) : List Byte × Option (List Byte) :=
  let n := if w then 16 else 8
  let b := hostRead s q 0 n
  let old := leNat b
  (b, if atomWrites op n old q.a then (atomOp op n old q.a q.b).map (leBytes n) else none)

/-- What a request, or its part, writes whole, when a write that failed was performed all the same. -/
def hostWrites (s : State) (q : Req) : Option (List Byte) :=
  match q.op with
  | .put => some ((q.data.take q.upto).drop q.base)
  | .atom op w => (hostAtomic s q op w).2
  | _ => none

/-- How many bytes of a host request the granule of its next byte holds, up to the end of its part (R97). -/
def hostGran (q : Req) : Nat := min (16 - hostOff q q.done % 16) (q.upto - q.done)

/-- A device request reaches host memory: a GET or a PUT a granule at a time (R97, R237), an atomic whole. -/
def hostAt (s : State) (q : Req) : State :=
  match q.op with
  | .get =>
    let b := hostRead s q q.done (hostGran q)
    let n := q.done + b.length
    if n < q.upto then emit s (.pcieCompletion { q with done := n, data := q.data ++ b })
    else replyTo s { q with data := [] } q.vault stOK 0 (q.data ++ b) n
  | .put =>
    let b := (q.data.drop q.done).take (hostGran q)
    let n := q.done + b.length
    let s := hostWrite s q q.done b
    if n < q.upto then emit s (.pcieCompletion { q with done := n }) else replyTo s q q.vault stOK 0 [] n
  | .atom op w =>
    let x := hostAtomic s q op w
    replyTo (hostWrite s q 0 (x.2.getD [])) q q.vault stOK 0 x.1 x.1.length
  | _ => replyTo s q q.vault stOK 0 [] 0

/-- HOST_WINDOW_REQUEST (R321): the adapter issues the PCIe request, whose completion or failure is then due; a request that
R108 does not allow ends with HATOM. -/
def execHostWindowRequest (q : Req) (s : State) : Host.Outcome State Fault Refusal :=
  runEvent (Instr.hostWindowRequest q).wf s (fun s =>
    match hostRefuses q q.sysatom with
    | some fc => replyTo s q q.vault stFAULT fc [] 0
    | none => emit s (if Config.pcieFails s.tick then .hostCompletionTimeout q else .pcieCompletion q))

/-- PCIE_COMPLETION (R107): a read returns the host's bytes at this moment; a write is visible to every host agent. -/
def execPcieCompletion (q : Req) (s : State) : Host.Outcome State Fault Refusal :=
  runEvent (Instr.pcieCompletion q).wf s (fun s => hostAt s q)

/-- HOST_COMPLETION_TIMEOUT (R321): the request faults with HOSTERR; whether a write was performed all the same is a free
value. -/
def execHostCompletionTimeout (q : Req) (s : State) : Host.Outcome State Fault Refusal :=
  runEvent (Instr.hostCompletionTimeout q).wf s (fun s =>
    match (if Config.pcieWrote s.tick then hostWrites s q else none) with
    | some b => replyTo (hostWrite s q q.base b) q q.vault stFAULT fcHOSTERR [] (q.base + b.length)
    | none => replyTo s q q.vault stFAULT fcHOSTERR [] (keptOf q))

end Sys2Proof.Machine
end

