-- ==== Sys2Proof/Machine/Scalar.lean ====
section
/-! DEFINITION. The S slot's integer, immediate, compare, predicate and index words (spec/09_isa_scalar.md R179 to R184).
Every word runs under its guard (R162), reads its sources before it writes, and marks last uses (R163). -/

namespace Sys2Proof.Machine

/-! ## The operations of Table 9.2 on values -/

/-- The signed product. -/
def sprod (a b : Word) : Int := a.toInt * b.toInt

/-- DIV (R60, R179): towards zero; all ones for a zero divisor; the most negative value by −1 gives itself. -/
def divS (a b : Word) : Word := if b = 0 then BitVec.allOnes 64 else wrap64 (a.toInt.tdiv b.toInt)

/-- DIVN (R60, R179). -/
def divU (a b : Word) : Word := if b = 0 then BitVec.allOnes 64 else BitVec.ofNat 64 (a.toNat / b.toNat)

/-- REM (R60, R179): the sign of the dividend; the dividend for a zero divisor. -/
def remS (a b : Word) : Word := if b = 0 then a else wrap64 (a.toInt.tmod b.toInt)

/-- REMN (R60, R179). -/
def remU (a b : Word) : Word := if b = 0 then a else BitVec.ofNat 64 (a.toNat % b.toNat)

/-- The number of one bits among the low n bits. -/
def popcN (v : Nat) : Nat → Nat
  | 0 => 0
  | n + 1 => (if v.testBit n then 1 else 0) + popcN v n

/-- The number of leading zero bits of an n-bit number. -/
def clzN (v : Nat) : Nat → Nat
  | 0 => 0
  | n + 1 => if v.testBit n then 0 else 1 + clzN v n

/-- A shift count (R179): b[5:0]. -/
def shamt (b : Word) : Nat := b.toNat % 64

/-! ## The shapes of scalar words -/

/-- A word of two sources and one result. -/
def alu3 (f : R3) (s : State) (op : Word → Word → Word) : Host.Outcome State Fault Refusal :=
  runWord 0 f.g s (fun s => do
    let a ← readX s f.ra
    let b ← readX s f.rb
    .ok (setX (killX (killX s f.la f.ra) f.lb f.rb) f.rd (op a b)))

/-- A word of one source and one result. -/
def alu2 (f : R2) (s : State) (op : Word → Word) : Host.Outcome State Fault Refusal :=
  runWord 0 f.g s (fun s => do
    let a ← readX s f.ra
    .ok (setX (killX s f.la f.ra) f.rd (op a)))

/-- A word of one source, an immediate and one result. -/
def aluI (f : I3) (s : State) (op : Word → Word) : Host.Outcome State Fault Refusal :=
  runWord 0 f.g s (fun s => do
    let a ← readX s f.ra
    .ok (setX (killX s f.la f.ra) f.rd (op a)))

/-- A compare of two registers, into a predicate pair (R182). -/
def cmp3 (f : R3) (s : State) (op : Word → Word → Bool) : Host.Outcome State Fault Refusal :=
  runWord 0 f.g s (fun s => do
    let a ← readX s f.ra
    let b ← readX s f.rb
    .ok (setPair (killX (killX s f.la f.ra) f.lb f.rb) f.rd (op a b)))

/-- A compare with an immediate, into a predicate pair (R182). -/
def cmpI (f : I3) (s : State) (op : Word → Bool) : Host.Outcome State Fault Refusal :=
  runWord 0 f.g s (fun s => do
    let a ← readX s f.ra
    .ok (setPair (killX s f.la f.ra) f.rd (op a)))

/-- A predicate operation, which writes pd alone (R183). -/
def pop3 (f : P3) (s : State) (op : Bool → Bool → Bool) : Host.Outcome State Fault Refusal :=
  runWord 0 f.g s (fun s => .ok (setP s f.rd (op (readP s f.ra) (readP s f.rb))))

/-! ## The words -/

/-- ADD (R179). -/
def execAdd (f : R3) (s : State) : Host.Outcome State Fault Refusal := alu3 f s (fun a b => a + b)

/-- SUB (R179). -/
def execSub (f : R3) (s : State) : Host.Outcome State Fault Refusal := alu3 f s (fun a b => a - b)

/-- AND (R179). -/
def execAnd (f : R3) (s : State) : Host.Outcome State Fault Refusal := alu3 f s (fun a b => a &&& b)

/-- OR (R179). -/
def execOr (f : R3) (s : State) : Host.Outcome State Fault Refusal := alu3 f s (fun a b => a ||| b)

/-- XOR (R179). -/
def execXor (f : R3) (s : State) : Host.Outcome State Fault Refusal := alu3 f s (fun a b => a ^^^ b)

/-- SHL (R179). -/
def execShl (f : R3) (s : State) : Host.Outcome State Fault Refusal := alu3 f s (fun a b => a <<< shamt b)

/-- SHR (R179). -/
def execShr (f : R3) (s : State) : Host.Outcome State Fault Refusal := alu3 f s (fun a b => a >>> shamt b)

/-- SRA (R179). -/
def execSra (f : R3) (s : State) : Host.Outcome State Fault Refusal := alu3 f s (fun a b => a.sshiftRight (shamt b))

/-- MUL (R179). -/
def execMul (f : R3) (s : State) : Host.Outcome State Fault Refusal := alu3 f s (fun a b => wrap64 (sprod a b))

/-- MULH (R179). -/
def execMulh (f : R3) (s : State) : Host.Outcome State Fault Refusal := alu3 f s (fun a b => wrap64 (sprod a b / 2 ^ 64))

/-- MULHN (R179). -/
def execMulhn (f : R3) (s : State) : Host.Outcome State Fault Refusal := alu3 f s (fun a b => BitVec.ofNat 64 (a.toNat * b.toNat / 2 ^ 64))

/-- DIV (R179). -/
def execDiv (f : R3) (s : State) : Host.Outcome State Fault Refusal := alu3 f s (fun a b => divS a b)

/-- DIVN (R179). -/
def execDivn (f : R3) (s : State) : Host.Outcome State Fault Refusal := alu3 f s (fun a b => divU a b)

/-- REM (R179). -/
def execRem (f : R3) (s : State) : Host.Outcome State Fault Refusal := alu3 f s (fun a b => remS a b)

/-- REMN (R179). -/
def execRemn (f : R3) (s : State) : Host.Outcome State Fault Refusal := alu3 f s (fun a b => remU a b)

/-- MIN (R179). -/
def execMin (f : R3) (s : State) : Host.Outcome State Fault Refusal := alu3 f s (fun a b => if a.toInt ≤ b.toInt then a else b)

/-- MAX (R179). -/
def execMax (f : R3) (s : State) : Host.Outcome State Fault Refusal := alu3 f s (fun a b => if a.toInt ≤ b.toInt then b else a)

/-- MINN (R179). -/
def execMinn (f : R3) (s : State) : Host.Outcome State Fault Refusal := alu3 f s (fun a b => if a.toNat ≤ b.toNat then a else b)

/-- MAXN (R179). -/
def execMaxn (f : R3) (s : State) : Host.Outcome State Fault Refusal := alu3 f s (fun a b => if a.toNat ≤ b.toNat then b else a)

/-- CLZ (R179). -/
def execClz (f : R2) (s : State) : Host.Outcome State Fault Refusal := alu2 f s (fun a => BitVec.ofNat 64 (clzN a.toNat 64))

/-- POPC (R179). -/
def execPopc (f : R2) (s : State) : Host.Outcome State Fault Refusal := alu2 f s (fun a => BitVec.ofNat 64 (popcN a.toNat 64))

/-- SEL (R180): both sources are read. -/
def execSel (f : RSel) (s : State) : Host.Outcome State Fault Refusal :=
  runWord 0 f.g s (fun s => do
    let a ← readX s f.ra
    let b ← readX s f.rb
    .ok (setX (killX (killX s f.la f.ra) f.lb f.rb) f.rd (if readP s f.pa then a else b)))

/-- ADDI (R181). -/
def execAddi (f : I3) (s : State) : Host.Outcome State Fault Refusal := aluI f s (fun a => a + simm f.imm)

/-- ANDI (R181). -/
def execAndi (f : I3) (s : State) : Host.Outcome State Fault Refusal := aluI f s (fun a => a &&& simm f.imm)

/-- ORI (R181). -/
def execOri (f : I3) (s : State) : Host.Outcome State Fault Refusal := aluI f s (fun a => a ||| simm f.imm)

/-- XORI (R181). -/
def execXori (f : I3) (s : State) : Host.Outcome State Fault Refusal := aluI f s (fun a => a ^^^ simm f.imm)

/-- SHLI (R181). -/
def execShli (f : I3) (s : State) : Host.Outcome State Fault Refusal := aluI f s (fun a => a <<< f.imm.raw)

/-- SHRI (R181). -/
def execShri (f : I3) (s : State) : Host.Outcome State Fault Refusal := aluI f s (fun a => a >>> f.imm.raw)

/-- SRAI (R181). -/
def execSrai (f : I3) (s : State) : Host.Outcome State Fault Refusal := aluI f s (fun a => a.sshiftRight f.imm.raw)

/-- LIMMS (R181). -/
def execLimms (f : I3) (s : State) : Host.Outcome State Fault Refusal := aluI f s (fun a => (a <<< 16) ||| zimm f.imm)

/-- LIMM (R181). -/
def execLimm (f : ID) (s : State) : Host.Outcome State Fault Refusal :=
  runWord 0 f.g s (fun s => .ok (setX s f.rd (zimm f.imm)))

/-- CmpEq (R182). -/
def execCmpEq (f : R3) (s : State) : Host.Outcome State Fault Refusal := cmp3 f s (fun a b => decide (a = b))

/-- CmpLt (R182). -/
def execCmpLt (f : R3) (s : State) : Host.Outcome State Fault Refusal := cmp3 f s (fun a b => decide (a.toInt < b.toInt))

/-- CmpLtn (R182). -/
def execCmpLtn (f : R3) (s : State) : Host.Outcome State Fault Refusal := cmp3 f s (fun a b => decide (a.toNat < b.toNat))

/-- CmpLe (R182). -/
def execCmpLe (f : R3) (s : State) : Host.Outcome State Fault Refusal := cmp3 f s (fun a b => decide (a.toInt ≤ b.toInt))

/-- CmpLen (R182). -/
def execCmpLen (f : R3) (s : State) : Host.Outcome State Fault Refusal := cmp3 f s (fun a b => decide (a.toNat ≤ b.toNat))

/-- CmpiEq (R182). -/
def execCmpiEq (f : I3) (s : State) : Host.Outcome State Fault Refusal := cmpI f s (fun a => decide (a = simm f.imm))

/-- CmpiLt (R182). -/
def execCmpiLt (f : I3) (s : State) : Host.Outcome State Fault Refusal := cmpI f s (fun a => decide (a.toInt < (simm f.imm).toInt))

/-- CmpiLe (R182). -/
def execCmpiLe (f : I3) (s : State) : Host.Outcome State Fault Refusal := cmpI f s (fun a => decide (a.toInt ≤ (simm f.imm).toInt))

/-- PAND (R183). -/
def execPand (f : P3) (s : State) : Host.Outcome State Fault Refusal := pop3 f s (fun a b => a && b)

/-- POR (R183). -/
def execPor (f : P3) (s : State) : Host.Outcome State Fault Refusal := pop3 f s (fun a b => a || b)

/-- PXOR (R183). -/
def execPxor (f : P3) (s : State) : Host.Outcome State Fault Refusal := pop3 f s (fun a b => a != b)

/-- PMOV (R183). -/
def execPmov (f : P2) (s : State) : Host.Outcome State Fault Refusal :=
  runWord 0 f.g s (fun s => .ok (setP s f.rd (readP s f.ra)))

/-- IXSET (R184). -/
def execIxset (f : IX) (s : State) : Host.Outcome State Fault Refusal :=
  runWord 0 f.g s (fun s => .ok (setI s f.rd (BitVec.ofInt 8 (f.imm.sval 10 9))))

/-- IXADD (R184): wraps modulo 2^8. -/
def execIxadd (f : IX) (s : State) : Host.Outcome State Fault Refusal :=
  runWord 0 f.g s (fun s => .ok (setI s f.rd (readI s f.rd + BitVec.ofInt 8 (f.imm.sval 10 9))))

/-- IXGET (R184). -/
def execIxget (f : IXG) (s : State) : Host.Outcome State Fault Refusal :=
  runWord 0 f.g s (fun s => .ok (setX s f.rd ((readI s f.ra).signExtend 64)))

end Sys2Proof.Machine
end

