-- ==== Sys2Proof/Machine/Dispatch.lean ====
section
/-! DEFINITION. One arm per constructor of Instr, each a direct call of its meaning. -/

namespace Sys2Proof.Machine

/-- What an instruction or step does. -/
def exec (i : Instr) (s : State) : Host.Outcome State Fault Refusal :=
  match i with
  | .add f => Sys2Proof.Machine.execAdd f s
  | .sub f => Sys2Proof.Machine.execSub f s
  | .and f => Sys2Proof.Machine.execAnd f s
  | .or f => Sys2Proof.Machine.execOr f s
  | .xor f => Sys2Proof.Machine.execXor f s
  | .shl f => Sys2Proof.Machine.execShl f s
  | .shr f => Sys2Proof.Machine.execShr f s
  | .sra f => Sys2Proof.Machine.execSra f s
  | .mul f => Sys2Proof.Machine.execMul f s
  | .mulh f => Sys2Proof.Machine.execMulh f s
  | .mulhn f => Sys2Proof.Machine.execMulhn f s
  | .div f => Sys2Proof.Machine.execDiv f s
  | .divn f => Sys2Proof.Machine.execDivn f s
  | .rem f => Sys2Proof.Machine.execRem f s
  | .remn f => Sys2Proof.Machine.execRemn f s
  | .min f => Sys2Proof.Machine.execMin f s
  | .max f => Sys2Proof.Machine.execMax f s
  | .minn f => Sys2Proof.Machine.execMinn f s
  | .maxn f => Sys2Proof.Machine.execMaxn f s
  | .clz f => Sys2Proof.Machine.execClz f s
  | .popc f => Sys2Proof.Machine.execPopc f s
  | .sel f => Sys2Proof.Machine.execSel f s
  | .yield f => Sys2Proof.Machine.execYield f s
  | .addi f => Sys2Proof.Machine.execAddi f s
  | .andi f => Sys2Proof.Machine.execAndi f s
  | .ori f => Sys2Proof.Machine.execOri f s
  | .xori f => Sys2Proof.Machine.execXori f s
  | .shli f => Sys2Proof.Machine.execShli f s
  | .shri f => Sys2Proof.Machine.execShri f s
  | .srai f => Sys2Proof.Machine.execSrai f s
  | .limm f => Sys2Proof.Machine.execLimm f s
  | .limms f => Sys2Proof.Machine.execLimms f s
  | .cmpEq f => Sys2Proof.Machine.execCmpEq f s
  | .cmpLt f => Sys2Proof.Machine.execCmpLt f s
  | .cmpLtn f => Sys2Proof.Machine.execCmpLtn f s
  | .cmpLe f => Sys2Proof.Machine.execCmpLe f s
  | .cmpLen f => Sys2Proof.Machine.execCmpLen f s
  | .cmpiEq f => Sys2Proof.Machine.execCmpiEq f s
  | .cmpiLt f => Sys2Proof.Machine.execCmpiLt f s
  | .cmpiLe f => Sys2Proof.Machine.execCmpiLe f s
  | .pand f => Sys2Proof.Machine.execPand f s
  | .por f => Sys2Proof.Machine.execPor f s
  | .pxor f => Sys2Proof.Machine.execPxor f s
  | .pmov f => Sys2Proof.Machine.execPmov f s
  | .ixset f => Sys2Proof.Machine.execIxset f s
  | .ixadd f => Sys2Proof.Machine.execIxadd f s
  | .ixget f => Sys2Proof.Machine.execIxget f s
  | .br f => Sys2Proof.Machine.execBr f s
  | .bri f => Sys2Proof.Machine.execBri f s
  | .call f => Sys2Proof.Machine.execCall f s
  | .ret f => Sys2Proof.Machine.execRet f s
  | .loop f => Sys2Proof.Machine.execLoop f s
  | .exit f => Sys2Proof.Machine.execExit f s
  | .arrive f => Sys2Proof.Machine.execArrive f s
  | .wait f => Sys2Proof.Machine.execWait f s
  | .waitf f => Sys2Proof.Machine.execWaitf f s
  | .hbeat f => Sys2Proof.Machine.execHbeat f s
  | .csrr f => Sys2Proof.Machine.execCsrr f s
  | .csrw f => Sys2Proof.Machine.execCsrw f s
  | .trap f => Sys2Proof.Machine.execTrap f s
  | .moncall f => Sys2Proof.Machine.execMoncall f s
  | .tret f => Sys2Proof.Machine.execTret f s
  | .planesw f => Sys2Proof.Machine.execPlanesw f s
  | .ctxsave f => Sys2Proof.Machine.execCtxsave f s
  | .ctxload f => Sys2Proof.Machine.execCtxload f s
  | .tlbinv f => Sys2Proof.Machine.execTlbinv f s
  | .fenceall f => Sys2Proof.Machine.execFenceall f s
  | .divert f => Sys2Proof.Machine.execDivert f s
  | .resume f => Sys2Proof.Machine.execResume f s
  | .lendHeader h => Sys2Proof.Machine.execLendHeader h s
  | .idleHeader y n => Sys2Proof.Machine.execIdleHeader y n s
  | .vadd f => Sys2Proof.Machine.execVadd f s
  | .vsub f => Sys2Proof.Machine.execVsub f s
  | .vmul f => Sys2Proof.Machine.execVmul f s
  | .vfma f => Sys2Proof.Machine.execVfma f s
  | .vfms f => Sys2Proof.Machine.execVfms f s
  | .vmin f => Sys2Proof.Machine.execVmin f s
  | .vmax f => Sys2Proof.Machine.execVmax f s
  | .vminn f => Sys2Proof.Machine.execVminn f s
  | .vmaxn f => Sys2Proof.Machine.execVmaxn f s
  | .vabs f => Sys2Proof.Machine.execVabs f s
  | .vneg f => Sys2Proof.Machine.execVneg f s
  | .vdiv f => Sys2Proof.Machine.execVdiv f s
  | .vsqrt f => Sys2Proof.Machine.execVsqrt f s
  | .vrcp f => Sys2Proof.Machine.execVrcp f s
  | .vrsq f => Sys2Proof.Machine.execVrsq f s
  | .vexp2 f => Sys2Proof.Machine.execVexp2 f s
  | .vand f => Sys2Proof.Machine.execVand f s
  | .vor f => Sys2Proof.Machine.execVor f s
  | .vxor f => Sys2Proof.Machine.execVxor f s
  | .vshl f => Sys2Proof.Machine.execVshl f s
  | .vshr f => Sys2Proof.Machine.execVshr f s
  | .vsra f => Sys2Proof.Machine.execVsra f s
  | .vcmpEq f => Sys2Proof.Machine.execVcmpEq f s
  | .vcmpLt f => Sys2Proof.Machine.execVcmpLt f s
  | .vcmpLe f => Sys2Proof.Machine.execVcmpLe f s
  | .vcmpLtn f => Sys2Proof.Machine.execVcmpLtn f s
  | .vcmpUn f => Sys2Proof.Machine.execVcmpUn f s
  | .vsel f => Sys2Proof.Machine.execVsel f s
  | .vcvt f => Sys2Proof.Machine.execVcvt f s
  | .vmov f => Sys2Proof.Machine.execVmov f s
  | .vbcast f => Sys2Proof.Machine.execVbcast f s
  | .vins f => Sys2Proof.Machine.execVins f s
  | .vext f => Sys2Proof.Machine.execVext f s
  | .vperm f => Sys2Proof.Machine.execVperm f s
  | .vshuf2 f => Sys2Proof.Machine.execVshuf2 f s
  | .vrot f => Sys2Proof.Machine.execVrot f s
  | .vslide f => Sys2Proof.Machine.execVslide f s
  | .vredadd f => Sys2Proof.Machine.execVredadd f s
  | .vredmax f => Sys2Proof.Machine.execVredmax f s
  | .vredmin f => Sys2Proof.Machine.execVredmin f s
  | .vdot4 f => Sys2Proof.Machine.execVdot4 f s
  | .vidx f => Sys2Proof.Machine.execVidx f s
  | .vclass f => Sys2Proof.Machine.execVclass f s
  | .vpopc f => Sys2Proof.Machine.execVpopc f s
  | .vlimm f => Sys2Proof.Machine.execVlimm f s
  | .ld f => Sys2Proof.Machine.execLd f s
  | .st f => Sys2Proof.Machine.execSt f s
  | .vld f => Sys2Proof.Machine.execVld f s
  | .vst f => Sys2Proof.Machine.execVst f s
  | .vlds f => Sys2Proof.Machine.execVlds f s
  | .vsts f => Sys2Proof.Machine.execVsts f s
  | .vgath f => Sys2Proof.Machine.execVgath f s
  | .vscat f => Sys2Proof.Machine.execVscat f s
  | .copy f => Sys2Proof.Machine.execCopy f s
  | .copym f => Sys2Proof.Machine.execCopym f s
  | .copyq f => Sys2Proof.Machine.execCopyq f s
  | .copyx f => Sys2Proof.Machine.execCopyx f s
  | .send f => Sys2Proof.Machine.execSend f s
  | .sendr f => Sys2Proof.Machine.execSendr f s
  | .sendm f => Sys2Proof.Machine.execSendm f s
  | .recv f => Sys2Proof.Machine.execRecv f s
  | .recvf f => Sys2Proof.Machine.execRecvf f s
  | .rcancel f => Sys2Proof.Machine.execRcancel f s
  | .probe f => Sys2Proof.Machine.execProbe f s
  | .mstat f => Sys2Proof.Machine.execMstat f s
  | .get f => Sys2Proof.Machine.execGet f s
  | .put f => Sys2Proof.Machine.execPut f s
  | .atom f => Sys2Proof.Machine.execAtom f s
  | .red f => Sys2Proof.Machine.execRed f s
  | .redf f => Sys2Proof.Machine.execRedf f s
  | .fship f => Sys2Proof.Machine.execFship f s
  | .query f => Sys2Proof.Machine.execQuery f s
  | .tdset f => Sys2Proof.Machine.execTdset f s
  | .mma f => Sys2Proof.Machine.execMma f s
  | .mzero f => Sys2Proof.Machine.execMzero f s
  | .mldacc f => Sys2Proof.Machine.execMldacc f s
  | .mstacc f => Sys2Proof.Machine.execMstacc f s
  | .msend f => Sys2Proof.Machine.execMsend f s
  | .fenceP f => Sys2Proof.Machine.execFenceP f s
  | .fenceS f => Sys2Proof.Machine.execFenceS f s
  | .lease f => Sys2Proof.Machine.execLease f s
  | .unlease f => Sys2Proof.Machine.execUnlease f s
  | .leaseq f => Sys2Proof.Machine.execLeaseq f s
  | .slotq f => Sys2Proof.Machine.execSlotq f s
  | .flclr f => Sys2Proof.Machine.execFlclr f s
  | .flset f => Sys2Proof.Machine.execFlset f s
  | .monitorWatchdogExpiry rank => Sys2Proof.Machine.execMonitorWatchdogExpiry rank s
  | .hbmiss rank => Sys2Proof.Machine.execHbmiss rank s
  | .dualTimeout rank plane => Sys2Proof.Machine.execDualTimeout rank plane s
  | .messageArrival m => Sys2Proof.Machine.execMessageArrival m s
  | .refusalArrival a => Sys2Proof.Machine.execRefusalArrival a s
  | .sendRetry a => Sys2Proof.Machine.execSendRetry a s
  | .abandon m => Sys2Proof.Machine.execAbandon m s
  | .pullRequest p => Sys2Proof.Machine.execPullRequest p s
  | .deliveryComplete rank plane did => Sys2Proof.Machine.execDeliveryComplete rank plane did s
  | .sendAcknowledgement a => Sys2Proof.Machine.execSendAcknowledgement a s
  | .discardNotice a => Sys2Proof.Machine.execDiscardNotice a s
  | .fenceNotice fenced tile => Sys2Proof.Machine.execFenceNotice fenced tile s
  | .arriveSignalRelease rank plane => Sys2Proof.Machine.execArriveSignalRelease rank plane s
  | .barrierPhaseComplete launch group => Sys2Proof.Machine.execBarrierPhaseComplete launch group s
  | .conflictNotice rank plane number => Sys2Proof.Machine.execConflictNotice rank plane number s
  | .escrowDrainEnd rank plane => Sys2Proof.Machine.execEscrowDrainEnd rank plane s
  | .releaseFlit f => Sys2Proof.Machine.execReleaseFlit f s
  | .releaseFlitAck f => Sys2Proof.Machine.execReleaseFlitAck f s
  | .vaultGet r => Sys2Proof.Machine.execVaultGet r s
  | .vaultPut r => Sys2Proof.Machine.execVaultPut r s
  | .vaultAtom r => Sys2Proof.Machine.execVaultAtom r s
  | .vaultRed r => Sys2Proof.Machine.execVaultRed r s
  | .vaultRedf r => Sys2Proof.Machine.execVaultRedf r s
  | .vaultFship r => Sys2Proof.Machine.execVaultFship r s
  | .vaultQuery r => Sys2Proof.Machine.execVaultQuery r s
  | .hopRequest q => Sys2Proof.Machine.execHopRequest q s
  | .distanceRequest q => Sys2Proof.Machine.execDistanceRequest q s
  | .querySearchEnd home qid => Sys2Proof.Machine.execQuerySearchEnd home qid s
  | .vaultReply p => Sys2Proof.Machine.execVaultReply p s
  | .rnrRetry r => Sys2Proof.Machine.execRnrRetry r s
  | .hostAtomic h => Sys2Proof.Machine.execHostAtomic h s
  | .hostCompletionTimeout r => Sys2Proof.Machine.execHostCompletionTimeout r s
  | .pageWalkEnd r => Sys2Proof.Machine.execPageWalkEnd r s
  | .copyStart rank plane ch => Sys2Proof.Machine.execCopyStart rank plane ch s
  | .copyComplete rank plane ch => Sys2Proof.Machine.execCopyComplete rank plane ch s
  | .mmaStep rank plane bad => Sys2Proof.Machine.execMmaStep rank plane bad s
  | .matrixOpComplete rank plane => Sys2Proof.Machine.execMatrixOpComplete rank plane s
  | .msendSnapshot rank plane => Sys2Proof.Machine.execMsendSnapshot rank plane s
  | .preemptInterrupt rank plane => Sys2Proof.Machine.execPreemptInterrupt rank plane s
  | .preempt rank => Sys2Proof.Machine.execPreempt rank s
  | .cancelInterrupt rank plane launch => Sys2Proof.Machine.execCancelInterrupt rank plane launch s
  | .spillHeadReadmit rank plane => Sys2Proof.Machine.execSpillHeadReadmit rank plane s
  | .taskEnd rank plane => Sys2Proof.Machine.execTaskEnd rank plane s
  | .planeFree rank plane => Sys2Proof.Machine.execPlaneFree rank plane s
  | .placementDecision pkg die => Sys2Proof.Machine.execPlacementDecision pkg die s
  | .loadComplete rank plane => Sys2Proof.Machine.execLoadComplete rank plane s
  | .windowStart rank => Sys2Proof.Machine.execWindowStart rank s
  | .graphNodeEval pkg graph => Sys2Proof.Machine.execGraphNodeEval pkg graph s
  | .leaseServe pkg => Sys2Proof.Machine.execLeaseServe pkg s
  | .leaseRetuneEnd pkg lease => Sys2Proof.Machine.execLeaseRetuneEnd pkg lease s
  | .leaseExpiry pkg lease => Sys2Proof.Machine.execLeaseExpiry pkg lease s
  | .leaseRevocation pkg donor => Sys2Proof.Machine.execLeaseRevocation pkg donor s
  | .slotStart pkg slot => Sys2Proof.Machine.execSlotStart pkg slot s
  | .modeSwitch pkg => Sys2Proof.Machine.execModeSwitch pkg s
  | .podTimeBeacon pkg ns => Sys2Proof.Machine.execPodTimeBeacon pkg ns s
  | .crcReplay pkg lane => Sys2Proof.Machine.execCrcReplay pkg lane s
  | .transportAbandon a => Sys2Proof.Machine.execTransportAbandon a s
  | .refreshTakeover pkg stack => Sys2Proof.Machine.execRefreshTakeover pkg stack s
  | .smcRestart pkg stack ok => Sys2Proof.Machine.execSmcRestart pkg stack ok s
  | .smcup pkg stack => Sys2Proof.Machine.execSmcup pkg stack s
  | .refreshSplit vault => Sys2Proof.Machine.execRefreshSplit vault s
  | .pageMove pkg hot cold => Sys2Proof.Machine.execPageMove pkg hot cold s
  | .pageMoveEnd pkg hot cold => Sys2Proof.Machine.execPageMoveEnd pkg hot cold s
  | .fieldTest pkg entry pass => Sys2Proof.Machine.execFieldTest pkg entry pass s
  | .spareRepair pkg entry => Sys2Proof.Machine.execSpareRepair pkg entry s
  | .throttle pkg trigger lower => Sys2Proof.Machine.execThrottle pkg trigger lower s
  | .thermtrip pkg temp => Sys2Proof.Machine.execThermtrip pkg temp s
  | .powerOn pkg failStep code => Sys2Proof.Machine.execPowerOn pkg failStep code s
  | .powerLoss pkg => Sys2Proof.Machine.execPowerLoss pkg s
  | .doorbell pkg tail => Sys2Proof.Machine.execDoorbell pkg tail s
  | .ringReinit pkg cmdAddr cmdSize compAddr compSize => Sys2Proof.Machine.execRingReinit pkg cmdAddr cmdSize compAddr compSize s
  | .jobrun c => Sys2Proof.Machine.execJobrun c s
  | .countq c => Sys2Proof.Machine.execCountq c s
  | .cancel c => Sys2Proof.Machine.execCancel c s
  | .resync c => Sys2Proof.Machine.execResync c s
  | .tlbinvCommand c => Sys2Proof.Machine.execTlbinvCommand c s
  | .partset c => Sys2Proof.Machine.execPartset c s
  | .cfgrd c => Sys2Proof.Machine.execCfgrd c s
  | .cfgwr c => Sys2Proof.Machine.execCfgwr c s
  | .healthrd c => Sys2Proof.Machine.execHealthrd c s
  | .bbread c => Sys2Proof.Machine.execBbread c s
  | .testnow c => Sys2Proof.Machine.execTestnow c s
  | .fence c => Sys2Proof.Machine.execFence c s
  | .reset c => Sys2Proof.Machine.execReset c s
  | .slottedSet pkg value => Sys2Proof.Machine.execSlottedSet pkg value s
  | .slottedClear pkg value => Sys2Proof.Machine.execSlottedClear pkg value s
  | .slotTableWrite pkg n value => Sys2Proof.Machine.execSlotTableWrite pkg n value s
  | .rangeEntryWrite pkg p n value => Sys2Proof.Machine.execRangeEntryWrite pkg p n value s
  | .routineEntryWrite pkg vault word value => Sys2Proof.Machine.execRoutineEntryWrite pkg vault word value s
  | .ptrootWrite pkg p value => Sys2Proof.Machine.execPtrootWrite pkg p value s
  | .replaceClear pkg => Sys2Proof.Machine.execReplaceClear pkg s
  | .plimitWrite pkg value => Sys2Proof.Machine.execPlimitWrite pkg value s
  | .lseedWrite pkg die value => Sys2Proof.Machine.execLseedWrite pkg die value s
  | .srseedWrite rank plane value => Sys2Proof.Machine.execSrseedWrite rank plane value s
  | .scancelWrite rank value => Sys2Proof.Machine.execScancelWrite rank value s
  | .txvalWrite rank value => Sys2Proof.Machine.execTxvalWrite rank value s
  | .registerWrite pkg addr value => Sys2Proof.Machine.execRegisterWrite pkg addr value s
  | .watermarkAdvance rank plane ch => Sys2Proof.Machine.execWatermarkAdvance rank plane ch s
  | .payloadLineLands rank plane did => Sys2Proof.Machine.execPayloadLineLands rank plane did s
  | .hostWindowRequest r => Sys2Proof.Machine.execHostWindowRequest r s
  | .pcieCompletion r => Sys2Proof.Machine.execPcieCompletion r s
  | .laneManagerAnswer l => Sys2Proof.Machine.execLaneManagerAnswer l s
  | .limitWindowEnd pkg hour => Sys2Proof.Machine.execLimitWindowEnd pkg hour s

end Sys2Proof.Machine
end

