-- ==== Sys2Proof/Machine/Run.lean ====
section
/-! DEFINITION. Running a bundle: fetch and framing (R21, R151 to R156), the words in the order S, V, M with the choice of
one cause among several (R162, R169), the end of the bundle (R14, R163, R185), and the boundary at which asynchronous
causes are taken (R292). -/

namespace Sys2Proof.Machine

/-- A word of the code that runs: the monitor store at the monitor level, else the running plane (R21, R288). -/
def codeWord (s : State) (a : Nat) : Nat :=
  leNat (memRead s.mem (if s.mon then monAddr s.cur a else codeAddr s.cur s.ctxP a) 4)

/-- The address at which fetch stands. -/
def fetchPc (s : State) : Nat := if s.mon then s.curTile.mpc else s.regs.pc

/-- Frames the bundle at an address of the code that runs. -/
def frame (s : State) (a : Nat) : Except TrapInfo Frame := frameAt (codeWord s) (fetchLimit s) a

/-- The SYS words, which are privileged (R165). -/
def isSys : Instr → Bool
  | .tret _ => true
  | .planesw _ => true
  | .ctxsave _ => true
  | .ctxload _ => true
  | .tlbinv _ => true
  | .fenceall _ => true
  | .divert _ => true
  | .resume _ => true
  | _ => false

/-- The decode cause of a decoded word at a level: PRIV for SYS words, and a CSR number's cause (R165, R169, R193). -/
def privCause (mon : Bool) (i : Instr) : Option Nat :=
  match i with
  | .csrr f => csrCause mon f.csr
  | .csrw f => csrCause mon f.csr
  | i => if isSys i && !mon then some cPRIV else none

/-- Whether a bundle has trapped FETCHEND by the target of a branch, which ranks before every cause of a later word (R158, R169). -/
def fetchEnded (s : State) : Bool :=
  match s.bundle.status with
  | .trapped t => decide (t.cause = cFETCHEND)
  | _ => false

/-- The guard and the level of a word are looked at in the state that the words before it have made (R162): what a trap or a stall
of one of them has done to the state is no effect of the bundle. -/
def viewAfter (v s : State) : State := if s.bundle.status = .running then s else v

/-- Runs the slot words in order, in s; v is the state in which the next word's guard and level are read. A word whose guard is false
has no effect. The first decode cause ends the bundle with that cause, which outranks an execution cause of an earlier word, but for
a FETCHEND (R169); otherwise the first execution cause stands. A decode cause traps although an earlier word of its bundle stalls:
R169 ranks causes alone (DESIGN CHOICE, log entry 80). The answer is the state and the decode trap. -/
def runSlots (l : Option Lend) : List (Nat × Nat) → State → State → Host.Outcome (State × Option TrapInfo) Fault Refusal
  | [], _, s => .next (s, none)
  | (c, w) :: r, v, s =>
    if readP v (w / 2 ^ 27 % 8) = false then runSlots l r v s
    else
      match decodeWord w (l.map (fun h => h.forCls c)) with
      | .error _ => .next (s, some { cause := cILLEGAL, slot := c, info := BitVec.ofNat 64 w })
      | .ok i =>
        match privCause v.mon i with
        | some k => .next (s, some { cause := k, slot := c, info := BitVec.ofNat 64 w })
        | none =>
          match exec i s with
          | .next t => if fetchEnded t then .next (t, none) else runSlots l r (viewAfter v t) t
          | .fault f => .fault f
          | .refused x => .refused x

/-- Whether a word is a TRET. -/
def isTret (w : Nat) (l : Option Nat) : Bool :=
  match decodeWord w l with
  | .ok (.tret _) => true
  | _ => false

/-- The words of a bundle in the order in which they run: a TRET at the monitor level comes last, so that its bundle's other words
still act on the monitor's side of it (R296: DEDUCED, log entry 94). -/
def runOrder (mon : Bool) (f : Frame) : List (Nat × Nat) :=
  match f.ws with
  | (c, w) :: r => if mon && isTret w (f.lend.map (fun h => h.forCls c)) then r ++ [(c, w)] else (c, w) :: r
  | [] => []

/-- Sets the address at which fetch stands. -/
def setPc (s : State) (a : Nat) : State :=
  if s.mon then s.modTile s.cur (fun t => { t with mpc := a }) else s.modRegs (fun r => { r with pc := a })

/-- The end of a YIELD bundle: the arbiter's decision, or in a DUAL pair the comparison with the partner's YIELD, for which the plane
waits (R46, R188). -/
def endYield (s : State) (n : Nat) : State :=
  if s.ctx.task.dual then pushDual (s.modCtx (fun pl => { pl with yieldWait := true })) s.cur s.ctxP (.yield n)
  else yieldTile s s.cur s.ctxP n

/-- The end of a bundle that ran: marks, the PC, and a YIELD's declaration. A bundle that took the tile to another level or
plane has set the PC itself. -/
def endBundle (s : State) : State :=
  let b := s.bundle
  if b.moved then { s with bundle := {} }
  else
    let s := setPc (applyKills s) (b.jump.getD b.next)
    let s := match b.yielding with
      | some n => if s.mon then s else endYield s n
      | none => s
    { s with bundle := {} }

/-- An overflow of the speculation hardware is counted once for each stall (R44). -/
def countOverflow (s : State) : State :=
  s.modCtx (fun p =>
    match p.spec with
    | some sp =>
      if sp.counted then p
      else { p with spec := some { sp with counted := true }, regs := { p.regs with specst := bumpSpecst p.regs.specst 48 } }
    | none => p)

/-- A completed bundle ends the stall that an overflow began. -/
def clearOverflow (s : State) : State :=
  s.modCtx (fun p =>
    match p.spec with
    | some sp => { p with spec := some { sp with counted := false } }
    | none => p)

/-- What an access of the spill area that ended a CALL or a RET in CALLSPILL has left outside the task, which is as before the bundle:
the translations that it took, a memory error that it found and counted (R187, R326, R337), and what a host write that failed may
have written (R321). -/
def spillAfter (s : State) (k : TrapInfo) : State :=
  if k.cause ≠ cCALLSPILL then s
  else if k.detail = 2 then
    (spillWrite s s.cur s.ctx (s.ctx.task.spillva + 2 * (s.regs.rsdepth - 16)) (leBytes 2 ((s.bank.ret.getLast?).getD 0))).1
  else if k.detail = 3 then
    match spillRead s s.cur s.ctx (s.ctx.task.spillva + 2 * (s.regs.rsdepth - 1)) 2 with
    | .error x => x.2
    | .ok _ => s
  else s

/-- What becomes of a bundle: s is the state before it, e the state after its words, t the decode trap (R14). -/
def settle (s e : State) (t : Option TrapInfo) : State :=
  let trap := fun (k : TrapInfo) =>
    if !s.mon && s.ctx.spec.isSome then s
    else { takeTrap (spillAfter s k) k e.bundle.start e.bundle.next with bundle := {} }
  match t with
  | some k => trap k
  | none =>
    match e.bundle.status with
    | .running => clearOverflow (endBundle e)
    | .stalled => s
    | .overflow => countOverflow s
    | .held => { e with bundle := {} }
    | .trapped k => trap k

/-- The words of a bundle that run: of one with a bad header the S word alone, whose transfer may outrank the header (R169). -/
def Frame.runs (f : Frame) (mon : Bool) : List (Nat × Nat) :=
  match f.bad with
  | none => runOrder mon f
  | some _ => f.ws.filter (fun w => decide (w.1 = 0))

/-- The trap of a bundle's decoding: a bad header's, unless a branch's target has ended fetch before it (R169), or a word's. -/
def Frame.cause (f : Frame) (e : State) (t : Option TrapInfo) : Option TrapInfo :=
  match f.bad with
  | none => t
  | some k => if fetchEnded e then none else some k

/-- Runs the bundle at which fetch stands, at the current tile. -/
def runBundle (s : State) : Host.Outcome State Fault Refusal :=
  let a := fetchPc s
  let s := { s with bundle := {} }
  match frame s a with
  | .error t =>
    .next (if !s.mon && s.ctx.spec.isSome then s else takeTrap s t a (Config.npc s.tick))
  | .ok f =>
    let b := { s with bundle := { start := a, next := f.next } }
    let h := match f.hdr with
      | some i => exec i b
      | none => .next b
    match h with
    | .next b =>
      match runSlots f.lend (f.runs b.mon) b b with
      | .next (e, t) => .next (settle s { e with bundle := { e.bundle with start := a, next := f.next } } (f.cause e t))
      | .fault x => .fault x
      | .refused x => .refused x
    | .fault x => .fault x
    | .refused x => .refused x

/-- The asynchronous cause that a tile takes at a boundary, as the step that takes it, in the order of R292: HBMISS,
DUALMISMATCH, PREEMPT, and a pending cancel. Nothing asynchronous is taken at the monitor level (R289). -/
def boundaryCause (s : State) (r : Nat) : Option Instr :=
  let t := s.tile r
  if t.fenced ∨ t.monitor = true then none
  else if t.running.any (fun p => (t.pl p).missed) then some (.hbmiss r)
  else if t.dualDue.isSome then some (.dualTimeout r ((t.dualDue.map (·.1)).getD 0))
  else if t.plane0.preemptDue.isSome ∨ t.plane1.preemptDue.isSome then some (.preempt r)
  else if t.plane0.cancel then some (.cancelInterrupt r 0 t.plane0.task.launch)
  else if t.plane1.cancel then some (.cancelInterrupt r 1 t.plane1.task.launch)
  else none

/-- One step of the tile r: an asynchronous cause, or a bundle, or a decision on an idle tile, or nothing while the tile is
fenced, unless its monitor runs after a heartbeat miss (R35), or waits for the end of an EXIT or for a DUAL partner's YIELD. -/
def tileStep (s : State) (r : Nat) : Host.Outcome State Fault Refusal :=
  let s := { s with cur := r }
  let t := s.tile r
  if (t.fenced && !t.monitor) ∨ 1024 ≤ epOf r then .next s
  else
    match boundaryCause s r with
    | some i => exec i s
    | none =>
      if t.monitor then runBundle s
      else
        match t.running with
        | none => .next (decideTile s r none)
        | some _ => if s.ctx.exiting.isSome || s.ctx.yieldWait then .next s else runBundle s

/-! ## Time and turns -/

/-- The windows of a tile after n clk: those that end in them age the planes, up to the bound of PASS (R310). -/
def Tile.passWindows (t : Tile) (n : Nat) : Tile :=
  if n < t.wrem then { t with wrem := t.wrem - n }
  else { (List.range (min 10 ((n - t.wrem) / 25600 + 1))).foldl (fun t _ => t.newWindow) t with wrem := 25600 - (n - t.wrem) % 25600 }

/-- n clk of a plane that runs: CYCLE, the heartbeat, which stands during a drain, and the segment (R35, R311). -/
def Plane.passRun (pl : Plane) (n : Nat) : Plane :=
  { pl with seg := pl.seg + n,
            regs := { pl.regs with cycle := (pl.regs.cycle + n) % 2 ^ 64,
                                   hbcnt := if pl.drains then pl.regs.hbcnt else min (pl.regs.hbcnt + n) pl.regs.hbiv } }

/-- n clk of the plane for which the monitor runs: they are charged to its segment (R311). -/
def Plane.passMon (pl : Plane) (n : Nat) : Plane := { pl with seg := pl.seg + n }

/-- The clk that pass at a tile in a step, in which it was old before: the windows, and the plane that ran through the step or that
the monitor ran for. A switch is charged to no plane (R311). The monitor's watchdog counts its clk, and at 2^22 is a monitor fault
(R288, R289). -/
def passClk (s : State) (old : Tile) (r n : Nat) : State :=
  let t := s.tile r
  if (t.fenced && !t.monitor) ∨ 1024 ≤ epOf r then s
  else
    let t := t.passWindows n
    if old.monitor then
      let t := t.setPl old.mtpcPlane ((t.pl old.mtpcPlane).passMon n)
      let s := s.setTile r { t with mwatch := if t.monitor then min (t.mwatch + n) (2 ^ 22) else t.mwatch }
      { s with agenda := if t.monitor && decide (2 ^ 22 ≤ t.mwatch + n) then (emitOnce s (.monitorWatchdogExpiry r)).agenda else s.agenda }
    else
      match old.running with
      | none => s.setTile r t
      | some p => s.setTile r (if t.running = some p then t.setPl p ((t.pl p).passRun n) else t)

/-- Host memory after what the host's own agents write during a step (R107). -/
def hostActs (m : List Host.Cell) (tick : Nat) : List Host.Cell :=
  (Config.hostStores tick).foldl (fun m x => memPut m (hostAddr x.1 (x.2.1 % 2 ^ 64)) x.2.2) m

/-- The end of every step: time passes by free amounts, at the tile that moved, with the tile as it was before, the host may write its
memory, and the next turn is a free choice. -/
def passTime (s : State) (r : Option (Nat × Tile)) : State :=
  let s := match r with
    | some (r, old) => passClk s old r (Config.elapsed s.tick)
    | none => s
  { s with mem := hostActs s.mem s.tick, podTime := s.podTime + Config.elapsedNs s.tick, turn := Config.nextTurn s.tick,
           tick := s.tick + 1 }

/-- An outcome with time passed after it. -/
def thenTime (o : Host.Outcome State Fault Refusal) (r : Option (Nat × Tile)) : Host.Outcome State Fault Refusal :=
  match o with
  | .next s => .next (passTime s r)
  | .fault f => .fault f
  | .refused x => .refused x

/-- Whether a step comes from the world outside the pod: a command's arrival, a register write, a physical event, a host's
read or write of vault memory (R107). -/
def isOutside : Instr → Bool
  | .powerOn _ _ _ => true
  | .powerLoss _ => true
  | .doorbell _ _ => true
  | .ringReinit _ _ _ _ _ => true
  | .throttle _ _ _ => true
  | .thermtrip _ _ => true
  | .crcReplay _ _ => true
  | .transportAbandon _ => true
  | .refreshTakeover _ _ => true
  | .smcRestart _ _ _ => true
  | .smcup _ _ => true
  | .refreshSplit _ => true
  | .pageMove _ _ _ => true
  | .fieldTest _ _ _ => true
  | .podTimeBeacon _ _ => true
  | .hostAtomic _ => true
  | .preemptInterrupt _ _ => true
  | .limitWindowEnd _ _ => true
  | .vaultGet q => decide (0x500 ≤ epOf q.rank)
  | .vaultPut q => decide (0x500 ≤ epOf q.rank)
  | _ => false

/-- The step of the pod: a tile moves, a step that is due is taken, or the world outside acts. -/
def podStep (s : State) : Host.Outcome State Fault Refusal :=
  match s.turn with
  | .tile r => thenTime (tileStep s r) (some (r, s.tile r))
  | .event n =>
    match s.agenda[n]? with
    | none => thenTime (.next s) none
    | some d =>
      if d.via.isSome then thenTime (.next s) none
      else thenTime (exec d.ev { s with agenda := s.agenda.eraseIdx n }) none
  | .outside =>
    match Config.outside s.tick with
    | some i => if isOutside i then thenTime (exec i s) none else thenTime (.next s) none
    | none => thenTime (.next s) none

/-- A plane made ready to fetch 16 bytes at its PC, with nothing asynchronous due. -/
def fetchReady (p : Plane) : Plane :=
  { p with preempt := none, cancel := false, exiting := none, yieldWait := false,
           regs := { p.regs with plen := max p.regs.plen (p.regs.pc + 16), hbcnt := if p.missed then 0 else p.regs.hbcnt,
                                 hbiv := max 1 p.regs.hbiv } }

/-- The machine with words stored where tile 0 fetches next, in its running plane or at the monitor level in its store, and
the turn given to tile 0. Where no plane runs, plane 0 is made resident and running, as a loader leaves it (log entry 5). -/
def placeWords (s : State) (ws : List Nat) : State :=
  let t := s.tile 0
  let t := if t.monitor ∨ t.running.isSome then t
    else { t with running := some 0, plane0 := { t.plane0 with state := 3 } }
  let t := { t with plane0 := fetchReady t.plane0, plane1 := fetchReady t.plane1,
                    fenced := false, dualDue := none }
  let s := { s.setTile 0 t with turn := .tile 0, cur := 0 }
  let a := if s.mon then monAddr 0 (fetchPc s) else codeAddr 0 s.ctxP (fetchPc s)
  { s with mem := memWrite s.mem a (ws.flatMap bytesOfWord) }

end Sys2Proof.Machine
end

