-- ==== Sys2Proof/Machine/Step.lean ====
section
/-! DEFINITION. The step of the pod: the agent whose turn it is moves, and then time passes and the next turn is taken from
a free value. -/

namespace Sys2Proof.Machine

/-- One step. -/
def step (s : State) : Host.Outcome State Fault Refusal := podStep s

/-- The machine with an instruction's words stored where tile 0 fetches next, and the turn given to tile 0. -/
def State.withFetchWord (s : State) (nbits w : Nat) : State := placeWords s (tableWords nbits w)

end Sys2Proof.Machine
end

