-- ==== Sys2Proof/Safety.lean ====
section
/-! DEFINITION. What the claims are said in: what counts as a safe state of the pod, when a word of a bundle runs, and what
a word leaves as it was. -/

namespace Sys2Proof.Machine

/-- The memory stands in its canonical form. -/
def State.Safe (s : State) : Prop := Memory.wf s.mem = true

/-- A word executes (R162): no word before it in the bundle has trapped or stalled, and its guard g is true. -/
def Runs (s : State) (g : Nat) : Prop := s.bundle.status = .running ∧ readP s g = true

/-- A word completed: the bundle in progress has neither trapped nor stalled. -/
def Ran (t : State) : Prop := t.bundle.status = .running

/-- Every byte of memory reads as before. -/
def SameMem (s t : State) : Prop := ∀ a, memGet t.mem a = memGet s.mem a

/-- Every byte of memory outside n bytes from an address reads as before. -/
def SameMemBut (s t : State) (a n : Nat) : Prop := ∀ b, b < a ∨ a + n ≤ b → memGet t.mem b = memGet s.mem b

/-- Every tile but the current one, and everything of the pod outside the tiles but memory, the bundle in progress, the
numbers of operations and the steps that are due, is as before. -/
def SameElsewhere (s t : State) : Prop :=
  (∀ r, r ≠ s.cur → t.tile r = s.tile r) ∧ t.vaults = s.vaults ∧ t.pkgs = s.pkgs ∧ t.jobs = s.jobs ∧
    t.launches = s.launches ∧ t.graphs = s.graphs ∧ t.streams = s.streams ∧ t.suspended = s.suspended ∧
    t.podTime = s.podTime ∧ t.nextNum = s.nextNum ∧ t.cur = s.cur ∧ t.turn = s.turn ∧ t.tick = s.tick

/-- As SameElsewhere, and nothing was issued: no operation number is taken and no step is due that was not. -/
def SameOutside (s t : State) : Prop := SameElsewhere s t ∧ t.nextId = s.nextId ∧ t.agenda = s.agenda

/-- Only the scalar bank in force may differ, and of it only the x registers, predicates and index registers that the sets
name: the return stack, every other register, every CSR and every byte of memory is as before. -/
def BankFrame (s t : State) (xs ps ixs : Nat → Prop) : Prop :=
  SameOutside s t ∧ SameMem s t ∧ t.curTile = (s.modBank (fun _ => t.bank)).curTile ∧ t.bank.ret = s.bank.ret ∧
    (∀ n, ¬ xs n → t.bank.x[n]? = s.bank.x[n]? ∧ t.bank.dead.getLsbD n = s.bank.dead.getLsbD n) ∧
    (∀ n, ¬ ps n → t.bank.p[n]? = s.bank.p[n]?) ∧ (∀ n, ¬ ixs n → t.bank.ix[n]? = s.bank.ix[n]?)

/-- The tile r moves in this step, and runs the bundle at which fetch stands: it is in service, nothing asynchronous is due,
and it is at the monitor level or has a running plane that is not ending its task and waits for no DUAL partner's YIELD. -/
def TileRuns (s : State) (r : Nat) : Prop :=
  s.turn = .tile r ∧ epOf r < 1024 ∧ ((s.tile r).fenced = false ∨ (s.tile r).monitor = true) ∧
    boundaryCause { s with cur := r } r = none ∧
    ((s.tile r).monitor = true ∨ ((s.tile r).running ≠ none ∧ ({ s with cur := r } : State).ctx.exiting = none ∧
      ({ s with cur := r } : State).ctx.yieldWait = false))

/-! ## Results of scalar words -/

/-- The word of two sources does: xd := op xa xb, with the marks of last use, and nothing else. -/
def Alu3Result (i : R3 → Instr) (op : Word → Word → Word) : Prop :=
  ∀ f s a b, Runs s f.g → readX s f.ra = .ok a → readX s f.rb = .ok b →
    exec (i f) s = .next (setX (killX (killX s f.la f.ra) f.lb f.rb) f.rd (op a b))

/-- The word of one source and an immediate does: xd := op xa imm. -/
def AluIResult (i : I3 → Instr) (op : Word → Imm → Word) : Prop :=
  ∀ f s a, (i f).wf = true → Runs s f.g → readX s f.ra = .ok a →
    exec (i f) s = .next (setX (killX s f.la f.ra) f.rd (op a f.imm))

/-- The compare of two registers writes the pair pd, pd + 1. -/
def Cmp3Result (i : R3 → Instr) (op : Word → Word → Prop) : Prop :=
  ∀ f s a b, Runs s f.g → readX s f.ra = .ok a → readX s f.rb = .ok b →
    ∃ c : Bool, (c = true ↔ op a b) ∧
      exec (i f) s = .next (setP (setP (killX (killX s f.la f.ra) f.lb f.rb) f.rd c) (f.rd + 1) (!c))

/-- The compare with an immediate writes the pair pd, pd + 1. -/
def CmpIResult (i : I3 → Instr) (op : Word → Word → Prop) : Prop :=
  ∀ f s a, (i f).wf = true → Runs s f.g → readX s f.ra = .ok a →
    ∃ c : Bool, (c = true ↔ op a (if f.imm.lent then (BitVec.ofNat 19 f.imm.raw).signExtend 64
        else (BitVec.ofNat 10 f.imm.raw).signExtend 64)) ∧
      exec (i f) s = .next (setP (setP (killX s f.la f.ra) f.rd c) (f.rd + 1) (!c))

/-- An immediate as a signed number of the width it has (R157). -/
def Sext (i : Imm) : Word :=
  if i.lent then (BitVec.ofNat 19 i.raw).signExtend 64 else (BitVec.ofNat 10 i.raw).signExtend 64

/-! ## Results of vector words -/

/-- The registers of the context plane and the bundle's marks may differ, and nothing else. -/
def RegsFrame (s t : State) : Prop :=
  SameOutside s t ∧ SameMem s t ∧ t.curTile = (s.modRegs (fun _ => t.regs)).curTile

/-- Of those registers only the vector register nd and FFLAGS may differ. -/
def VecFrame (s t : State) (nd : Nat) : Prop :=
  RegsFrame s t ∧
    ({ t.regs with v := s.regs.v, vdead := s.regs.vdead, fflags := s.regs.fflags } : Regs) = s.regs ∧
    ∀ n, n ≠ nd → t.regs.v[n]? = s.regs.v[n]? ∧ t.regs.vdead.getLsbD n = s.regs.vdead.getLsbD n

/-- The registers ms are marked for death besides those marked before, but nd is not; the rest of the bundle stays. -/
def VecMarks (s t : State) (nd : Nat) (ms : List Nat) : Prop :=
  (∀ m, m ∈ t.bundle.killV ↔ m ≠ nd ∧ (m ∈ s.bundle.killV ∨ m ∈ ms)) ∧
    ({ t.bundle with killV := s.bundle.killV } : Bundle) = s.bundle

/-- The write of an element-wise word (R200): element j of n, each w bytes, is op j where the predicate's bit j·w is set, and
d's element where it is not; vd is live, and FFLAGS gains the flags of the active elements. -/
def VecWrites (s t : State) (nd w n : Nat) (q : Quad) (d : VReg) (op : Nat → EF) : Prop :=
  (∀ j < n, elem w j ((t.regs.v[nd]?).getD 0) =
      (if q.getLsbD (j * w) = true then (op j).1 % 2 ^ (8 * w) else elem w j d)) ∧
    t.regs.vdead.getLsbD nd = false ∧
    (∀ k < 6, t.regs.fflags.getLsbD k = true ↔
      (s.regs.fflags.getLsbD k = true ∨ ∃ j < n, q.getLsbD (j * w) = true ∧ (op j).2.getLsbD k = true)) ∧
    VecFrame s t nd

/-- A V word of two sources completes with its elements (R200, R201); useD reads the old vd, and otherwise an inactive
element keeps its bytes, which are zero when vd was dead. -/
def Vec3Result (i : V3 → Instr) (useD : Bool) (op : V3 → Rnd → Nat → Nat → Nat → EF) : Prop :=
  ∀ (f : V3) (s : State) (nd na nb : Nat) (a b d : VReg), Runs s f.g → vdReg s f.vd f.lv = .ok nd →
    vaReg s f.va f.lv = .ok na → vbReg s f.vb f.lv = .ok nb → readV s na = .ok a → readV s nb = .ok b →
    (useD = true → readV s nd = .ok d) → (useD = false → d = keepV s nd) →
    ∃ t, exec (i f) s = .next t ∧
      VecWrites s t nd (tyW f.ty) (tyN f.ty) (readQ s (lvQ f.lv)) d
        (fun j => op f (frmRnd s) (elem (tyW f.ty) j a) (elem (tyW f.ty) j b) (elem (tyW f.ty) j d)) ∧
      VecMarks s t nd ((if f.la then [na] else []) ++ (if f.lb then [nb] else []))

/-- A V word of one source completes with its elements. -/
def Vec2Result (i : V2 → Instr) (op : V2 → Rnd → Nat → EF) : Prop :=
  ∀ (f : V2) (s : State) (nd na : Nat) (a : VReg), Runs s f.g → vdReg s f.vd f.lv = .ok nd →
    vaReg s f.va f.lv = .ok na → readV s na = .ok a →
    ∃ t, exec (i f) s = .next t ∧
      VecWrites s t nd (tyW f.ty) (tyN f.ty) (readQ s (lvQ f.lv)) (keepV s nd)
        (fun j => op f (frmRnd s) (elem (tyW f.ty) j a)) ∧
      VecMarks s t nd (if f.la then [na] else [])

/-- An element operation that raises no flag and acts on classes F and I alike or on integers only. -/
def noFlag (op : Nat → Nat → Nat → Nat → Nat) : V3 → Rnd → Nat → Nat → Nat → EF :=
  fun f _ a b d => (op (8 * tyW f.ty) a b d, 0)

/-- An element operation by class: floating-point on values under FRM, and integer on the element's bits, modulo their
width. -/
def byClass (ff : Fmt → Rnd → FV → FV → FV → EF) (fi : Nat → Nat → Nat → Nat → Nat) :
    V3 → Rnd → Nat → Nat → Nat → EF := fun f r a b d =>
  if f.ty < 3 then ff (fmtOf f.ty) r ((fmtOf f.ty).decode a) ((fmtOf f.ty).decode b) ((fmtOf f.ty).decode d)
  else (fi (2 ^ (8 * tyW f.ty)) a b d, 0)

/-- A compare of elements completes with its pair of lane predicates (R209). -/
def VcmpResult (i : VC → Instr) (test : VC → Nat → Nat → Bool) : Prop :=
  ∀ (f : VC) (s : State) (na nb : Nat) (a b : VReg), Runs s f.g → f.vd = 2 ∨ f.vd = 4 ∨ f.vd = 6 →
    vaReg s f.va f.lv = .ok na → vbReg s f.vb f.lv = .ok nb → readV s na = .ok a → readV s nb = .ok b →
    ∃ t, exec (i f) s = .next t ∧
      (∀ j < tyN f.ty, ∀ k < tyW f.ty,
        ((readQ t f.vd).getLsbD (j * tyW f.ty + k) = true ↔ (readQ s (lvQ f.lv)).getLsbD (j * tyW f.ty) = true ∧
          test f (elem (tyW f.ty) j a) (elem (tyW f.ty) j b) = true) ∧
        ((readQ t (f.vd + 1)).getLsbD (j * tyW f.ty + k) = true ↔ (readQ s (lvQ f.lv)).getLsbD (j * tyW f.ty) = true ∧
          test f (elem (tyW f.ty) j a) (elem (tyW f.ty) j b) = false)) ∧
      RegsFrame s t ∧ ({ t.regs with q := s.regs.q } : Regs) = s.regs ∧
      (∀ n, n ≠ f.vd → n ≠ f.vd + 1 → readQ t n = readQ s n) ∧
      t.bundle.killV = (if f.lb then [nb] else []) ++ (if f.la then [na] else []) ++ s.bundle.killV ∧
      ({ t.bundle with killV := s.bundle.killV } : Bundle) = s.bundle

/-- Two lanes of a reduction: an empty one yields to the other (R65), and the flags of the node join theirs. -/
def joinLanes (comb : Nat → Nat → EF) : Option EF → Option EF → Option EF
  | none, y => y
  | x, none => x
  | some x, some y => some ((comb x.1 y.1).1, (comb x.1 y.1).2 ||| x.2 ||| y.2)

/-- The pairwise tree of R65 over the 2^n lanes from lane k on. -/
def laneTree (comb : Nat → Nat → EF) (lane : Nat → Option EF) : Nat → Nat → Option EF
  | 0, k => lane k
  | n + 1, k => joinLanes comb (laneTree comb lane n k) (laneTree comb lane n (k + 2 ^ n))

/-- A reduction completes with the tree of its contributing lanes, widened to 32 bits (R214): the register holds the result
and zeros above it, +0 when no lane contributes, and the canonical NaN for any NaN. -/
def VredResult (i : V2 → Instr) (cf : State → Nat → Nat → EF) (ci : Nat → Nat → EF) : Prop :=
  ∀ (f : V2) (s : State) (nd na : Nat) (a : VReg) (res : EF), Runs s f.g → f.ty < 6 → vdReg s f.vd f.lv = .ok nd →
    vaReg s f.va f.lv = .ok na → readV s na = .ok a →
    res = (laneTree (if f.ty < 3 then cf s else ci) (fun j =>
        if (readQ s (lvQ f.lv)).getLsbD (j * tyW f.ty) = true then
          some (if f.ty < 3 then (roundFV f32 .rne ((fmtOf f.ty).decode (elem (tyW f.ty) j a))).1
            else ((BitVec.ofNat (8 * tyW f.ty) (elem (tyW f.ty) j a)).signExtend 32).toNat, 0)
        else none) (if f.ty = 0 ∨ f.ty = 3 then 5 else if f.ty = 5 then 7 else 6) 0).getD (0, 0) →
    ∃ t, exec (i f) s = .next t ∧
      t.regs.v[nd]? = some (BitVec.ofNat 1024
        (if f.ty < 3 ∧ (f32.decode res.1).isNan = true then 0x7FC00000 else res.1)) ∧
      t.regs.vdead.getLsbD nd = false ∧ t.regs.fflags = s.regs.fflags ||| res.2 ∧ VecFrame s t nd ∧
      VecMarks s t nd (if f.la then [na] else [])

/-! ## Rounding -/

/-- The number m × 2^e. -/
def valOf (m : Nat) (e : Int) : ℚ := m * (2 : ℚ) ^ e

/-- A rounding of the number ±v, v above zero, to a format under a mode of Table 3.4 (R50, R58, R59): the nearest finite value of
the format toward zero (RZ, and RU and RD of the sign that they round so), away from it, or of all, and on a tie the even one
(RNE); an infinity, or the NaN of the format that has none, only beyond every finite value. NX tells that the result is not the
number itself. -/
def RoundedTo (f : Fmt) (r : Rnd) (n : Bool) (v : ℚ) (x : Nat × BitVec 6) : Prop :=
  (∀ M E, f.decode x.1 = .fin n M E →
    (r = .rz ∨ (r = .ru ∧ n = true) ∨ (r = .rd ∧ n = false) → valOf M E ≤ v ∧
      ∀ c M' E', f.decode c = .fin n M' E' → valOf M' E' ≤ v → valOf M' E' ≤ valOf M E) ∧
    ((r = .ru ∧ n = false) ∨ (r = .rd ∧ n = true) → v ≤ valOf M E ∧
      ∀ c M' E', f.decode c = .fin n M' E' → v ≤ valOf M' E' → valOf M E ≤ valOf M' E') ∧
    (r = .rne → ∀ c M' E', f.decode c = .fin n M' E' → |v - valOf M E| ≤ |v - valOf M' E'| ∧
      (|v - valOf M E| = |v - valOf M' E'| → valOf M E ≠ valOf M' E' → x.1 % 2 = 0))) ∧
  ((∃ M E, f.decode x.1 = .fin n M E) ∨ (f.decode x.1 = (if f.noInf = true then .nan else .inf n) ∧
    ∀ c M E, f.decode c = .fin n M E → valOf M E < v)) ∧
  (x.2.getLsbD 0 = false ↔ ∃ M E, f.decode x.1 = .fin n M E ∧ valOf M E = v)

/-! ## Tile-store accesses -/

/-- What reading tile store leaves as it was: everything but the marks of racing writes and, under a speculation, its tracked
lines (R41, R93). -/
def ReadOnly (s t : State) : Prop :=
  SameOutside s t ∧ SameMem s t ∧ t.bundle = s.bundle ∧ t.regs = s.regs ∧ t.bank = s.bank ∧
    ({ t.ctx with spec := s.ctx.spec } : Plane) = s.ctx ∧
    (s.ctx.spec = none → ({ t.curTile with stale := s.curTile.stale } : Tile) = s.curTile)

/-- What a store to tile store leaves as it was, outside a speculation: everything but the bytes stored, the marks of racing
writes and the number the store takes; inside the marks. -/
def StoreFrame (s t : State) : Prop :=
  SameElsewhere s t ∧ t.agenda = s.agenda ∧ t.bundle = s.bundle ∧
    ({ t.curTile with stale := s.curTile.stale } : Tile) = s.curTile

/-- The address a of memory lies outside every granule of a tile's store that n bytes at a physical address touch. -/
def OutGrans (r a n b : Nat) : Prop := b < tsAddr r (a / 16 * 16) ∨ tsAddr r ((a + n - 1) / 16 * 16 + 16) ≤ b

/-- The word leaves the bundle stalled for want of room in the escrow (R44). -/
def Overflows (i : Instr) (s : State) : Prop := exec i s = .next { s with bundle := { s.bundle with status := .overflow } }

/-- A store that a speculation holds: memory and every register stay, and only the speculation's escrow has changed. -/
def EscrowFrame (s t : State) : Prop :=
  SameOutside s t ∧ SameMem s t ∧ t.bundle = s.bundle ∧ t.regs = s.regs ∧ t.bank = s.bank ∧
    ({ t.ctx with spec := s.ctx.spec } : Plane) = s.ctx

/-- The address of a byte of the current task's tile store. -/
def taskByte (s : State) (t : Nat) : Nat := tsAddr s.cur (tsPhys s t)

/-- No write of another path races with the context's accesses, and no speculation is open: what is read is what memory
holds, and what is written stands. -/
def Plain (s : State) : Prop := s.curTile.stale = [] ∧ s.ctx.spec = none

/-- The word's body traps with a cause and a value for UTINFO or MTINFO, in slot 2. -/
def TrapsM (i : Instr) (s : State) (cause : Nat) (info : Nat) : Prop :=
  exec i s = .next (raiseTrap s { cause := cause, slot := 2, info := BitVec.ofNat 64 info })

/-- The word leaves the bundle stalled, and has no effect. -/
def Stalls (i : Instr) (s : State) : Prop := exec i s = .next { s with bundle := { s.bundle with status := .stalled } }

/-! ## Words that start an operation -/

/-- The commands of a plane's channels are as before, but that a COPYQ may have found its flag set (R228). -/
def SameChans (a b : Plane) : Prop :=
  ∀ k, (b.ch k).map (fun c => { c with fired := none }) = (a.ch k).map (fun c => { c with fired := none })

/-- What a word that starts an operation of an engine has done before the engine takes it: the flags fs are clear and bound
to the operation's number, and no other register, nothing of memory and nothing elsewhere has changed. -/
def EngineFrame (s u : State) (fs : List Nat) : Prop :=
  SameElsewhere s u ∧ SameMem s u ∧ u.agenda = s.agenda ∧ u.nextId = s.nextId + 1 ∧ u.bundle = s.bundle ∧ u.bank = s.bank ∧
    ({ u.regs with flag := s.regs.flag } : Regs) = s.regs ∧
    (∀ k ∈ fs, u.regs.fl k = { s.regs.fl k with on := false, bound := some s.nextId }) ∧
    ∀ k, k ∉ fs → u.regs.flag[k]? = s.regs.flag[k]?

/-- The operation has ended at once: its flag is set with a status record. -/
def EndsAtOnce (i : Instr) (s : State) (fn : Nat) (q : Quad) : Prop :=
  ∃ t, exec i s = .next t ∧ (t.regs.fl fn).on = true ∧ (t.regs.fl fn).bound = none ∧ (t.regs.fl fn).status = q

/-- A copy command of a parameter block. -/
def cmdOf (block : List Byte) : CopyCmd := { id := 0, flag := 0, blk := BitVec.ofNat 512 (leNat block) }

/-- What copy words that are accepted do (R122, R226): the command joins its channel. -/
def CopyAccepted (i : Instr) (s : State) (fs : List Nat) (kind : Nat) (fk : Option Nat) (follow : Option (MMm × Word))
    (b : List Byte) : Prop :=
  ∃ u c, exec i s = .next (chPush u u.cur u.ctxP c) ∧ EngineFrame s u fs ∧ c.id = s.nextId ∧ c.kind = kind ∧
    fs.head? = some c.flag ∧ c.blk = BitVec.ofNat 512 (leNat b) ∧ c.fk = fk ∧ c.follow = follow ∧
    c.spec = s.ctx.spec.isSome ∧ c.mon = s.mon ∧ c.started = false ∧ c.moved = 0

/-- The read of a copy word's block takes its place on the copy path: no earlier copy of the plane has still to make an access to one
of its granules (R92); a copy of the monitor passes them (R122). -/
def BlockTurn (s : State) (t : Nat) : Prop :=
  s.mon = true ∨ ∀ j < 4, ∀ d ∈ s.ctx.ch j, d.id < s.nextId → ∀ x ∈ d.spansLeft s.ctx d.moved, shareGranule x (tsPhys s t, 64) = false

/-- The words that copies share: where the block stands and that it can be read, and what a bound flag, a bad address or a
block that is not accepted does. A block that arrives at a barrier waits for the end of a speculation, whether or not it is
accepted, and an accepted one for room on its channel. -/
def CopyWordRules (i : Instr) (s : State) (fn t : Nat) (wantD : Bool) (done : List Byte → Prop) : Prop :=
  ((s.regs.fl fn).bound ≠ none → Stalls i s) ∧
  ((s.regs.fl fn).bound = none → t % 64 ≠ 0 → TrapsM i s 0x05 t) ∧
  ((s.regs.fl fn).bound = none → t % 64 = 0 → tsLimit s < t + 64 → TrapsM i s 0x06 t) ∧
  ((s.regs.fl fn).bound = none → t % 64 = 0 → t + 64 ≤ tsLimit s →
    (¬ BlockTurn s t → Stalls i s) ∧
    (BlockTurn s t → engineRead s s.cur s.ctxP pathC 4 (tsPhys s t) 64 = .error .wait → Stalls i s) ∧
    (∀ k, BlockTurn s t → engineRead s s.cur s.ctxP pathC 4 (tsPhys s t) 64 = .error (.faulted k) →
      EndsAtOnce i s fn (copyRecord 7 0x13 0 0))) ∧
  ∀ b, (s.regs.fl fn).bound = none → t % 64 = 0 → t + 64 ≤ tsLimit s → BlockTurn s t →
    engineRead s s.cur s.ctxP pathC 4 (tsPhys s t) 64 = .ok b →
    ((cmdOf b).arr = true → s.ctx.spec ≠ none → Stalls i s) ∧
    (((cmdOf b).arr = true → s.ctx.spec = none) →
      ((cmdOf b).accepted s.regs (tsLimit s) s.ctx.task.bgroups wantD = false →
        EndsAtOnce i s fn (copyRecord 7 0x11 0 (cmdOf b).ch)) ∧
      ((cmdOf b).accepted s.regs (tsLimit s) s.ctx.task.bgroups wantD = true →
        (4 ≤ (s.ctx.ch (cmdOf b).ch).length → Stalls i s) ∧ ((s.ctx.ch (cmdOf b).ch).length < 4 → done b)))

/-- A word that gives the message engine a send (R231). -/
def Sends (i : Instr) (s : State) (kind fn group tag : Nat) (l a : Word) (dsts : State → List Nat) : Prop :=
  ∃ u sd, exec i s = .next (addSend u sd) ∧ EngineFrame s u [fn] ∧ sd.id = s.nextId ∧ sd.kind = kind ∧ sd.flag = some fn ∧
    sd.group = group ∧ sd.tag = tag ∧ sd.len = l.toNat ∧ sd.bytes = min l.toNat 16777216 ∧ sd.addr = tsPhys s a.toNat ∧
    sd.copies.map (·.dst) = dsts s ∧ (sd.eager = true ↔ l.toNat ≤ s.ctx.task.eager) ∧ sd.spec = s.ctx.spec.isSome ∧
    sd.held = false ∧ (sd.paired = true ↔ s.ctx.task.dual = false)

/-- A word that gives the message engine a vault request (R236): a check that fails ends it FAULT; otherwise it joins the
tile's requests, and the engine tries it, or compares it first in a DUAL task. -/
def Requests (i : Instr) (s : State) (fn : Nat) (op : VOp) (va len addr plen dst a : Nat) : Prop :=
  (∀ fc, op ≠ .query → reqCheck { (default : Req) with op := op, va := va, len := len } = some fc →
    EndsAtOnce i s fn (reqRecord { (default : Req) with op := op, va := va, len := len } 7 fc 0 0 0)) ∧
  (op = .query ∨ reqCheck { (default : Req) with op := op, va := va, len := len } = none →
    ∃ u e, exec i s = .next (if s.ctx.task.dual then pushDual u u.cur u.ctxP (.req s.nextId) else pumpReqs u u.cur) ∧
      EngineFrame s u [fn] ∧ u.curTile.reqs = s.curTile.reqs ++ [e] ∧ e.req.id = s.nextId ∧ e.req.rank = s.cur ∧
      e.req.plane = s.ctxP ∧ e.req.op = op ∧ e.req.flag = fn ∧ e.req.va = va ∧ e.req.len = len ∧ e.req.dst = dst ∧
      e.req.a = a ∧ e.req.job = s.ctx.task.job ∧ e.req.part = s.ctx.task.part ∧ e.req.mv = s.ctx.task.bgroups ∧
      e.addr = addr ∧ e.len = plen ∧ e.sent = false ∧ e.owner = .flag)

/-- A buffer of n bytes is in range; an empty one always is (R231, R232). -/
def BufferOk (s : State) (a n : Nat) : Prop := n = 0 ∨ a + n ≤ tsLimit s

/-! ## Steps -/

/-- A step that is due. -/
def State.Due (s : State) (ev : Instr) : Prop := ∃ d ∈ s.agenda, d.ev = ev

/-- A flag of a plane has completed with a status record. -/
def FlagSet (s : State) (r p fn : Nat) (q : Quad) : Prop :=
  ((s.plane r p).regs.fl fn).on = true ∧ ((s.plane r p).regs.fl fn).bound = none ∧ ((s.plane r p).regs.fl fn).status = q

/-! ## Racing writes -/

/-- A path has seen every earlier write to the tile store of a tile: its own writes change the bytes that they name, and no
others (R93). -/
def AllSeen (s : State) (r path : Nat) : Prop := ∀ e ∈ (s.tile r).stale, hasPath e.paths path = false

/-- Of the tile store of a tile every byte outside the granules of n bytes from an address reads as before, and so does all other
memory. -/
def SameGransBut (s t : State) (r a n : Nat) : Prop :=
  SameMemBut s t (tsAddr r (a / 16 * 16)) ((a + n - 1) / 16 * 16 + 16 - a / 16 * 16)

/-! ## Registers of a package -/

/-- Of the pod nothing but one package, the steps that are due and the numbers of operations may have changed. -/
def OnlyPackage (s t : State) (pkg : Nat) : Prop :=
  (∀ k, k ≠ pkg → t.pkg k = s.pkg k) ∧ t.tiles = s.tiles ∧ t.vaults = s.vaults ∧ t.jobs = s.jobs ∧ t.launches = s.launches ∧
    t.graphs = s.graphs ∧ t.suspended = s.suspended ∧ SameMem s t

/-- A configuration register holds a new value, and neither another register nor anything else of the package has changed, nor
anything elsewhere. -/
def RegisterTakes (s t : State) (pkg a w : Nat) : Prop :=
  (t.pkg pkg).reg a = w ∧ (∀ b, b ≠ a → (t.pkg pkg).reg b = (s.pkg pkg).reg b) ∧
    ({ t.pkg pkg with cfg := (s.pkg pkg).cfg } : Package) = s.pkg pkg ∧ OnlyPackage s t pkg

/-! ## Tiles that leave their program -/

/-- No speculation is open at a tile, nor at the partner of a task of the tile. -/
def NoSpecAt (s : State) (r : Nat) : Prop :=
  ∀ q < 2, (s.plane r q).spec = none ∧ ∀ x, partnerOf s r q = some x → (s.plane x.1 x.2).spec = none

/-- The monitor of a tile has been entered on behalf of plane p, with a cause, its information and the PC that is saved. -/
def MonitorEntered (t : State) (r p cause : Nat) (info : BitVec 64) (pc : Nat) : Prop :=
  (t.tile r).monitor = true ∧ (t.tile r).mpc = 64 * cause ∧ (t.tile r).mtcause.extractLsb' 0 8 = BitVec.ofNat 8 cause ∧
    (t.tile r).mtinfo = info ∧ (t.tile r).mtpcPlane = p ∧ (t.tile r).mtpc = pc % 2 ^ 16

/-! ## A context and its record -/

/-- The registers of a plane lie in the widths that they have (Tables 9.5 to 9.9, R187). -/
def Regs.InRange (g : Regs) : Prop :=
  g.bank.ret.length ≤ 16 ∧ (∀ e ∈ g.bank.ret, e < 2 ^ 15) ∧ g.rsdepth < 2 ^ 13 ∧ g.frm < 4 ∧ g.retrylim < 16 ∧ g.boff < 16 ∧
    g.utvec % 4 = 0 ∧ g.utvec < 2 ^ 16 ∧ g.utpc % 4 = 0 ∧ g.utpc < 2 ^ 16 ∧ g.utcause &&& 0xFFFF0000000103FF#64 = g.utcause ∧
    g.cycle < 2 ^ 64 ∧ g.hbcnt < 2 ^ 29 ∧ g.valloc ≤ 64 ∧
    ∀ n < 4, (g.wmark[n]?).getD 0 < 2 ^ 32 ∧ (g.route[n]?).getD 0 < 2 ^ 32

/-- The registers n hold the context of the registers g (Table 16.7): of the x and v registers those that are live, and all others
but the launch's own, the barrier phases and the flags. -/
def ContextKept (g n : Regs) : Prop :=
  (∀ k, 0 < k → k < 32 → n.bank.dead.getLsbD k = g.bank.dead.getLsbD k ∧
    (g.bank.dead.getLsbD k = false → n.bank.x[k]? = g.bank.x[k]?)) ∧
  (∀ k, 2 ≤ k → k < 8 → n.bank.p[k]? = g.bank.p[k]? ∧ n.q[k]? = g.q[k]?) ∧ n.bank.ix = g.bank.ix ∧ n.bank.ret = g.bank.ret ∧
  n.rsdepth = g.rsdepth ∧
  (∀ k < g.valloc, n.vdead.getLsbD k = g.vdead.getLsbD k ∧ (g.vdead.getLsbD k = false → n.v[k]? = g.v[k]?)) ∧
  (∀ k < 4, n.wmark[k]? = g.wmark[k]? ∧ n.route[k]? = g.route[k]? ∧ (n.acc[k]?).map (·.int32) = (g.acc[k]?).map (·.int32) ∧
    ∀ e < 1024, ngetD ((n.acc[k]?).getD {}).el e 0 = ngetD ((g.acc[k]?).getD {}).el e 0) ∧
  (∀ k < 16, (n.t[k]?).map (·.raw) = (g.t[k]?).map (·.raw) ∧ (((g.t[k]?).getD {}).cb2 = true →
    ∀ e < 256, (((n.t[k]?).getD {}).lat[e]?).getD 0 = (((g.t[k]?).getD {}).lat[e]?).getD 0)) ∧
  n.frm = g.frm ∧ n.fflags = g.fflags ∧ n.srseed = g.srseed ∧ n.retrylim = g.retrylim ∧ n.boff = g.boff ∧ n.specst = g.specst ∧
  n.deadchk = g.deadchk ∧ n.utvec = g.utvec ∧ n.utpc = g.utpc ∧ n.utcause = g.utcause ∧ n.utinfo = g.utinfo ∧
  n.cycle = g.cycle ∧ n.hbcnt = g.hbcnt

/-! ## Requests at a vault -/

/-- A request at its vault is served (R112, R324, R328, R340): every vault that it visits is in a partition and none is fenced,
and its page, which the vault home holds, does not move, or the request is a part of which a granule has been performed. -/
def Served (s : State) (q : Req) (home : Nat) : Prop :=
  (∀ v ∈ visits s q, (s.vault v).fenced = false ∧ (s.partOf v).isSome = true) ∧
    ((s.pkg q.pkg).isMoving (dpn64 q.dpa) = false ∨ q.base < q.done) ∧ home = s.holdingVault q.pkg q.dpa

/-- n bytes at a DPA of a page can be read as they stand: no granule of theirs is bad, and the vault home holds no reduction
object whose RESULT lies among them. -/
def Readable (s : State) (pkg dpa home n : Nat) : Prop :=
  dpa % 65536 + n ≤ 65536 ∧ firstBad s pkg dpa n = none ∧
    ∀ o ∈ (s.vault home).objects, (granDpas dpa n).contains o.1 = false

/-- An answer to a request is on its way to its tile. -/
def Answered (t : State) (q : Req) (home st fc : Nat) (data : List Byte) (done : Nat) : Prop :=
  t.Due (.vaultReply { req := q, status := st, fcode := fc, data := data, done := done, home := home })

/-- A command has completed: its 32 bytes stand in the completion ring of a memory in its canonical form, and the ring has moved on
(R331). -/
def Completed (s t : State) (c : Cmd) (op status : Nat) (res : List Byte) : Prop :=
  (s.Safe → memRead t.mem (hostAddr c.pkg ((s.pkg c.pkg).compAddr + 32 * (s.pkg c.pkg).compTail)) 32 =
      [BitVec.ofNat 8 op, BitVec.ofNat 8 (if c.old then 1 else 0), BitVec.ofNat 8 c.tag, BitVec.ofNat 8 (c.tag / 256),
        BitVec.ofNat 8 status, 0, 0, 0] ++ (res ++ List.replicate 24 0).take 24) ∧
    (t.pkg c.pkg).compTail = ((s.pkg c.pkg).compTail + 1) % (s.pkg c.pkg).compSize

end Sys2Proof.Machine
end

