-- ==== Sys2Proof/Certificates/Slice0/Obligations.lean ====
section
/-! DEFINITION. The statements for the provers. Each docstring says which rules of spec/ its statement formalises. -/

open Sys2Proof Sys2Proof.Machine

/-- R179, R60 (Table 9.2): the register-form integer words, each with the 64-bit result that the table gives, division by
zero and −2^63 by −1 included; sources are read under R177, marks and the write of x0 are as
RegisterReadsAndWrites says. CLZ writes the number n of leading zero bits, the greatest n up to 64 with a[63:64−n] all zero,
and POPC the number of one bits. -/
def Obligations.IntegerRegisterResults : Prop :=
  Alu3Result .add (fun a b => a + b) ∧ Alu3Result .sub (fun a b => a - b) ∧
  Alu3Result .and (fun a b => a &&& b) ∧ Alu3Result .or (fun a b => a ||| b) ∧ Alu3Result .xor (fun a b => a ^^^ b) ∧
  Alu3Result .shl (fun a b => a <<< (b.toNat % 64)) ∧
  Alu3Result .shr (fun a b => BitVec.ofNat 64 (a.toNat / 2 ^ (b.toNat % 64))) ∧
  Alu3Result .sra (fun a b => BitVec.ofInt 64 (a.toInt / 2 ^ (b.toNat % 64))) ∧
  Alu3Result .mul (fun a b => a * b) ∧
  Alu3Result .mulh (fun a b => (a.signExtend 128 * b.signExtend 128).extractLsb' 64 64) ∧
  Alu3Result .mulhn (fun a b => (a.zeroExtend 128 * b.zeroExtend 128).extractLsb' 64 64) ∧
  Alu3Result .div (fun a b => if b = 0 then BitVec.allOnes 64 else a.sdiv b) ∧
  Alu3Result .divn (fun a b => if b = 0 then BitVec.allOnes 64 else a / b) ∧
  Alu3Result .rem (fun a b => if b = 0 then a else a.srem b) ∧
  Alu3Result .remn (fun a b => if b = 0 then a else a % b) ∧
  Alu3Result .min (fun a b => if a.slt b then a else b) ∧ Alu3Result .max (fun a b => if a.slt b then b else a) ∧
  Alu3Result .minn (fun a b => if a.ult b then a else b) ∧ Alu3Result .maxn (fun a b => if a.ult b then b else a) ∧
  (∀ (f : R2) (s : State) (a : Word), Runs s f.g → readX s f.ra = .ok a →
      (∀ n ≤ 64, (∀ i < 64, 64 - n ≤ i → a.getLsbD i = false) → (n < 64 → a.getLsbD (63 - n) = true) →
        exec (.clz f) s = .next (setX (killX s f.la f.ra) f.rd (BitVec.ofNat 64 n))) ∧
      exec (.popc f) s = .next (setX (killX s f.la f.ra) f.rd
        (BitVec.ofNat 64 ((List.range 64).filter (fun i => a.getLsbD i)).length)))

/-- R181, R184 (Table 9.3): the immediate forms, with the immediate at the width it has, sign- or zero-extended as the table
says; R184: IXSET, IXADD and IXGET act on i0 to i3, read as signed values of 8 bits, and IXADD wraps. And R182 (Table
9.4): the compares write the result to pd and its complement to pd + 1. -/
def Obligations.ImmediateAndCompareResults : Prop :=
  (AluIResult .addi (fun a i => a + Sext i) ∧ AluIResult .andi (fun a i => a &&& Sext i) ∧
   AluIResult .ori (fun a i => a ||| Sext i) ∧ AluIResult .xori (fun a i => a ^^^ Sext i) ∧
   AluIResult .shli (fun a i => a <<< i.raw) ∧
   AluIResult .shri (fun a i => BitVec.ofNat 64 (a.toNat / 2 ^ i.raw)) ∧
   AluIResult .srai (fun a i => BitVec.ofInt 64 (a.toInt / 2 ^ i.raw)) ∧
   AluIResult .limms (fun a i => (a <<< 16) ||| BitVec.ofNat 64 i.raw) ∧
   (∀ (f : ID) (s : State), Runs s f.g → exec (.limm f) s = .next (setX s f.rd (BitVec.ofNat 64 f.imm.raw))) ∧
   (∀ (f : IX) (s : State), f.wf = true → Runs s f.g →
     exec (.ixset f) s = .next (setI s f.rd ((Sext f.imm).extractLsb' 0 8)) ∧
     exec (.ixadd f) s = .next (setI s f.rd (readI s f.rd + (Sext f.imm).extractLsb' 0 8))) ∧
   (∀ (f : IXG) (s : State), Runs s f.g → exec (.ixget f) s = .next (setX s f.rd ((readI s f.ra).signExtend 64))) ∧
   (∀ (s : State) (n k : Nat) (b : BitVec 8), n < 4 →
     readI (setI s n b) n = b ∧ (k ≠ n → readI (setI s n b) k = readI s k))) ∧
  (Cmp3Result .cmpEq (fun a b => a = b) ∧ Cmp3Result .cmpLt (fun a b => a.toInt < b.toInt) ∧
   Cmp3Result .cmpLtn (fun a b => a.toNat < b.toNat) ∧ Cmp3Result .cmpLe (fun a b => a.toInt ≤ b.toInt) ∧
   Cmp3Result .cmpLen (fun a b => a.toNat ≤ b.toNat) ∧ CmpIResult .cmpiEq (fun a b => a = b) ∧
   CmpIResult .cmpiLt (fun a b => a.toInt < b.toInt) ∧ CmpIResult .cmpiLe (fun a b => a.toInt ≤ b.toInt))

/-- R180: SEL writes xa when p[pa] is true and xb otherwise; both sources are read, and a dead one traps DEADREG whichever
is chosen, with the number of the register that is read first. -/
def Obligations.SelResult : Prop :=
  ∀ (f : RSel) (s : State), Runs s f.g →
    (∀ a b, readX s f.ra = .ok a → readX s f.rb = .ok b →
      exec (.sel f) s = .next (setX (killX (killX s f.la f.ra) f.lb f.rb) f.rd (if readP s f.pa = true then a else b))) ∧
    (∀ t, readX s f.ra = .error (.trap t) → exec (.sel f) s = .next (raiseTrap s { t with slot := 0 })) ∧
    (∀ a t, readX s f.ra = .ok a → readX s f.rb = .error (.trap t) →
      exec (.sel f) s = .next (raiseTrap s { t with slot := 0 })) ∧
    (f.wf = true → bitsOf (Instr.sel f).word 21 6 = 0x15 ∧ bitsOf (Instr.sel f).word 16 5 = f.rd ∧
      bitsOf (Instr.sel f).word 11 5 = f.ra ∧ bitsOf (Instr.sel f).word 6 5 = f.rb ∧
      bitsOf (Instr.sel f).word 0 3 = f.pa ∧ bitsOf (Instr.sel f).word 3 1 = 0)

/-- R183: the predicate words write pd alone, so its pair partner is unchanged; their fields stand where SR puts them, and
an rd below 2 or a field above 7 is no instruction, which is ILLEGAL. -/
def Obligations.PredicateWords : Prop :=
  (∀ (f : P3) (s : State), Runs s f.g →
    exec (.pand f) s = .next (setP s f.rd (readP s f.ra && readP s f.rb)) ∧
    exec (.por f) s = .next (setP s f.rd (readP s f.ra || readP s f.rb)) ∧
    exec (.pxor f) s = .next (setP s f.rd (readP s f.ra != readP s f.rb))) ∧
  (∀ (f : P2) (s : State), Runs s f.g → exec (.pmov f) s = .next (setP s f.rd (readP s f.ra))) ∧
  (∀ (s : State) (n k : Nat) (b : Bool), 2 ≤ n → n < 8 →
    readP (setP s n b) n = b ∧ (k ≠ n → readP (setP s n b) k = readP s k)) ∧
  (∀ w l i, decodeWord w l = .ok i → 0x28 ≤ bitsOf w 21 6 → bitsOf w 21 6 ≤ 0x2B → bitsOf w 30 2 = 0 →
    2 ≤ bitsOf w 16 5 ∧ bitsOf w 16 5 < 8 ∧ bitsOf w 11 5 < 8 ∧ bitsOf w 6 5 < 8 ∧ bitsOf w 0 6 = 0 ∧
      (bitsOf w 21 6 = 0x2B → bitsOf w 6 5 = 0)) ∧
  (∀ w l v s, bitsOf w 30 2 = 0 → 0x28 ≤ bitsOf w 21 6 → bitsOf w 21 6 ≤ 0x2B → readP v (w / 2 ^ 27 % 8) = true →
    bitsOf w 16 5 < 2 ∨ 7 < bitsOf w 16 5 ∨ 7 < bitsOf w 11 5 ∨ 7 < bitsOf w 6 5 →
    runSlots l [(0, w)] v s = .next (s, some { cause := 0x01, slot := 0, info := BitVec.ofNat 64 w }))

/-- R15, R163, R177: a write to x0 is discarded, any other write makes the register live with the written value and leaves
every other as it was; x0 reads zero; a dead register reads zero, or traps DEADREG with its number when DEADCHK = 1 at
the user level. -/
def Obligations.RegisterReadsAndWrites : Prop :=
  (∀ (s : State) (w : Word), setX s 0 w = s ∧ readX s 0 = .ok 0) ∧
  (∀ (s : State) (n : Nat) (w : Word), n ≠ 0 → n < 32 →
    readX (setX s n w) n = .ok w ∧ (∀ k, k ≠ n → readX (setX s n w) k = readX s k)) ∧
  (∀ (s : State) (n : Nat), n ≠ 0 → s.bank.dead.getLsbD n = true →
    readX s n = (if s.mon = false ∧ s.regs.deadchk = true
      then .error (.trap { cause := 0x04, info := BitVec.ofNat 64 n }) else .ok 0))

/-- Frame of the scalar words that write one register (R179 to R184; R12): when the word completes, nothing but its
destination register, predicate pair, predicate or index register has changed: no other register, no CSR or flag, no byte
of memory, nothing elsewhere. -/
def Obligations.ScalarFrames : Prop :=
  (∀ (f : R3) (s t : State), Ran t →
    (∀ i ∈ [Instr.add f, .sub f, .and f, .or f, .xor f, .shl f, .shr f, .sra f, .mul f, .mulh f, .mulhn f, .div f, .divn f,
        .rem f, .remn f, .min f, .max f, .minn f, .maxn f],
      exec i s = .next t → BankFrame s t (fun n => n = f.rd ∧ n ≠ 0) (fun _ => False) (fun _ => False)) ∧
    (∀ i ∈ [Instr.cmpEq f, .cmpLt f, .cmpLtn f, .cmpLe f, .cmpLen f],
      exec i s = .next t → BankFrame s t (fun _ => False) (fun n => 2 ≤ n ∧ (n = f.rd ∨ n = f.rd + 1)) (fun _ => False))) ∧
  (∀ (f : I3) (s t : State), Ran t →
    (∀ i ∈ [Instr.addi f, .andi f, .ori f, .xori f, .shli f, .shri f, .srai f, .limms f],
      exec i s = .next t → BankFrame s t (fun n => n = f.rd ∧ n ≠ 0) (fun _ => False) (fun _ => False)) ∧
    (∀ i ∈ [Instr.cmpiEq f, .cmpiLt f, .cmpiLe f],
      exec i s = .next t → BankFrame s t (fun _ => False) (fun n => 2 ≤ n ∧ (n = f.rd ∨ n = f.rd + 1)) (fun _ => False))) ∧
  (∀ (f : R2) (s t : State), Ran t → ∀ i ∈ [Instr.clz f, .popc f],
      exec i s = .next t → BankFrame s t (fun n => n = f.rd ∧ n ≠ 0) (fun _ => False) (fun _ => False)) ∧
  (∀ (f : RSel) (s t : State), Ran t → exec (.sel f) s = .next t →
      BankFrame s t (fun n => n = f.rd ∧ n ≠ 0) (fun _ => False) (fun _ => False)) ∧
  (∀ (f : ID) (s t : State), Ran t → exec (.limm f) s = .next t →
      BankFrame s t (fun n => n = f.rd ∧ n ≠ 0) (fun _ => False) (fun _ => False)) ∧
  (∀ (f : P3) (s t : State), Ran t → ∀ i ∈ [Instr.pand f, .por f, .pxor f],
      exec i s = .next t → BankFrame s t (fun _ => False) (fun n => n = f.rd ∧ 2 ≤ n) (fun _ => False)) ∧
  (∀ (f : P2) (s t : State), Ran t → exec (.pmov f) s = .next t →
      BankFrame s t (fun _ => False) (fun n => n = f.rd ∧ 2 ≤ n) (fun _ => False)) ∧
  (∀ (f : IX) (s t : State), Ran t → ∀ i ∈ [Instr.ixset f, .ixadd f],
      exec i s = .next t → BankFrame s t (fun _ => False) (fun _ => False) (fun n => n = f.rd)) ∧
  (∀ (f : IXG) (s t : State), Ran t → exec (.ixget f) s = .next t →
      BankFrame s t (fun n => n = f.rd ∧ n ≠ 0) (fun _ => False) (fun _ => False))

/-- R156, R158, R185: BR goes to BundleStart + 4 × Sext(offset) and BRI to the byte offset in xa; a target below 0, at or
above the end of the code, or with bits [1:0] nonzero traps FETCHEND (0x02) at the bundle, and otherwise the transfer is
noted and taken when the bundle completes. -/
def Obligations.Branches : Prop :=
  (∀ (s : State), fetchLimit s = if s.mon then 16384 else s.regs.plen) ∧
  (∀ (f : SB) (s : State), f.wf = true → Runs s f.g → ∀ T : Int,
    T = (s.bundle.start : Int) + 4 * (if f.imm.lent then (BitVec.ofNat 30 f.imm.raw).toInt
      else (BitVec.ofNat 21 f.imm.raw).toInt) →
    (0 ≤ T ∧ T < (fetchLimit s : Int) →
      exec (.br f) s = .next { s with bundle := { s.bundle with jump := some T.toNat } }) ∧
    (¬ (0 ≤ T ∧ T < (fetchLimit s : Int)) →
      exec (.br f) s = .next (raiseTrap s { cause := 0x02, slot := 0, info := BitVec.ofInt 64 T }))) ∧
  (∀ (f : RA) (s : State) (a : Word), Runs s f.g → readX s f.ra = .ok a →
    (a.toNat % 4 = 0 ∧ a.toNat < fetchLimit s → exec (.bri f) s =
      .next { killX s f.la f.ra with bundle := { (killX s f.la f.ra).bundle with jump := some a.toNat } }) ∧
    (¬ (a.toNat % 4 = 0 ∧ a.toNat < fetchLimit s) →
      exec (.bri f) s = .next (raiseTrap s { cause := 0x02, slot := 0, info := a })))

/-- R186: LOOP writes xd − 1 to xd and branches when it is not zero, so a count of 0 wraps to all ones and branches; a
target out of the plane traps FETCHEND with xd unchanged, whether or not the branch would be taken; LOOP with rd = 0 is no
instruction, which is ILLEGAL. -/
def Obligations.LoopWord : Prop :=
  (∀ (f : ID) (s : State) (x : Word), (Instr.loop f).wf = true → Runs s f.g → readX s f.rd = .ok x → ∀ T : Int,
    T = (s.bundle.start : Int) + 4 * (Sext f.imm).toInt →
    (0 ≤ T ∧ T < (fetchLimit s : Int) → x ≠ 1 → exec (.loop f) s =
      .next { setX s f.rd (x - 1) with bundle := { (setX s f.rd (x - 1)).bundle with jump := some T.toNat } }) ∧
    (0 ≤ T ∧ T < (fetchLimit s : Int) → x = 1 → exec (.loop f) s = .next (setX s f.rd 0))) ∧
  (∀ (f : ID) (s : State), (Instr.loop f).wf = true → Runs s f.g → ∀ T : Int,
    T = (s.bundle.start : Int) + 4 * (Sext f.imm).toInt → ¬ (0 ≤ T ∧ T < (fetchLimit s : Int)) →
      exec (.loop f) s = .next (raiseTrap s { cause := 0x02, slot := 0, info := BitVec.ofInt 64 T })) ∧
  (∀ w l v s, bitsOf w 30 2 = 0 → bitsOf w 21 6 = 0x34 → bitsOf w 16 5 = 0 → readP v (w / 2 ^ 27 % 8) = true →
    runSlots l [(0, w)] v s = .next (s, some { cause := 0x01, slot := 0, info := BitVec.ofNat 64 w }))

/-- R187, R158: CALL pushes the word address after its bundle and branches, RET pops the top entry and goes there, and
RSDEPTH follows; depth 0 is an underflow, which traps CALLSPILL (0x07) with DETAIL 1, and depth 4,096 an overflow, with
DETAIL 0 (Table 16.2); a target outside the plane traps FETCHEND first, and then nothing is pushed or popped. R288, R289: at the
monitor level both use the monitor's own stack of 16 entries and its store of 16 KiB, no register of a task changes, and an
underflow and a CALL at depth 16 trap. -/
def Obligations.CallAndReturn : Prop :=
  (∀ (f : SB) (s : State), f.wf = true → Runs s f.g → s.mon = false → ∀ T : Int,
    T = (s.bundle.start : Int) + 4 * (if f.imm.lent then (BitVec.ofNat 30 f.imm.raw).toInt
      else (BitVec.ofNat 21 f.imm.raw).toInt) →
    (¬ (0 ≤ T ∧ T < (s.regs.plen : Int)) →
      exec (.call f) s = .next (raiseTrap s { cause := 0x02, slot := 0, info := BitVec.ofInt 64 T })) ∧
    (0 ≤ T ∧ T < (s.regs.plen : Int) → s.regs.rsdepth = 4096 →
      exec (.call f) s = .next (raiseTrap s { cause := 0x07, slot := 0, detail := 0, info := 0 })) ∧
    (0 ≤ T ∧ T < (s.regs.plen : Int) → s.regs.rsdepth ≠ 4096 → s.regs.bank.ret.length < 16 →
      ∃ t, exec (.call f) s = .next t ∧ t.regs.bank = { s.regs.bank with ret := s.bundle.next / 4 :: s.regs.bank.ret } ∧
        t.regs.rsdepth = s.regs.rsdepth + 1 ∧ t.bundle = { s.bundle with jump := some T.toNat } ∧
        SameOutside s t ∧ SameMem s t)) ∧
  (∀ (f : G0) (s : State), Runs s f.g → s.mon = false →
    (s.regs.rsdepth = 0 →
      exec (.ret f) s = .next (raiseTrap s { cause := 0x07, slot := 0, detail := 1, info := 0 })) ∧
    (∀ e r, s.regs.rsdepth ≠ 0 → s.regs.bank.ret = e :: r →
      (4 * e < s.regs.plen → ∃ t, exec (.ret f) s = .next t ∧ t.regs.bank = { s.regs.bank with ret := r } ∧
        t.regs.rsdepth = s.regs.rsdepth - 1 ∧ t.bundle = { s.bundle with jump := some (4 * e) } ∧
        SameOutside s t ∧ SameMem s t) ∧
      (s.regs.plen ≤ 4 * e →
        exec (.ret f) s = .next (raiseTrap s { cause := 0x02, slot := 0, info := BitVec.ofInt 64 ((4 * e : Nat) : Int) })))) ∧
  (∀ (f : SB) (s : State), f.wf = true → Runs s f.g → s.mon = true → ∀ T : Int,
    T = (s.bundle.start : Int) + 4 * (if f.imm.lent then (BitVec.ofNat 30 f.imm.raw).toInt
      else (BitVec.ofNat 21 f.imm.raw).toInt) →
    (¬ (0 ≤ T ∧ T < 16384) →
      exec (.call f) s = .next (raiseTrap s { cause := 0x02, slot := 0, info := BitVec.ofInt 64 T })) ∧
    (0 ≤ T ∧ T < 16384 → s.bank.ret.length = 16 →
      exec (.call f) s = .next (raiseTrap s { cause := 0x07, slot := 0, detail := 0, info := 0 })) ∧
    (0 ≤ T ∧ T < 16384 → s.bank.ret.length < 16 →
      ∃ t, exec (.call f) s = .next t ∧ t.bank = { s.bank with ret := s.bundle.next / 4 :: s.bank.ret } ∧ t.regs = s.regs ∧
        t.bundle = { s.bundle with jump := some T.toNat } ∧ SameOutside s t ∧ SameMem s t)) ∧
  (∀ (f : G0) (s : State), Runs s f.g → s.mon = true →
    (s.bank.ret = [] → exec (.ret f) s = .next (raiseTrap s { cause := 0x07, slot := 0, detail := 1, info := 0 })) ∧
    (∀ e r, s.bank.ret = e :: r →
      (4 * e < 16384 → ∃ t, exec (.ret f) s = .next t ∧ t.bank = { s.bank with ret := r } ∧ t.regs = s.regs ∧
        t.bundle = { s.bundle with jump := some (4 * e) } ∧ SameOutside s t ∧ SameMem s t) ∧
      (16384 ≤ 4 * e →
        exec (.ret f) s = .next (raiseTrap s { cause := 0x02, slot := 0, info := BitVec.ofInt 64 ((4 * e : Nat) : Int) }))))

/-- R187: a CALL at 16 hardware entries first writes the oldest to spill slot depth − 16 and waits for it, and a RET with
none reads slot depth − 1; both stall while a speculation is open, and a faulted access traps CALLSPILL with DETAIL 2 or 3
and nothing of the task changed; what the access has left elsewhere, such as the error that a vault has counted (R326), stays. -/
def Obligations.ReturnStackSpills : Prop :=
  (∀ (f : SB) (s : State), f.wf = true → Runs s f.g → s.mon = false → ∀ T : Int,
    T = (s.bundle.start : Int) + 4 * (if f.imm.lent then (BitVec.ofNat 30 f.imm.raw).toInt
      else (BitVec.ofNat 21 f.imm.raw).toInt) →
    0 ≤ T ∧ T < (s.regs.plen : Int) → s.regs.rsdepth ≠ 4096 → s.regs.bank.ret.length = 16 →
    (s.ctx.spec ≠ none → exec (.call f) s = .next { s with bundle := { s.bundle with status := .stalled } }) ∧
    (s.ctx.spec = none → ∀ s' x,
      spillWrite s s.cur s.ctx (s.ctx.task.spillva + 2 * (s.regs.rsdepth - 16))
        (leBytes 2 ((s.regs.bank.ret.getLast?).getD 0)) = (s', x) →
      (∀ fc, x = some fc → exec (.call f) s =
        .next (raiseTrap s { cause := 0x07, slot := 0, detail := 2, info := BitVec.ofNat 64 fc })) ∧
      (x = none → ∃ t, exec (.call f) s = .next t ∧ t.mem = s'.mem ∧
        t.bank.ret = s'.bundle.next / 4 :: s'.bank.ret.dropLast ∧ t.bundle.jump = some T.toNat))) ∧
  (∀ (f : G0) (s : State), Runs s f.g → s.mon = false → s.regs.rsdepth ≠ 0 → s.regs.bank.ret = [] →
    (s.ctx.spec ≠ none → exec (.ret f) s = .next { s with bundle := { s.bundle with status := .stalled } }) ∧
    (s.ctx.spec = none → ∀ fc k,
      spillRead s s.cur s.ctx (s.ctx.task.spillva + 2 * (s.regs.rsdepth - 1)) 2 = .error (fc, k) →
      exec (.ret f) s = .next (raiseTrap s { cause := 0x07, slot := 0, detail := 3, info := BitVec.ofNat 64 fc })) ∧
    (s.ctx.spec = none → ∀ b s',
      spillRead s s.cur s.ctx (s.ctx.task.spillva + 2 * (s.regs.rsdepth - 1)) 2 = .ok (b, s') →
      4 * (leNat b % 2 ^ 15) < fetchLimit s' →
      ∃ t, exec (.ret f) s = .next t ∧ t.mem = s'.mem ∧ t.bank.ret = [] ∧
        t.bundle.jump = some (4 * (leNat b % 2 ^ 15)))) ∧
  (∀ (s e : State) (t : TrapInfo) (k : State), s.mon = false → s.ctx.spec = none → t.cause = 0x07 →
    (t.detail = 2 → k = (spillWrite s s.cur s.ctx (s.ctx.task.spillva + 2 * (s.regs.rsdepth - 16))
      (leBytes 2 ((s.regs.bank.ret.getLast?).getD 0))).1 → e.bundle.status = .trapped t →
        settle s e none = { takeTrap k t e.bundle.start e.bundle.next with bundle := {} }) ∧
    (t.detail = 3 → ∀ fc, spillRead s s.cur s.ctx (s.ctx.task.spillva + 2 * (s.regs.rsdepth - 1)) 2 = .error (fc, k) →
      e.bundle.status = .trapped t → settle s e none = { takeTrap k t e.bundle.start e.bundle.next with bundle := {} }))

/-- R188, R189, R190: YIELD declares its immediate, which takes effect when the bundle ends; EXIT makes the task's end due
and lets the tile wait at its bundle; both stall while a speculation is open. HBEAT sets the heartbeat counter to zero,
speculation open or not. -/
def Obligations.TaskControl : Prop :=
  (∀ (f : IU) (s : State), Runs s f.g → s.ctx.spec = none →
    exec (.yield f) s = .next { s with bundle := { s.bundle with yielding := some f.imm.raw } }) ∧
  (∀ (f : IU) (s : State), Runs s f.g → s.ctx.spec ≠ none →
    exec (.yield f) s = .next { s with bundle := { s.bundle with status := .stalled } }) ∧
  (∀ (f : G0) (s : State), Runs s f.g → s.mon = false → s.ctx.spec = none →
    ∃ t, exec (.exit f) s = .next t ∧ t.ctx = { s.ctx with exiting := some s.bundle.start } ∧
      (∃ d ∈ t.agenda, d.ev = .taskEnd s.cur s.ctxP) ∧ SameElsewhere s t ∧ SameMem s t) ∧
  (∀ (f : G0) (s : State), Runs s f.g → s.mon = false → s.ctx.spec ≠ none →
    exec (.exit f) s = .next { s with bundle := { s.bundle with status := .stalled } }) ∧
  (∀ (f : G0) (s : State), Runs s f.g →
    ∃ t, exec (.hbeat f) s = .next t ∧ t.ctx = { s.ctx with regs := { s.regs with hbcnt := 0 } } ∧
      t.bundle = s.bundle ∧ SameOutside s t ∧ SameMem s t)

/-- R191, R36, R37, R40: an ARRIVE on a group of the launch inverts the group's phase bit and, unless the group has been
released, leaves a signal of the old phase waiting to leave; it stalls while a speculation is open, and a group outside
BGROUPS traps ILLEGAL (0x01). -/
def Obligations.ArriveWord : Prop :=
  ∀ (f : GB) (s : State), f.wf = true → Runs s f.g →
    (s.ctx.task.bgroups.testBit f.n = false → exec (.arrive f) s =
      .next (raiseTrap s { cause := 0x01, slot := 0, info := BitVec.ofNat 64 ((Instr.arrive f).word % 2 ^ 32) })) ∧
    (s.ctx.task.bgroups.testBit f.n = true → s.ctx.spec ≠ none →
      exec (.arrive f) s = .next { s with bundle := { s.bundle with status := .stalled } }) ∧
    (s.ctx.task.bgroups.testBit f.n = true → s.ctx.spec = none →
      ∃ t, exec (.arrive f) s = .next t ∧ t.mem = s.mem ∧ t.bundle = s.bundle ∧ t.ctx.rollbacks = 0 ∧
        t.ctx.arrives = s.ctx.arrives.setIfInBounds f.n ((s.ctx.arrives[f.n]?).getD 0 + 1) ∧
        (∀ k < 4, (t.regs.ph[k]?).getD false = (if k = f.n then !((s.regs.ph[k]?).getD false) else (s.regs.ph[k]?).getD false)) ∧
        ({ t.regs with ph := s.regs.ph } : Regs) = s.regs ∧
        (s.groupOut s.ctx.task.launch f.n = 0 →
          ∃ w, t.ctx.held = s.ctx.held ++ [{ group := f.n, phase := (s.regs.ph[f.n]?).getD false, waits := w }]) ∧
        (s.groupOut s.ctx.task.launch f.n ≠ 0 → t.ctx.held = s.ctx.held))

/-- R191, R36, R40, R41, R43: a WAIT completes when no ARRIVE of its group is open: the group was released, or the tree has
completed as many phases as the task has made ARRIVEs, the latest one's among them; it then changes no register and no memory.
Otherwise, with SPEC on for the group, SPECMAX nonzero, no speculation open and fewer rollbacks than SPECMAX, it opens a
speculation, whose checkpoint holds the registers with SPECST counted, and completes; otherwise it stalls, and where the number
that the speculation would take is still in use it waits plainly from then on, though the number come free (R282). A group
outside BGROUPS traps ILLEGAL. And R192: WAITF stalls until its flag is set, leaves the flag set, traps by the status record as
the rule says (ENGFAULT 0x0A, MRES 0x0C, HATOM 0x0F, VAULTFAULT 0x0B), and completes in every other case with no register
changed. R122: one that waits for a copy in a channel that a faulted copy holds traps ENGFAULT for the faulted copy's flag. -/
def Obligations.WaitWords : Prop :=
  (∀ (f : GB) (s : State), f.wf = true → Runs s f.g →
     (s.ctx.task.bgroups.testBit f.n = false → exec (.wait f) s =
       .next (raiseTrap s { cause := 0x01, slot := 0, info := BitVec.ofNat 64 ((Instr.wait f).word % 2 ^ 32) })) ∧
     (s.ctx.task.bgroups.testBit f.n = true → waitDone s f.n = true →
       ∃ t, exec (.wait f) s = .next t ∧ t.regs = s.regs ∧ t.ctx.spec = s.ctx.spec ∧ t.bundle = s.bundle ∧
         SameOutside s t ∧ SameMem s t) ∧
     (s.ctx.task.bgroups.testBit f.n = true → waitDone s f.n = false → maySpeculate s f.n = true →
       numberInUse s.ctx = true → ∃ t, exec (.wait f) s = .next t ∧ t.bundle = { s.bundle with status := .held } ∧
         t.ctx = { s.ctx with plain := some s.bundle.start } ∧ maySpeculate { t with bundle := s.bundle } f.n = false ∧
         SameOutside s t ∧ SameMem s t) ∧
     (s.ctx.task.bgroups.testBit f.n = true → waitDone s f.n = false → maySpeculate s f.n = true →
       numberInUse s.ctx = false → ∃ t sp, exec (.wait f) s = .next t ∧ t.ctx.spec = some sp ∧ sp.ckpt = t.regs ∧ sp.group = f.n ∧
         sp.pc = s.bundle.start ∧ sp.phase = !((s.regs.ph[f.n]?).getD false) ∧ sp.awaits = (s.ctx.arrives[f.n]?).getD 0 ∧
           sp.escrow = [] ∧ sp.tracked = [] ∧
         sp.number = (s.ctx.specCount + 1).toNat ∧ t.ctx.specCount = s.ctx.specCount + 1 ∧
         ({ t.regs with specst := s.regs.specst } : Regs) = s.regs ∧ SameOutside s t ∧ SameMem s t) ∧
     (s.ctx.task.bgroups.testBit f.n = true → waitDone s f.n = false → maySpeculate s f.n = false →
       exec (.wait f) s = .next { s with bundle := { s.bundle with status := .stalled } }) ∧
     (waitDone s f.n = true ↔ ∀ l, s.launchOf s.ctx.task.launch = some l →
       ((l.trees[f.n]?).getD {}).out ≠ 0 ∨ (s.ctx.arrives[f.n]?).getD 0 ≤ ((l.trees[f.n]?).getD {}).done) ∧
     (maySpeculate s f.n = true → s.mon = false ∧ s.ctx.task.specs.testBit f.n = true ∧ s.ctx.task.specmax ≠ 0 ∧
       s.ctx.spec = none ∧ s.ctx.rollbacks < s.ctx.task.specmax)) ∧
  (∀ (f : GF) (s : State), Runs s f.g → ∀ fl, fl = (s.regs.flag[f.fn]?).getD {} →
     (∀ h, fl.bound.bind (heldBehind s.ctx) = some h → fl.on = false → exec (.waitf f) s = .next (raiseTrap s
       { cause := 0x0A, slot := 0, detail := h, info := BitVec.ofNat 64 ((s.regs.fl h).status.toNat / 2 ^ 64) })) ∧
     (fl.bound.bind (heldBehind s.ctx) = none → fl.on = false → exec (.waitf f) s = .next { s with bundle := { s.bundle with status := .stalled } }) ∧
     (fl.on = true → ∀ st kind fc, st = bitsHL fl.status.toNat 79 76 → kind = bitsHL fl.status.toNat 75 72 →
         fc = bitsHL fl.status.toNat 71 64 →
       (st = 7 → 7 ≤ kind → kind ≤ 14 → exec (.waitf f) s = .next (raiseTrap s
         { cause := if fc = 0x13 then 0x0A else if fc = 0x12 then 0x0C else if fc = 0x08 then 0x0F
             else if kind = 7 then 0x0A else 0x0B,
           slot := 0, detail := f.fn, info := BitVec.ofNat 64 (fl.status.toNat / 2 ^ 64),
           acc := if fc = 0x12 then some (bitsHL fl.status.toNat 31 28) else none })) ∧
       (st = 2 → fc = 0x12 → exec (.waitf f) s = .next (raiseTrap s
         { cause := 0x0C, slot := 0, detail := f.fn, info := BitVec.ofNat 64 (fl.status.toNat / 2 ^ 64),
           acc := some (bitsHL fl.status.toNat 31 28) })) ∧
       (¬ (st = 7 ∧ 7 ≤ kind ∧ kind ≤ 14) → ¬ (st = 2 ∧ fc = 0x12) →
         ∃ t, exec (.waitf f) s = .next t ∧ t.ctx = s.ctx ∧ t.bundle = s.bundle ∧ SameOutside s t ∧ SameMem s t)))

/-- R193, R194: CSRR writes the CSR's value to xd and CSRW writes xa to the CSR; an unassigned number traps ILLEGAL (0x01) at
every level and a privileged one PRIV (0x08) at the user level; a CSRW of SPECST stalls while a speculation is open. And
R6, R193, Table 9.5 to 9.9, Tables 3.4, 3.5, 3.7, 4.3: what a CSRR of each CSR gives, its reserved bits zero, and what a CSRW of a
user CSR changes: RW fields take the new value, RO fields and RO registers ignore it, and no other register changes. R291
(Tables 16.1, 17.6): the same of the privileged CSRs; R290: TXVAL reads the register of the task that TXIDX names. -/
def Obligations.CsrWords : Prop :=
  ((∀ (f : CR) (s : State), Runs s f.g →
     (csrCause s.mon f.csr = none → exec (.csrr f) s = .next (setX s f.rd (csrRead s f.csr))) ∧
     (∀ c, csrCause s.mon f.csr = some c → exec (.csrr f) s =
       .next (raiseTrap s { cause := c, slot := 0, info := BitVec.ofNat 64 ((Instr.csrr f).word % 2 ^ 32) }))) ∧
   (∀ (f : CW) (s : State) (a : Word), Runs s f.g → readX s f.ra = .ok a →
     (csrCause s.mon f.csr = none → f.csr ≠ 4 ∨ s.ctx.spec = none →
       exec (.csrw f) s = .next (csrWrite (killX s f.la f.ra) f.csr a)) ∧
     (s.ctx.spec ≠ none → f.csr = 4 →
       exec (.csrw f) s = .next { s with bundle := { s.bundle with status := .stalled } }) ∧
     (∀ c, csrCause s.mon f.csr = some c → exec (.csrw f) s =
       .next (raiseTrap s { cause := c, slot := 0, info := BitVec.ofNat 64 ((Instr.csrw f).word % 2 ^ 32) }))) ∧
   (∀ n < 0x400, ∀ m, csrCause m n =
     (if n < 0x0E ∨ 0x10 ≤ n ∧ n ≤ 0x22 then none
      else if 0x100 ≤ n ∧ n ≤ 0x10B ∨ n = 0x110 ∨ n = 0x111 then (if m = true then none else some 0x08) else some 0x01))) ∧
  (∀ (s : State) (v : Word),
     (csrWrite s 0x00 v).regs = { s.regs with frm := v.toNat % 4 } ∧
     (csrWrite s 0x01 v).regs = { s.regs with fflags := v.extractLsb' 0 6 } ∧
     (csrWrite s 0x02 v).regs = { s.regs with srseed := if v = 0 then 1 else v } ∧
     (csrWrite s 0x03 v).regs = { s.regs with retrylim := v.toNat / 256 % 16, boff := v.toNat % 16 } ∧
     (csrWrite s 0x04 v).regs = { s.regs with specst := v } ∧
     (csrWrite s 0x06 v).regs = { s.regs with deadchk := v.getLsbD 8 } ∧
     (csrWrite s 0x08 v).regs = { s.regs with utvec := v.toNat / 4 % 2 ^ 14 * 4 } ∧
     (csrWrite s 0x09 v).regs = { s.regs with utpc := v.toNat / 4 % 2 ^ 14 * 4 } ∧
     (∀ b < 64, (csrWrite s 0x0A v).regs.utcause.getLsbD b = (if b = 16 then v else s.regs.utcause).getLsbD b) ∧
     (∀ n < 4, (csrWrite s (0x1B + n) v).regs = { s.regs with route := s.regs.route.setIfInBounds n (v.toNat % 2 ^ 32) }) ∧
     (∀ n ∈ [0x05, 0x07, 0x0B, 0x0C, 0x0D, 0x10, 0x11, 0x12, 0x13, 0x14, 0x15, 0x16, 0x17, 0x18, 0x19, 0x1A, 0x1F, 0x20,
         0x21, 0x22], (csrWrite s n v).regs = s.regs) ∧
     (∀ n < 0x100, SameOutside s (csrWrite s n v) ∧ SameMem s (csrWrite s n v))) ∧
  (∀ (s : State),
     csrRead s 0x00 = BitVec.ofNat 64 s.regs.frm ∧ csrRead s 0x01 = s.regs.fflags.zeroExtend 64 ∧ csrRead s 0x02 = s.regs.srseed ∧
     (s.regs.retrylim < 16 → s.regs.boff < 16 → (csrRead s 0x03).extractLsb' 8 4 = BitVec.ofNat 4 s.regs.retrylim ∧
       (csrRead s 0x03).extractLsb' 0 4 = BitVec.ofNat 4 s.regs.boff ∧ (csrRead s 0x03).extractLsb' 4 4 = 0 ∧
       (csrRead s 0x03).extractLsb' 12 52 = 0) ∧
     csrRead s 0x04 = s.regs.specst ∧
     ((∀ n < 4, s.groupOut s.ctx.task.launch n < 16) → ∀ n < 4,
       (csrRead s 0x05).extractLsb' (4 * n) 4 = BitVec.ofNat 4 (s.groupOut s.ctx.task.launch n) ∧
       (csrRead s 0x05).getLsbD (16 + n) = (s.regs.ph[n]?).getD false ∧ (csrRead s 0x05).extractLsb' 20 44 = 0) ∧
     (s.mon = false → s.regs.valloc ≤ 64 → (csrRead s 0x06).getLsbD 8 = s.regs.deadchk ∧
       (csrRead s 0x06).extractLsb' 0 8 = BitVec.ofNat 8 s.regs.valloc ∧ (csrRead s 0x06).extractLsb' 9 55 = 0) ∧
     (s.mon = true → csrRead s 0x06 = 64) ∧
     csrRead s 0x07 = BitVec.ofNat 64 s.regs.hbiv ∧ csrRead s 0x08 = BitVec.ofNat 64 s.regs.utvec ∧
     csrRead s 0x09 = BitVec.ofNat 64 s.regs.utpc ∧ csrRead s 0x0A = s.regs.utcause ∧ csrRead s 0x0B = s.regs.utinfo ∧
     (∀ n < 64, (csrRead s 0x0C).getLsbD n = (decide (1 ≤ n ∧ n < 32) && s.regs.bank.dead.getLsbD n) ∧
       (csrRead s 0x0D).getLsbD n = (decide (n < (if s.mon then 64 else s.regs.valloc)) && s.regs.vdead.getLsbD n)) ∧
     csrRead s 0x10 = BitVec.ofNat 64 s.regs.myrank ∧ csrRead s 0x11 = BitVec.ofNat 64 s.regs.gridpos ∧
     csrRead s 0x12 = s.regs.geom ∧ csrRead s 0x13 = BitVec.ofNat 64 s.regs.tsbase ∧ csrRead s 0x14 = BitVec.ofNat 64 s.regs.tslen ∧
     csrRead s 0x15 = BitVec.ofNat 64 s.regs.tillsz ∧ csrRead s 0x16 = BitVec.ofNat 64 s.regs.plen ∧
     csrRead s 0x17 = BitVec.ofNat 64 s.regs.rsdepth ∧ csrRead s 0x18 = BitVec.ofNat 64 s.regs.cycle ∧
     csrRead s 0x19 = BitVec.ofNat 64 s.regs.hbcnt ∧ csrRead s 0x1A = BitVec.ofNat 64 s.ctxP ∧
     (∀ n < 4, csrRead s (0x1B + n) = BitVec.ofNat 64 ((s.regs.route[n]?).getD 0) ∧
       csrRead s (0x1F + n) = BitVec.ofNat 64 ((s.regs.wmark[n]?).getD 0))) ∧
  (∀ (s : State), csrRead s 0x100 = s.curTile.mtcause ∧ csrRead s 0x102 = s.curTile.mtinfo ∧ csrRead s 0x104 = s.curTile.mscratch ∧
     (s.curTile.mtpcPlane < 2 → (csrRead s 0x101).extractLsb' 0 16 = BitVec.ofNat 16 s.curTile.mtpc ∧
       (csrRead s 0x101).getLsbD 16 = decide (s.curTile.mtpcPlane = 1) ∧ (csrRead s 0x101).extractLsb' 17 47 = 0) ∧
     (s.curTile.mendAct < 16 → (csrRead s 0x103).extractLsb' 32 32 = BitVec.ofNat 32 s.curTile.mendCode ∧
       (csrRead s 0x103).extractLsb' 0 4 = BitVec.ofNat 4 s.curTile.mendAct ∧ (csrRead s 0x103).extractLsb' 4 28 = 0) ∧
     (∀ n < 64, (csrRead s 0x105).getLsbD n = (decide (20 ≤ n ∧ n < 48) && s.ctx.task.spillva.testBit n) ∧
       (csrRead s 0x106).getLsbD n = (decide (5 ≤ n ∧ n < 48) && s.ctx.task.lstatva.testBit n)) ∧
     csrRead s 0x107 = BitVec.ofNat 64 s.curTile.txidx ∧
     (∀ p < 2, (s.curTile.pl p).state < 8 →
       (csrRead s (0x109 + p)).extractLsb' 48 16 = BitVec.ofNat 16 (s.curTile.pl p).task.launch ∧
       (csrRead s (0x109 + p)).extractLsb' 16 32 = BitVec.ofNat 32 (s.curTile.pl p).regs.gridpos ∧
       (csrRead s (0x109 + p)).extractLsb' 4 12 = 0 ∧ (csrRead s (0x109 + p)).getLsbD 3 = (s.curTile.pl p).token ∧
       (csrRead s (0x109 + p)).extractLsb' 0 3 = BitVec.ofNat 3 (s.curTile.pl p).state) ∧
     (s.curTile.sysStatus < 256 → s.curTile.sysFcode < 256 →
       (csrRead s 0x10B).extractLsb' 0 8 = BitVec.ofNat 8 s.curTile.sysStatus ∧
       (csrRead s 0x10B).extractLsb' 8 8 = BitVec.ofNat 8 s.curTile.sysFcode ∧ (csrRead s 0x10B).extractLsb' 16 48 = 0) ∧
     (s.ctx.pass < 16 → s.curTile.wrem < 2 ^ 15 → (csrRead s 0x110).extractLsb' 60 4 = BitVec.ofNat 4 s.ctx.task.trank ∧
       (csrRead s 0x110).extractLsb' 56 4 = BitVec.ofNat 4 s.ctx.pass ∧
       (csrRead s 0x110).extractLsb' 34 22 = BitVec.ofNat 22 s.ctx.debt ∧
       (csrRead s 0x110).extractLsb' 15 19 = BitVec.ofNat 19 s.ctx.decl ∧
       (csrRead s 0x110).extractLsb' 0 15 = BitVec.ofNat 15 s.curTile.wrem) ∧
     (s.curTile.txidx < 32 → csrRead s 0x108 =
       (if s.regs.bank.dead.getLsbD s.curTile.txidx = true then 0 else (s.regs.bank.x[s.curTile.txidx]?).getD 0)) ∧
     (s.curTile.txidx = 32 → ∀ n < 64, (csrRead s 0x108).getLsbD n =
       (decide (n = 0) || (decide (2 ≤ n) && (s.regs.bank.p[n]?).getD false))) ∧
     (s.curTile.txidx = 33 → (∀ n < 4, (csrRead s 0x108).extractLsb' (8 * n) 8 = (s.regs.bank.ix[n]?).getD 0) ∧
       (csrRead s 0x108).extractLsb' 32 32 = 0) ∧
     (33 < s.curTile.txidx → csrRead s 0x108 = 0)) ∧
  (∀ (s : State) (v : Word),
     (∀ n ∈ [0x101, 0x103, 0x104, 0x107], SameOutside s (csrWrite s n v) ∧ SameMem s (csrWrite s n v)) ∧
     (csrWrite s 0x101 v).curTile =
       { s.curTile with mtpcPlane := if v.getLsbD 16 = true then 1 else 0, mtpc := v.toNat / 4 % 2 ^ 14 * 4 } ∧
     (csrWrite s 0x103 v).curTile =
       { s.curTile with mendCode := v.toNat / 2 ^ 32, mendAct := if v.toNat % 16 < 3 then v.toNat % 16 else 1 } ∧
     (csrWrite s 0x104 v).curTile = { s.curTile with mscratch := v } ∧
     (csrWrite s 0x107 v).curTile = { s.curTile with txidx := v.toNat % 64 } ∧
     csrWrite s 0x108 v = txWrite s s.cur v ∧
     (∀ n ∈ [0x100, 0x102, 0x105, 0x106, 0x109, 0x10A, 0x10B, 0x110], csrWrite s n v = s) ∧
     (∃ e, csrWrite s 0x111 v = emit s (.scancelWrite s.cur e) ∧ e / 2 ^ 64 = s.ctx.task.launch ∧ e % 2 ^ 64 = v.toNat))

/-- R197: a cause of the set 0x03 to 0x06 and 0x09, with a user handler installed and not active, goes to it in one step:
UTPC, UTCAUSE (NPC, ACTIVE, SLOT and CAUSE in their bits), UTINFO, and the PC at UTVEC; nothing else changes. -/
def Obligations.TrapToUserHandler : Prop :=
  ∀ (s : State) (t : TrapInfo) (start npc : Nat), s.mon = false → t.cause ∈ [0x03, 0x04, 0x05, 0x06, 0x09] →
    t.slot < 3 → s.regs.utvec ≠ 0 → s.regs.utcause.getLsbD 16 = false →
    ∃ u, takeTrap s t start npc = u ∧ u.ctx = { s.ctx with
        regs := { s.regs with utpc := start, utcause := u.regs.utcause, utinfo := t.info, pc := s.regs.utvec } } ∧
      u.regs.utcause.extractLsb' 48 16 = BitVec.ofNat 16 npc ∧ u.regs.utcause.extractLsb' 17 31 = 0 ∧
      u.regs.utcause.getLsbD 16 = true ∧ u.regs.utcause.extractLsb' 10 6 = 0 ∧
      u.regs.utcause.extractLsb' 8 2 = BitVec.ofNat 2 t.slot ∧
      u.regs.utcause.extractLsb' 0 8 = BitVec.ofNat 8 t.cause ∧
      SameOutside s u ∧ SameMem s u

/-- R197, R292, Table 16.1: every other cause, and one of that set while the handler is active or none is installed, goes to
the monitor: MTPC is the bundle's address and names the plane, MTCAUSE holds NPC, DETAIL, PLANE, SLOT and CAUSE, MTINFO the
trap's value, MEND is clear, the level is monitor and the PC is 64 × cause; the task's registers are as they were, but for
the loss mark that an MRES trap consumes (R68). R289: a trap at the monitor level is a monitor fault: the tile is fenced,
nothing runs on it, the rest of the fence is due, and no register of a task changes. -/
def Obligations.TrapToMonitor : Prop :=
  (∀ (s : State) (t : TrapInfo) (start npc : Nat), s.mon = false → s.ctxP < 2 → t.slot ≤ 3 → t.cause < 256 →
      (t.cause ∉ [0x03, 0x04, 0x05, 0x06, 0x09] ∨ s.regs.utvec = 0 ∨ s.regs.utcause.getLsbD 16 = true) →
      ∃ u, takeTrap s t start npc = u ∧ u.cur = s.cur ∧ u.mon = true ∧ u.curTile.mpc = 64 * t.cause ∧
        u.curTile.mtpc = start % 2 ^ 16 ∧ u.curTile.mtpcPlane = s.ctxP ∧ u.curTile.mtinfo = t.info ∧ u.curTile.mendCode = 0 ∧
        u.curTile.mendAct = 0 ∧ u.curTile.mtcause.extractLsb' 48 16 = BitVec.ofNat 16 npc ∧
        u.curTile.mtcause.extractLsb' 40 8 = BitVec.ofNat 8 t.detail ∧
        u.curTile.mtcause.extractLsb' 33 7 = 0 ∧ u.curTile.mtcause.getLsbD 32 = decide (s.ctxP = 1) ∧
        u.curTile.mtcause.extractLsb' 10 22 = 0 ∧ u.curTile.mtcause.extractLsb' 8 2 = BitVec.ofNat 2 t.slot ∧
        u.curTile.mtcause.extractLsb' 0 8 = BitVec.ofNat 8 t.cause ∧ (u.curTile.pl s.ctxP).state = 4 ∧
        (t.cause ≠ 0x0C → u.regs = s.regs)) ∧
  (∀ (s : State) (t : TrapInfo) (start npc : Nat), s.mon = true →
      ∃ u, takeTrap s t start npc = u ∧ (u.tile s.cur).fenced = true ∧ (u.tile s.cur).running = none ∧
        (u.tile s.cur).monitor = false ∧ (∃ d ∈ u.agenda, d.ev = .monitorWatchdogExpiry s.cur) ∧
        ∀ p, (u.plane s.cur p).regs = (s.plane s.cur p).regs)

/-- R196, R14, R197: TRAP traps TRAPI (0x09) with its immediate, to the user handler when one may take it, and MONCALL traps
MONCALL (0x11) to the monitor; while a speculation is open both stall. And R165, R169, R193, R198: at the user level a SYS
word, and a CSR word that names a privileged CSR, ends its bundle with the decode cause PRIV (0x08) and none of its
effect; MTINFO is the word. -/
def Obligations.TrapWords : Prop :=
  ((∀ (f : IU) (s : State), Runs s f.g → s.mon = false → s.ctx.spec = none → s.regs.utvec ≠ 0 →
     s.regs.utcause.getLsbD 16 = false →
     ∃ u, exec (.trap f) s = .next u ∧ u.regs.utpc = s.bundle.start ∧ u.regs.utinfo = BitVec.ofNat 64 f.imm.raw ∧
       u.regs.pc = s.regs.utvec ∧ u.regs.utcause.extractLsb' 0 8 = 0x09 ∧ u.regs.utcause.getLsbD 16 = true ∧
       u.regs.utcause.extractLsb' 48 16 = BitVec.ofNat 16 s.bundle.next ∧ u.regs.bank = s.regs.bank ∧ SameMem s u) ∧
   (∀ (f : IU) (s : State), Runs s f.g → s.mon = false → s.ctx.spec = none →
     ∃ u, exec (.moncall f) s = .next u ∧ u.mon = true ∧ u.curTile.mpc = 64 * 0x11 ∧ u.curTile.mtpc = s.bundle.start % 2 ^ 16 ∧
       u.curTile.mtpcPlane = s.ctxP ∧ u.curTile.mtinfo = BitVec.ofNat 64 f.imm.raw ∧
       u.curTile.mtcause.extractLsb' 0 8 = 0x11 ∧
       u.curTile.mtcause.extractLsb' 48 16 = BitVec.ofNat 16 s.bundle.next ∧ u.regs = s.regs ∧ SameMem s u) ∧
   (∀ (f : IU) (s : State), Runs s f.g → s.mon = false → s.ctx.spec ≠ none →
     exec (.trap f) s = .next { s with bundle := { s.bundle with status := .stalled } } ∧
     exec (.moncall f) s = .next { s with bundle := { s.bundle with status := .stalled } })) ∧
  (∀ (v s : State) (w : Nat) (l : Option Lend) (c : Nat) (r : List (Nat × Nat)) (i : Instr), v.mon = false →
     readP v (w / 2 ^ 27 % 8) = true → decodeWord w (l.map (fun h => h.forCls c)) = .ok i →
     ((∃ f, i = .tret f ∨ i = .planesw f ∨ i = .fenceall f) ∨
       (∃ f, i = .ctxsave f ∨ i = .ctxload f ∨ i = .divert f ∨ i = .resume f) ∨ (∃ f, i = .tlbinv f) ∨
       (∃ f : CR, i = .csrr f ∧ csrPriv f.csr = true) ∨ (∃ f : CW, i = .csrw f ∧ csrPriv f.csr = true)) →
     runSlots l ((c, w) :: r) v s = .next (s, some { cause := 0x08, slot := c, info := BitVec.ofNat 64 w }))

/-- R162: a word whose guard is false has no effect and takes no trap, whatever its other bits hold: this for every
instruction that has a slot word; R154, R155: a header has no effect of its own but to stand in its bundle, and an idle
header none at all. -/
def Obligations.GuardsAndHeaders : Prop :=
  (∀ (i : Instr) (s : State) (c : Nat), i.wf = true → i.cls = some c → c < 3 →
    readP s (i.word / 2 ^ 27 % 8) = false → exec i s = .next s) ∧
  (∀ (w c : Nat) (l : Option Lend) (r : List (Nat × Nat)) (v s : State), readP v (w / 2 ^ 27 % 8) = false →
    runSlots l ((c, w) :: r) v s = runSlots l r v s) ∧
  (∀ s, readP s 0 = true ∧ readP s 1 = false) ∧
  (∀ (h : Lend) (s : State),
    exec (.lendHeader h) s = .next { s with bundle := { s.bundle with hdr := some h } }) ∧
  (∀ (y : Bool) (n : Nat) (s : State), exec (.idleHeader y n) s = .next s)

/-- R11, R14, R151, R152, R162, R169: a step whose bundle is one word runs the instruction that the word decodes to, and then
ends the bundle and lets time pass; a word whose guard is false runs nothing, one that is privileged at the user level
ends the bundle with that cause, and one that does not decode ends it with ILLEGAL. -/
def Obligations.StepRunsDecodedWord : Prop :=
  ∀ (s : State) (r a w : Nat) (s0 b : State), TileRuns s r → s0 = { s with cur := r, bundle := {} } → a = fetchPc s0 →
    a + 4 ≤ fetchLimit s0 → w = codeWord s0 a → wordClass w < 3 →
    (fetchLimit s0 < a + 8 ∨ wordClass (codeWord s0 (a + 4)) ≤ wordClass w ∨ wordClass (codeWord s0 (a + 4)) = 3) →
    b = { s0 with bundle := { start := a, next := a + 4 } } →
    (readP b (w / 2 ^ 27 % 8) = false → step s = .next (passTime (settle s0 b none) (some (r, s.tile r)))) ∧
    (readP b (w / 2 ^ 27 % 8) = true →
      (∀ i, decodeWord w none = .ok i →
        (privCause b.mon i = none → ∀ e, exec i b = .next e → step s =
          .next (passTime (settle s0 { e with bundle := { e.bundle with start := a, next := a + 4 } } none) (some (r, s.tile r)))) ∧
        (∀ k, privCause b.mon i = some k → step s = .next (passTime (settle s0 b
          (some { cause := k, slot := wordClass w, info := BitVec.ofNat 64 w })) (some (r, s.tile r))))) ∧
      (∀ x, decodeWord w none = .error x → step s = .next (passTime (settle s0 b
        (some { cause := 0x01, slot := wordClass w, info := BitVec.ofNat 64 w })) (some (r, s.tile r)))))

/-- R153, R154, R157: a step whose bundle is a lend header and the one word that it names runs that word with the bits the
header lends it. -/
def Obligations.StepRunsLentWord : Prop :=
  ∀ (s : State) (r a w c : Nat) (h : Lend) (s0 b : State), TileRuns s r → s0 = { s with cur := r, bundle := {} } →
    a = fetchPc s0 → a + 8 ≤ fetchLimit s0 → decodeWord (codeWord s0 a) none = .ok (.lendHeader h) → h.only = some c →
    lendsNone h = false → wordClass (codeWord s0 a) = 3 → w = codeWord s0 (a + 4) → wordClass w = c →
    b = { s0 with bundle := { start := a, next := a + 8, hdr := some h } } → readP b (w / 2 ^ 27 % 8) = true →
    ∀ i, decodeWord w (some (h.forCls c)) = .ok i → privCause b.mon i = none → ∀ e, exec i b = .next e →
      step s = .next (passTime (settle s0 { e with bundle := { e.bundle with start := a, next := a + 8 } } none) (some (r, s.tile r)))

/-- R14, R156, R163, R185: at the end of a bundle that ran, the marked registers are dead, the PC is the target of a taken
transfer or the address after the bundle, and every other register is as the words left it; a bundle that stalled has no
effect, and one that trapped has none but its trap. And R152, R153, R155, R168, R21: fetch and framing trap at the bundle,
before any word runs: FETCHEND (0x02) where fetch stands at the end of the code or a header names a word beyond it, and
ILLEGAL (0x01) for a header that decodes to none, whose words have not the classes it names, or that lends bits to a word that its
bundle does not have. -/
def Obligations.BundlesBeginAndEnd : Prop :=
  (∀ (s e : State), s.mon = false → s.ctx.spec = none →
     (e.mon = false → e.ctx.spec = none → e.bundle.status = .running → e.bundle.moved = false → e.bundle.yielding = none →
       ∃ u, settle s e none = u ∧ u.bundle = {} ∧ SameOutside e u ∧ SameMem e u ∧
         u.regs.pc = e.bundle.jump.getD e.bundle.next ∧
         (∀ n < 32, u.regs.bank.dead.getLsbD n = (e.regs.bank.dead.getLsbD n || decide (n ∈ e.bundle.killX))) ∧
         (∀ n < 64, u.regs.vdead.getLsbD n = (e.regs.vdead.getLsbD n || decide (n ∈ e.bundle.killV))) ∧
         ({ u.regs with pc := e.regs.pc, vdead := e.regs.vdead, bank := { u.regs.bank with dead := e.regs.bank.dead } } : Regs)
           = e.regs ∧ { u.ctx with regs := e.regs } = e.ctx) ∧
     (e.bundle.status = .stalled → settle s e none = s) ∧
     (∀ t, e.bundle.status = .trapped t → t.cause ≠ 0x07 ∨ t.detail < 2 →
       settle s e none = { takeTrap s t e.bundle.start e.bundle.next with bundle := {} }) ∧
     (∀ t, t.cause ≠ 0x07 → settle s e (some t) = { takeTrap s t e.bundle.start e.bundle.next with bundle := {} })) ∧
  (∀ (s : State) (a : Nat),
     (fetchLimit s < a + 4 → frame s a = .error { cause := 0x02, info := BitVec.ofNat 64 a }) ∧
     (a + 4 ≤ fetchLimit s → wordClass (codeWord s a) = 3 →
       (fetchLimit s < a + 4 + 4 * maskWords (codeWord s a) →
         frame s a = .error { cause := 0x02, info := BitVec.ofNat 64 (fetchLimit s) }) ∧
       (a + 4 + 4 * maskWords (codeWord s a) ≤ fetchLimit s → bitsOf (codeWord s a) 29 1 = 1 →
         ∀ x, decodeWord (codeWord s a) none = .error x → frame s a = .error { cause := 0x01, info := BitVec.ofNat 64 (codeWord s a) }) ∧
       (bitsOf (codeWord s a) 29 1 = 0 → maskWords (codeWord s a) =
         bitsOf (codeWord s a) 28 1 + bitsOf (codeWord s a) 27 1 + bitsOf (codeWord s a) 26 1) ∧
       (bitsOf (codeWord s a) 29 1 = 0 → ∀ h, h = Lend.read (codeWord s a) →
         (decodeWord (codeWord s a) none = .ok (.lendHeader h) ∨ (h.hs = false ∧ h.ls ≠ 0) ∨ (h.hv = false ∧ h.lv ≠ 0) ∨
           (h.hm = false ∧ h.lm ≠ 0)) ∧
         (fetchLimit s < a + 4 + 4 * (lendClasses h).length →
           frame s a = .error { cause := 0x02, info := BitVec.ofNat 64 (fetchLimit s) }) ∧
         (a + 4 + 4 * (lendClasses h).length ≤ fetchLimit s →
           (∃ k < (lendClasses h).length, (lendClasses h)[k]? ≠ some (wordClass (codeWord s (a + 4 + 4 * k)))) →
           frame s a = .error { cause := 0x01, info := BitVec.ofNat 64 (codeWord s a) }) ∧
         (a + 4 + 4 * (lendClasses h).length ≤ fetchLimit s →
           (∀ k < (lendClasses h).length, (lendClasses h)[k]? = some (wordClass (codeWord s (a + 4 + 4 * k)))) →
           (∃ f, frame s a = .ok f ∧ f.lend = some h ∧ f.next = a + 4 + 4 * (lendClasses h).length ∧
             f.ws.map (·.1) = lendClasses h ∧
             (∀ k < (lendClasses h).length, (f.ws[k]?).map (·.2) = some (codeWord s (a + 4 + 4 * k)))) ∧
           ((h.hs = false ∧ h.ls ≠ 0) ∨ (h.hv = false ∧ h.lv ≠ 0) ∨ (h.hm = false ∧ h.lm ≠ 0) → h.hs = false →
             s.mon = false → s.ctx.spec = none → fetchPc s = a → s.bundle = {} →
             runBundle s = .next { takeTrap s { cause := 0x01, info := BitVec.ofNat 64 (codeWord s a) } a
               (a + 4 + 4 * (lendClasses h).length) with bundle := {} })))) ∧
     (∀ t, frame s a = .error t → s.mon = false → s.ctx.spec = none → fetchPc s = a → s.bundle = {} →
       runBundle s = .next (takeTrap s t a (Config.npc s.tick))))

/-- R34, R35, R289, R310: the time that a step takes changes no register but CYCLE and HBCNT, and no memory but the host's
own; the step counter advances. The amounts are free values. -/
def Obligations.TimePasses : Prop :=
  ∀ (s : State) (o : Option (Nat × Tile)),
    (∀ r p, ({ ((passTime s o).plane r p).regs with cycle := (s.plane r p).regs.cycle, hbcnt := (s.plane r p).regs.hbcnt }
        : Regs) = (s.plane r p).regs) ∧
    (passTime s o).tick = s.tick + 1 ∧ s.podTime ≤ (passTime s o).podTime ∧
    (∀ a, a < spaceBase 4 0 → memGet (passTime s o).mem a = memGet s.mem a) ∧
    (∀ r, ((passTime s o).tile r).mbank = (s.tile r).mbank ∧ ((passTime s o).tile r).monitor = (s.tile r).monitor) ∧
    (passTime s o).vaults = s.vaults ∧ (passTime s o).pkgs = s.pkgs

/-- R295, R296, R298, R299, R314: TRET leaves the monitor. ACT 0 resumes the plane in MTPC at MTPC's address, at the user level;
after a PREEMPT of DETAIL 0 the arbiter decides which plane runs, and a plane whose task is to be resumed enters the monitor with
PREEMPT again; a task that made a MONCALL finds the service's results in x1 and x2. ACT 1, and any ACT at a fenced tile, leaves the
plane draining (STATE 6), with its PLANE_FREE due; of a MONCALL, Abort ends the task so and no other call does. ACT 2 waits until
the plane's engines hold nothing that has started, and then frees the plane and leaves the task suspended with its registers and its
resume address, or ends it when its cancel is pending. TRET stalls while a speculation is open (R198). -/
def Obligations.TretWord : Prop :=
  (∀ (u : Tile), u.tretEnds = true ↔ u.fenced = true ∨
    (u.mtcause.toNat % 256 = 0x11 ∧ u.mtcause.toNat / 2 ^ 32 % 2 = u.mtpcPlane ∧ u.mtinfo.toNat % 2 ^ 32 = 3) ∨
    (¬ (u.mtcause.toNat % 256 = 0x11 ∧ u.mtcause.toNat / 2 ^ 32 % 2 = u.mtpcPlane) ∧ u.mendAct = 1)) ∧
  ∀ (f : G0) (s : State) (p : Nat) (u : Tile), Runs s f.g → s.mon = true → u = s.curTile → p = u.mtpcPlane → p < 2 →
    (s.ctx.spec ≠ none → Stalls (.tret f) s) ∧
    (s.ctx.spec = none → u.tretEnds = false → u.mendAct = 2 → engIdle u p = false → Stalls (.tret f) s) ∧
    (s.ctx.spec = none → u.tretEnds = true ∨ u.mendAct ≠ 2 ∨ engIdle u p = true →
      ∃ t, exec (.tret f) s = .next t ∧ t.bundle.moved = true) ∧
    (s.ctx.spec = none → u.tretEnds = false → u.mendAct ≠ 2 → ∃ t, exec (.tret f) s = .next t ∧
      (t.plane s.cur p).regs.pc = u.mtpc ∧
      (¬ (u.mtcause.toNat % 256 = 0x10 ∧ bitsHL u.mtcause.toNat 47 40 = 0) → (u.pl p).resumeKind = false →
        (t.tile s.cur).monitor = false ∧ (t.tile s.cur).running = some p ∧ (t.plane s.cur p).state = 3) ∧
      (u.mtcause.toNat % 256 = 0x10 → bitsHL u.mtcause.toNat 47 40 = 0 → u.mtcause.toNat / 2 ^ 32 % 2 = p →
        (t.plane s.cur p).state = 3) ∧
      (u.mtcause.toNat % 256 ≠ 0x10 → (u.pl p).resumeKind = true → (t.tile s.cur).monitor = true ∧
        (t.tile s.cur).mtpcPlane = p ∧ (t.tile s.cur).mtpc = (u.pl p).resume % 2 ^ 16 ∧
        (t.tile s.cur).mtcause.extractLsb' 0 8 = 0x10 ∧ (t.tile s.cur).mtcause.extractLsb' 40 8 = 1) ∧
      (u.mtcause.toNat % 256 = 0x11 → u.mtcause.toNat / 2 ^ 32 % 2 = p →
        ((u.mtinfo.toNat % 2 ^ 32 = 0 ∨ u.mtinfo.toNat % 2 ^ 32 = 1) → (t.plane s.cur p).regs.bank.x[2]? = some 0) ∧
        (u.mtinfo.toNat % 2 ^ 32 = 1 → (t.plane s.cur p).regs.bank.x[1]? = some (BitVec.ofNat 64 s.podTime)) ∧
        (u.mtinfo.toNat % 2 ^ 32 = 2 → (t.plane s.cur p).regs.bank.x[2]? =
          some (if logAddress (u.pl p).regs = none then 2 else 0)) ∧
        (4 ≤ u.mtinfo.toNat % 2 ^ 32 → (t.plane s.cur p).regs.bank.x[1]? = some 0 ∧
          (t.plane s.cur p).regs.bank.x[2]? = some 1))) ∧
    (s.ctx.spec = none → u.tretEnds = true → ∃ t, exec (.tret f) s = .next t ∧ t.Due (.planeFree s.cur p) ∧
      (t.plane s.cur p).state = 6) ∧
    (s.ctx.spec = none → u.tretEnds = false → u.mendAct = 2 → engIdle u p = true → (u.pl p).cancel = true →
      ∃ t, exec (.tret f) s = .next t ∧ t.Due (.planeFree s.cur p) ∧ (t.plane s.cur p).state = 6) ∧
    (s.ctx.spec = none → u.tretEnds = false → u.mendAct = 2 → engIdle u p = true → (u.pl p).cancel = false →
      (suspOf s s.cur (u.pl p).task = none → ∃ t v, exec (.tret f) s = .next t ∧ v ∈ t.suspended ∧ v.rank = s.cur ∧
        v.plane.resume = u.mtpc ∧ v.plane.regs = ((applyKills s).plane s.cur p).regs ∧ v.plane.task = (u.pl p).task ∧
        (t.plane s.cur p).state = 0) ∧
      (∀ w, suspOf s s.cur (u.pl p).task = some w → ∃ t v, exec (.tret f) s = .next t ∧ v ∈ t.suspended ∧ v.rank = s.cur ∧
        v.plane.regs = w.plane.regs ∧ v.plane.task = w.plane.task ∧ (t.plane s.cur p).state = 0))

/-- R296: PLANESW exchanges the monitor's plane with the other when that is resident or has a swap token, and changes nothing
otherwise: MTPC then names the other plane and the address at which it resumes, and the plane left behind is resident at
the old MTPC. FENCEALL completes when the engines of the plane hold nothing that has started, and stalls until then. Both stall
while a speculation is open (R198). -/
def Obligations.PlaneswAndFenceall : Prop :=
  ∀ (f : G0) (s : State), Runs s f.g → s.mon = true → s.curTile.mtpcPlane < 2 →
    (s.ctx.spec ≠ none → Stalls (.planesw f) s ∧ Stalls (.fenceall f) s) ∧
    (s.ctx.spec = none →
      ((s.curTile.pl (1 - s.curTile.mtpcPlane)).state ≠ 3 →
        ((s.curTile.pl (1 - s.curTile.mtpcPlane)).token = false ∨ (s.curTile.pl (1 - s.curTile.mtpcPlane)).state ≠ 2) →
        exec (.planesw f) s = .next s) ∧
      ((s.curTile.pl (1 - s.curTile.mtpcPlane)).state = 3 ∨
        ((s.curTile.pl (1 - s.curTile.mtpcPlane)).token = true ∧ (s.curTile.pl (1 - s.curTile.mtpcPlane)).state = 2) →
        ∃ t, exec (.planesw f) s = .next t ∧ t.curTile.mtpcPlane = 1 - s.curTile.mtpcPlane ∧
          t.curTile.mtpc = (s.curTile.pl (1 - s.curTile.mtpcPlane)).resumePoint % 2 ^ 16 ∧
          (t.curTile.pl s.curTile.mtpcPlane).state = 3 ∧
          (t.curTile.pl s.curTile.mtpcPlane).regs.pc = s.curTile.mtpc ∧
          (t.curTile.pl (1 - s.curTile.mtpcPlane)).state = 4 ∧ (t.curTile.pl (1 - s.curTile.mtpcPlane)).token = false ∧
          t.mon = true ∧ SameOutside s t ∧ SameMem s t) ∧
      (engIdle s.curTile s.ctxP = true → exec (.fenceall f) s = .next s) ∧
      (engIdle s.curTile s.ctxP = false → Stalls (.fenceall f) s))

/-- R296, Table 16.1 (SYSST): CTXSAVE waits until the plane's engines hold nothing that has started; it then writes the context
record, the engine and matching records and, with bit 0 of its operand set, the image. SYSST reads 0, and the entries that have not
started have left the engines, or 1 with the fault code of the access that failed. CTXLOAD leaves SYSST 0, or 1 with the fault code
when a record or the image cannot be read, or 2 when the record does not fit the allocation, and in the last two cases no plane has
changed but by the reads. An operand with a nonzero bit in [19:1] traps ILLEGAL, which is a monitor fault when the bundle ends. Both
stall while a speculation is open (R198). And R297 (Table 16.7): what CTXLOAD restores of a plane's registers from the bytes of the
context record: the registers of the scalar bank, x and v registers that are not marked live being dead, the q registers, the flags
with their status records, the watermarks, ROUTE, the descriptors, the modes of the accumulators, the pc and the return stack, and
the CSRs that are not the launch's own, whose reserved bits stay zero; the launch's CSRs stay. A flag that was bound when the record
was written and has completed since keeps what it completed with. What CTXSAVE writes of a plane's registers is what CTXLOAD gives
back: each register of the context is as it was, its status records without their reserved bits. -/
def Obligations.ContextWords : Prop :=
  (∀ (f : RA) (s : State), Runs s f.g → s.mon = true → s.ctx.spec ≠ none → Stalls (.ctxsave f) s ∧ Stalls (.ctxload f) s) ∧
  (∀ (f : RA) (s : State) (x : Word), Runs s f.g → s.mon = true → s.ctx.spec = none → readX s f.ra = .ok x →
     (x.toNat / 2 % 2 ^ 19 ≠ 0 →
       exec (.ctxsave f) s =
         .next (raiseTrap s { cause := 0x01, slot := 0, info := BitVec.ofNat 64 ((Instr.ctxsave f).word % 2 ^ 32) }) ∧
       exec (.ctxload f) s =
         .next (raiseTrap s { cause := 0x01, slot := 0, info := BitVec.ofNat 64 ((Instr.ctxload f).word % 2 ^ 32) })) ∧
     (x.toNat / 2 % 2 ^ 19 = 0 → engIdle s.curTile s.ctxP = false → Stalls (.ctxsave f) s) ∧
     (x.toNat / 2 % 2 ^ 19 = 0 → engIdle s.curTile s.ctxP = true → ∀ k w, k = killX s f.la f.ra →
       w = writeRows k s.cur (k.plane k.cur s.ctxP) (x.toNat / 2 ^ 20 * 2 ^ 20) (saveRows k s.ctxP (x.getLsbD 0)) →
       ∃ t, exec (.ctxsave f) s = .next t ∧ t.mem = w.1.mem ∧
         (w.2 = none → t.curTile.sysStatus = 0 ∧ (∀ e ∈ (t.plane t.cur s.ctxP).mx, e.started = true) ∧
           (t.plane t.cur s.ctxP).saved = unstartedOf (w.1.plane w.1.cur s.ctxP) ∧
           ∀ n, n ∈ (t.plane t.cur s.ctxP).out ↔ n < 64 ∧ ((w.1.plane w.1.cur s.ctxP).regs.fl n).bound ≠ none) ∧
         (∀ fc, w.2 = some fc → t.curTile.sysStatus = 1 ∧ t.curTile.sysFcode = fc ∧ ∀ r p, t.plane r p = w.1.plane r p)) ∧
     (x.toNat / 2 % 2 ^ 19 = 0 → ∀ k b q, k = killX s f.la f.ra → b = x.toNat / 2 ^ 20 * 2 ^ 20 →
       q = spillRead k k.cur (k.plane k.cur s.ctxP) (b + 0x2000) 65536 →
       (∃ t, exec (.ctxload f) s = .next t) ∧
       (∀ fc v, q = .error (fc, v) → ∃ t, exec (.ctxload f) s = .next t ∧ t.curTile.sysStatus = 1 ∧ t.curTile.sysFcode = fc ∧
         (∀ r p, t.plane r p = v.plane r p) ∧ t.mem = v.mem) ∧
       (∀ d v, q = .ok (d, v) → ctxFits (s.plane s.cur s.ctxP).regs d = false →
         ∃ t, exec (.ctxload f) s = .next t ∧ t.curTile.sysStatus = 2 ∧ (∀ r p, t.plane r p = v.plane r p) ∧ t.mem = v.mem) ∧
       (∀ d v fc z, q = .ok (d, v) → ctxFits (s.plane s.cur s.ctxP).regs d = true →
         readRecords v s.ctxP b (x.getLsbD 0) = .error (fc, z) →
         ∃ t, exec (.ctxload f) s = .next t ∧ t.curTile.sysStatus = 1 ∧ t.curTile.sysFcode = fc ∧
           (∀ r p, t.plane r p = z.plane r p) ∧ t.mem = z.mem) ∧
       (∀ d v im y, q = .ok (d, v) → ctxFits (s.plane s.cur s.ctxP).regs d = true →
         readRecords v s.ctxP b (x.getLsbD 0) = .ok (im, y) →
         ∃ t, exec (.ctxload f) s = .next t ∧ t.curTile.sysStatus = 0))) ∧
  (∀ (now old : Regs) (out : List Nat) (b : List Byte) (g : Regs) (at_ : Nat → Nat → Nat), g = loadRegs now old out b →
     (∀ o n, at_ o n = leNat ((b.drop o).take n)) →
     (∀ n < 32, g.bank.x[n]? = some (if n ≠ 0 ∧ (at_ 0x10 4).testBit n = true then BitVec.ofNat 64 (at_ (0x40 + 8 * n) 8) else 0)) ∧
     (∀ n < 32, 0 < n → g.bank.dead.getLsbD n = !((at_ 0x10 4).testBit n)) ∧
     (∀ n, 2 ≤ n → n < 8 → g.bank.p[n]? = some ((at_ 0x140 1).testBit n)) ∧
     (∀ n < 4, g.bank.ix[n]? = some (BitVec.ofNat 8 (at_ (0x144 + n) 1))) ∧
     g.bank.ret.length = min 16 (at_ 0x23 1) ∧
     (∀ k < min 16 (at_ 0x23 1), g.bank.ret.reverse[k]? = some (at_ (0x160 + 2 * k) 2 % 2 ^ 15)) ∧
     g.pc = at_ 0x20 2 * 4 ∧ g.rsdepth = at_ 0x24 2 % 2 ^ 13 ∧
     (∀ n, 2 ≤ n → n < 8 → g.q[n]? = some (BitVec.ofNat 128 (at_ (0x180 + 16 * (n - 2)) 16))) ∧
     (∀ n < 64, g.v[n]? = some (if n < now.valloc ∧ (at_ 0x18 8).testBit n = true then BitVec.ofNat 1024 (at_ (0x8900 + 128 * n) 128)
         else 0) ∧ g.vdead.getLsbD n = !((at_ 0x18 8).testBit n)) ∧
     (∀ n < 64, (n ∉ out ∨ (old.fl n).bound ≠ none →
         (g.fl n).on = (at_ 0 8).testBit n ∧ (∀ k < 128, (g.fl n).status.getLsbD k =
           ((at_ (0x300 + 16 * n) 16).testBit k && !decide (25 ≤ k ∧ k < 28))) ∧ (g.fl n).bound = (old.fl n).bound) ∧
       (n ∈ out → (old.fl n).bound = none → g.fl n = old.fl n)) ∧
     (∀ n < 4, g.wmark[n]? = some (at_ (0x2E0 + 4 * n) 4) ∧ g.route[n]? = some (at_ (0x2F0 + 4 * n) 4) ∧
       (g.acc[n]?).map (·.int32) = some ((at_ 0x27 1).testBit n)) ∧
     (∀ n < 16, (g.t[n]?).map (·.raw) = some (BitVec.ofNat 256 (at_ (0x700 + 32 * n) 32))) ∧
     g.frm = at_ 0x200 8 % 4 ∧ g.fflags = BitVec.ofNat 6 (at_ 0x208 8) ∧ g.srseed = BitVec.ofNat 64 (at_ 0x210 8) ∧
     g.retrylim = at_ 0x218 8 / 256 % 16 ∧ g.boff = at_ 0x218 8 % 16 ∧ g.specst = BitVec.ofNat 64 (at_ 0x220 8) ∧
     g.deadchk = (at_ 0x230 8).testBit 8 ∧ g.utvec = at_ 0x240 8 / 4 % 2 ^ 14 * 4 ∧ g.utpc = at_ 0x248 8 / 4 % 2 ^ 14 * 4 ∧
     (∀ k < 64, g.utcause.getLsbD k = ((at_ 0x250 8).testBit k && (decide (48 ≤ k) || k == 16 || decide (k < 10)))) ∧
     g.utinfo = BitVec.ofNat 64 (at_ 0x258 8) ∧ g.cycle = at_ 0x2C0 8 ∧ g.hbcnt = at_ 0x2C8 8 % 2 ^ 29 ∧ g.ph = old.ph ∧
     g.myrank = now.myrank ∧ g.gridpos = now.gridpos ∧ g.geom = now.geom ∧ g.tsbase = now.tsbase ∧ g.tslen = now.tslen ∧
     g.tillsz = now.tillsz ∧ g.plen = now.plen ∧ g.hbiv = now.hbiv ∧ g.valloc = now.valloc) ∧
  (∀ (v : State) (g now old : Regs) (pc : Nat) (saved : List Unstarted) (out : List Nat) (b : List Byte), v.regs = g →
     v.mon = false → g.InRange → now.valloc = g.valloc → pc % 4 = 0 → pc < 2 ^ 18 →
     (∀ x ∈ ctxRows v g pc saved, x.2.2 = true → (b.drop x.1).take x.2.1.length = x.2.1) →
     ContextKept g (loadRegs now old out b) ∧ (loadRegs now old out b).pc = pc ∧
     ∀ n < 64, n ∉ out → ((loadRegs now old out b).fl n).on = (g.fl n).on ∧
       ∀ k < 128, ((loadRegs now old out b).fl n).status.getLsbD k = ((g.fl n).status.getLsbD k && !decide (25 ≤ k ∧ k < 28)))

/-- R296, R298, R299, R327: DIVERT checks that the device reaches the spill queue, waits for the deliveries that are in progress
when it begins, and then diverts arrivals to the queue at its address; RESUME reads the queue's entries from its address on and
admits them again, in order: it stops with SYSST 1 and the fault code where one cannot be read, leaves those that do not fit yet to
be admitted later, and ends the diversion when the queue is empty. SYSST reads 0 otherwise, and 1 with the fault code where DIVERT
finds a fault. An address that is no multiple of 64 KiB traps ILLEGAL. They stall while a speculation is open (R198). TLBINV of a
span that leaves the address space traps ILLEGAL; otherwise it drops the entries, and completes when no request that they translated
is left, for which it waits. -/
def Obligations.DivertResumeTlbinv : Prop :=
  (∀ (f : RA) (b : RAB) (s : State), s.mon = true → s.ctx.spec ≠ none →
    (Runs s f.g → Stalls (.divert f) s ∧ Stalls (.resume f) s) ∧ (Runs s b.g → Stalls (.tlbinv b) s)) ∧
  (∀ (f : RA) (s : State) (x : Word), Runs s f.g → s.mon = true → s.ctx.spec = none → readX s f.ra = .ok x →
    (x.toNat % 65536 ≠ 0 →
      exec (.divert f) s =
        .next (raiseTrap s { cause := 0x01, slot := 0, info := BitVec.ofNat 64 ((Instr.divert f).word % 2 ^ 32) }) ∧
      exec (.resume f) s =
        .next (raiseTrap s { cause := 0x01, slot := 0, info := BitVec.ofNat 64 ((Instr.resume f).word % 2 ^ 32) })) ∧
    (x.toNat % 65536 = 0 → s.curTile.divertWait = none → ∀ fc, queueFault s s.ctxP x = some fc →
      ∃ t, exec (.divert f) s = .next t ∧ t.curTile.sysStatus = 1 ∧ t.curTile.sysFcode = fc ∧ t.ctx = s.ctx ∧
        SameOutside s t ∧ SameMem s t) ∧
    (x.toNat % 65536 = 0 → s.curTile.divertWait = none → queueFault s s.ctxP x = none → s.ctx.deliveries ≠ [] →
      ∃ t, exec (.divert f) s = .next t ∧ t.bundle = { s.bundle with status := .held } ∧ t.ctx = s.ctx ∧
        t.curTile.divertWait = some (s.ctx.deliveries.map (·.did)) ∧ SameOutside s t ∧ SameMem s t) ∧
    (x.toNat % 65536 = 0 → ∀ w, s.curTile.divertWait = some w → (∃ d ∈ s.ctx.deliveries, d.did ∈ w) →
      ∃ t, exec (.divert f) s = .next t ∧ t.bundle = { s.bundle with status := .held } ∧ t.ctx = s.ctx ∧
        t.curTile.divertWait = some w ∧ SameOutside s t ∧ SameMem s t) ∧
    (x.toNat % 65536 = 0 → (s.curTile.divertWait = none ∧ queueFault s s.ctxP x = none ∧ s.ctx.deliveries = []) ∨
        (∃ w, s.curTile.divertWait = some w ∧ ∀ d ∈ s.ctx.deliveries, d.did ∉ w) →
      ∃ t, exec (.divert f) s = .next t ∧ t.curTile.sysStatus = 0 ∧ t.curTile.divertWait = none ∧
        t.ctx = { s.ctx with diverted := true, readmit := false, queueAt := x.toNat,
                             queueHead := if s.ctx.spillq = [] then 0 else s.ctx.queueHead } ∧
        SameOutside s t ∧ SameMem s t) ∧
    (x.toNat % 65536 = 0 → s.ctx.diverted = false →
      ∃ t, exec (.resume f) s = .next t ∧ t.curTile.sysStatus = 0 ∧ t.ctx = s.ctx ∧ SameOutside s t ∧ SameMem s t) ∧
    (x.toNat % 65536 = 0 → s.ctx.diverted = true → s.ctx.spillq = [] →
      ∃ t, exec (.resume f) s = .next t ∧ t.curTile.sysStatus = 0 ∧
        t.ctx = { s.ctx with queueAt := x.toNat, diverted := false, readmit := false } ∧ SameOutside s t ∧ SameMem s t) ∧
    (x.toNat % 65536 = 0 → s.ctx.diverted = true → ∀ e l k q, s.ctx.spillq = e :: l →
      k = (killX s f.la f.ra).modPlane s.cur s.ctxP (fun pl => { pl with queueAt := x.toNat, readmit := true }) →
      q = queueRead k s.cur (k.plane s.cur s.ctxP) s.ctx.queueHead (spillCost e) →
      (∀ fc v, q = .error (fc, v) → ∃ t, exec (.resume f) s = .next t ∧ t.curTile.sysStatus = 1 ∧ t.curTile.sysFcode = fc ∧
        (t.plane s.cur s.ctxP).readmit = false ∧ (t.plane s.cur s.ctxP).spillq = (v.plane s.cur s.ctxP).spillq) ∧
      (∀ b v, q = .ok (b, v) →
        admitEntry (v.modPlane s.cur s.ctxP (fun pl => pl.popSpill e)) s.cur s.ctxP (e.withBytes b) = none →
        ∃ t, exec (.resume f) s = .next t ∧ t.curTile.sysStatus = 0 ∧ ∀ r p, t.plane r p = v.plane r p) ∧
      (∀ b v w, q = .ok (b, v) → l = [] →
        admitEntry (v.modPlane s.cur s.ctxP (fun pl => pl.popSpill e)) s.cur s.ctxP (e.withBytes b) = some w →
        (w.plane s.cur s.ctxP).spillq = [] → ∃ t, exec (.resume f) s = .next t ∧ (t.plane s.cur s.ctxP).diverted = false ∧
          (t.plane s.cur s.ctxP).readmit = false ∧ t.mem = w.mem))) ∧
  (∀ (f : RAB) (s : State) (a b : Word), Runs s f.g → s.mon = true → s.ctx.spec = none → readX s f.ra = .ok a → readX s f.rb = .ok b →
    (2 ^ 48 ≤ a.toNat ∨ (b ≠ 0 ∧ 2 ^ 48 < a.toNat + b.toNat) → exec (.tlbinv f) s =
      .next (raiseTrap s { cause := 0x01, slot := 0, info := BitVec.ofNat 64 ((Instr.tlbinv f).word % 2 ^ 32) })) ∧
    (a.toNat < 2 ^ 48 → b = 0 ∨ a.toNat + b.toNat ≤ 2 ^ 48 → ∀ w, s.curTile.tlbWait = some w →
      ((∀ q ∈ s.tiles, ∀ e ∈ q.2.reqs, e.req.id ∉ w) →
        ∃ t, exec (.tlbinv f) s = .next t ∧ t.curTile.tlbWait = none ∧ t.bundle.status = .running ∧ SameMem s t ∧
          t.ctx = s.ctx) ∧
      ((∃ q ∈ s.tiles, ∃ e ∈ q.2.reqs, e.req.id ∈ w) →
        exec (.tlbinv f) s = .next { s with bundle := { s.bundle with status := .held } })) ∧
    (a.toNat < 2 ^ 48 → b = 0 ∨ a.toNat + b.toNat ≤ 2 ^ 48 → s.curTile.tlbWait = none → ∀ lo hi w,
      lo = (if b = 0 then 0 else a.toNat) → hi = (if b = 0 then 2 ^ 48 - 1 else a.toNat + b.toNat - 1) →
      w = translatedIn s (pkgOf s.cur) s.ctx.task.part lo hi →
      ∃ t, exec (.tlbinv f) s = .next t ∧ SameMem s t ∧
        (w = [] → t.bundle.status = .running ∧ t.curTile.tlbWait = none) ∧
        (w ≠ [] → t.bundle.status = .held ∧ t.curTile.tlbWait = some w) ∧
        ∀ e ∈ (t.tile s.cur).tr, e.part = s.ctx.task.part → e.hi < lo ∨ hi < e.lo))


/-- R200, R201, R204, R206, R208 (Tables 10.3, 10.4): the V words of two sources, element by element under the lane
predicate. Floating-point elements are rounded under FRM and raise their flags; integer elements wrap modulo their width; a
shift by the width or more gives what R208 says. Nothing else changes but FFLAGS and the marks of last use. -/
def Obligations.VectorTwoSourceResults : Prop :=
  Vec3Result .vadd false (byClass (fun f r a b _ => fadd f r a b) (fun _ a b _ => a + b)) ∧
  Vec3Result .vsub false (byClass (fun f r a b _ => fsub f r a b) (fun m a b _ => a + (m - b))) ∧
  Vec3Result .vmul false (byClass (fun f r a b _ => fmul f r a b) (fun _ a b _ => a * b)) ∧
  Vec3Result .vfma true (byClass (fun f r a b d => ffma f r a b d) (fun _ a b d => d + a * b)) ∧
  Vec3Result .vfms true (byClass (fun f r a b d => ffms f r a b d) (fun m a b d => d + (m - a * b % m))) ∧
  Vec3Result .vdiv false (fun f r a b _ => if f.ty < 3
    then fdiv (fmtOf f.ty) r ((fmtOf f.ty).decode a) ((fmtOf f.ty).decode b) else (a, 0)) ∧
  Vec3Result .vmin false (fun f _ a b _ => (if f.ty < 3 then fminmax (fmtOf f.ty) false a b
    else if selem (tyW f.ty) a < selem (tyW f.ty) b then a else b, 0)) ∧
  Vec3Result .vmax false (fun f _ a b _ => (if f.ty < 3 then fminmax (fmtOf f.ty) true a b
    else if selem (tyW f.ty) a < selem (tyW f.ty) b then b else a, 0)) ∧
  Vec3Result .vminn false (noFlag (fun _ a b _ => min a b)) ∧ Vec3Result .vmaxn false (noFlag (fun _ a b _ => max a b)) ∧
  Vec3Result .vand false (noFlag (fun _ a b _ => a &&& b)) ∧ Vec3Result .vor false (noFlag (fun _ a b _ => a ||| b)) ∧
  Vec3Result .vxor false (noFlag (fun _ a b _ => a ^^^ b)) ∧
  Vec3Result .vshl false (noFlag (fun n a b _ => if b < n then a * 2 ^ b else 0)) ∧
  Vec3Result .vshr false (noFlag (fun n a b _ => if b < n then a / 2 ^ b else 0)) ∧
  Vec3Result .vsra false (noFlag (fun n a b _ =>
    if b < n then (if a < 2 ^ (n - 1) then a / 2 ^ b else a / 2 ^ b + (2 ^ n - 2 ^ (n - b)))
    else if a < 2 ^ (n - 1) then 0 else 2 ^ n - 1))

/-- R204, R206, R207, R213, R216 (Tables 10.3, 10.4, 10.6, 10.7): the V words of one source, element by element under the
lane predicate. -/
def Obligations.VectorOneSourceResults : Prop :=
  Vec2Result .vabs (fun f _ a => (if 3 ≤ f.ty ∧ f.ty < 6
    then (if a < 2 ^ (8 * tyW f.ty - 1) then a else 2 ^ (8 * tyW f.ty) - a) else a % 2 ^ (8 * tyW f.ty - 1), 0)) ∧
  Vec2Result .vneg (fun f _ a => (if 3 ≤ f.ty ∧ f.ty < 6 then 2 ^ (8 * tyW f.ty) - a
    else if a < 2 ^ (8 * tyW f.ty - 1) then a + 2 ^ (8 * tyW f.ty - 1) else a - 2 ^ (8 * tyW f.ty - 1), 0)) ∧
  Vec2Result .vsqrt (fun f r a => fsqrt (fmtOf f.ty) r ((fmtOf f.ty).decode a)) ∧
  Vec2Result .vrcp (fun f r a => fdiv (fmtOf f.ty) r (.fin false 1 0) ((fmtOf f.ty).decode a)) ∧
  Vec2Result .vrsq (fun f r a => frsq (fmtOf f.ty) r ((fmtOf f.ty).decode a)) ∧
  Vec2Result .vexp2 (fun f r a => fexp2 (fmtOf f.ty) r ((fmtOf f.ty).decode a)) ∧
  Vec2Result .vmov (fun _ _ a => (a, 0)) ∧
  Vec2Result .vpopc (fun f _ a => (((List.range (8 * tyW f.ty)).filter (fun k => a.testBit k)).length, 0)) ∧
  Vec2Result .vclass (fun f _ a => (match (fmtOf f.ty).decode a with
    | .nan => 8
    | .inf true => 0
    | .inf false => 7
    | .fin true m _ => if m = 0 then 3 else if a % (fmtOf f.ty).sign / 2 ^ (fmtOf f.ty).mb = 0 then 2 else 1
    | .fin false m _ => if m = 0 then 4 else if a % (fmtOf f.ty).sign / 2 ^ (fmtOf f.ty).mb = 0 then 5 else 6, 0))

/-- R209, R210, R213, R216 (Tables 10.5 to 10.7): the compares write both lane predicates of their pair, VSEL chooses every
element by its predicate, and the moves and permutes take each active element from where the tables say; VINS writes the one
element when it is active, and VEXT an x register. -/
def Obligations.VectorComparesAndMoves : Prop :=
  VcmpResult .vcmpEq (fun f a b => if f.ty < 3 then ((fmtOf f.ty).decode a).eqv ((fmtOf f.ty).decode b)
    else decide (a = b)) ∧
  VcmpResult .vcmpLt (fun f a b => if f.ty < 3 then ((fmtOf f.ty).decode a).lt ((fmtOf f.ty).decode b)
    else decide (selem (tyW f.ty) a < selem (tyW f.ty) b)) ∧
  VcmpResult .vcmpLe (fun f a b => if f.ty < 3 then ((fmtOf f.ty).decode a).lt ((fmtOf f.ty).decode b) ||
      ((fmtOf f.ty).decode a).eqv ((fmtOf f.ty).decode b)
    else decide (selem (tyW f.ty) a ≤ selem (tyW f.ty) b)) ∧
  VcmpResult .vcmpLtn (fun _ a b => decide (a < b)) ∧
  VcmpResult .vcmpUn (fun f a b => decide (f.ty < 3) &&
    (((fmtOf f.ty).decode a).isNan || ((fmtOf f.ty).decode b).isNan)) ∧
  (∀ (f : V3) (s : State) (nd na nb : Nat) (a b : VReg), Runs s f.g → vdReg s f.vd f.lv = .ok nd →
    vaReg s f.va f.lv = .ok na → vbReg s f.vb f.lv = .ok nb → readV s na = .ok a → readV s nb = .ok b →
    (∃ t, exec (.vsel f) s = .next t ∧ VecFrame s t nd ∧
      (∀ j < tyN f.ty, elem (tyW f.ty) j ((t.regs.v[nd]?).getD 0) =
        elem (tyW f.ty) j (if (readQ s (lvQ f.lv)).getLsbD (j * tyW f.ty) = true then a else b)) ∧
      t.regs.vdead.getLsbD nd = false ∧ t.regs.fflags = s.regs.fflags ∧
      VecMarks s t nd ((if f.la then [na] else []) ++ (if f.lb then [nb] else []))) ∧
    (∃ t, exec (.vperm f) s = .next t ∧
      VecWrites s t nd (tyW f.ty) (tyN f.ty) (readQ s (lvQ f.lv)) (keepV s nd)
        (fun j => (elem (tyW f.ty) (elem (tyW f.ty) j b % tyN f.ty) a, 0)) ∧
      VecMarks s t nd ((if f.la then [na] else []) ++ (if f.lb then [nb] else []))) ∧
    (∀ d, readV s nd = .ok d → ∃ t, exec (.vshuf2 f) s = .next t ∧
      VecWrites s t nd (tyW f.ty) (tyN f.ty) (readQ s (lvQ f.lv)) d
        (fun j => (if elem (tyW f.ty) j d % (2 * tyN f.ty) < tyN f.ty
          then elem (tyW f.ty) (elem (tyW f.ty) j d % (2 * tyN f.ty)) a
          else elem (tyW f.ty) (elem (tyW f.ty) j d % (2 * tyN f.ty) - tyN f.ty) b, 0)) ∧
      VecMarks s t nd ((if f.la then [na] else []) ++ (if f.lb then [nb] else [])))) ∧
  (∀ (f : VX) (s : State) (nd : Nat) (x : Word), Runs s f.g → vdReg s f.vd f.lv = .ok nd → readX s f.xa = .ok x →
    (∃ t, exec (.vbcast f) s = .next t ∧ VecMarks s t nd [] ∧
      VecWrites s t nd (tyW f.ty) (tyN f.ty) (readQ s (lvQ f.lv)) (keepV s nd) (fun _ => (x.toNat, 0))) ∧
    (∃ t, exec (.vidx f) s = .next t ∧ VecMarks s t nd [] ∧
      VecWrites s t nd (tyW f.ty) (tyN f.ty) (readQ s (lvQ f.lv)) (keepV s nd) (fun j => (x.toNat + j, 0)))) ∧
  (∀ (f : VXX) (s : State) (nd : Nat) (x k : Word), Runs s f.g → vdReg s f.vd f.lv = .ok nd → readX s f.xa = .ok x →
    readX s f.xb = .ok k →
    ((readQ s (lvQ f.lv)).getLsbD (k.toNat % tyN f.ty * tyW f.ty) = true →
      ∃ t, exec (.vins f) s = .next t ∧ VecFrame s t nd ∧ VecMarks s t nd [] ∧ t.regs.vdead.getLsbD nd = false ∧
        t.regs.fflags = s.regs.fflags ∧
        ∀ j < tyN f.ty, elem (tyW f.ty) j ((t.regs.v[nd]?).getD 0) =
          (if j = k.toNat % tyN f.ty then x.toNat % 2 ^ (8 * tyW f.ty) else elem (tyW f.ty) j (keepV s nd))) ∧
    ((readQ s (lvQ f.lv)).getLsbD (k.toNat % tyN f.ty * tyW f.ty) = false → exec (.vins f) s = .next s)) ∧
  (∀ (f : VE) (s : State) (na : Nat) (a : VReg) (k : Word), Runs s f.g → vaReg s f.va f.lv = .ok na → readV s na = .ok a →
    readX s f.xb = .ok k → exec (.vext f) s = .next (setX (killV s f.la na) f.xd
      (if 3 ≤ f.ty ∧ f.ty < 6
        then (BitVec.ofNat (8 * tyW f.ty) (elem (tyW f.ty) (k.toNat % tyN f.ty) a)).signExtend 64
        else BitVec.ofNat 64 (elem (tyW f.ty) (k.toNat % tyN f.ty) a)))) ∧
  (∀ (f : VAX) (s : State) (nd na : Nat) (a : VReg) (x : Word), Runs s f.g → vdReg s f.vd f.lv = .ok nd →
    vaReg s f.va f.lv = .ok na → readV s na = .ok a → readX s f.xb = .ok x →
    (∃ t, exec (.vrot f) s = .next t ∧ VecMarks s t nd (if f.la then [na] else []) ∧
      VecWrites s t nd (tyW f.ty) (tyN f.ty) (readQ s (lvQ f.lv)) (keepV s nd)
        (fun j => (elem (tyW f.ty) ((j + x.toNat) % tyN f.ty) a, 0))) ∧
    (∃ t, exec (.vslide f) s = .next t ∧ VecMarks s t nd (if f.la then [na] else []) ∧
      VecWrites s t nd (tyW f.ty) (tyN f.ty) (readQ s (lvQ f.lv)) (keepV s nd)
        (fun j => (if 0 ≤ (j : Int) + x.toInt ∧ (j : Int) + x.toInt < (tyN f.ty : Int)
          then elem (tyW f.ty) ((j : Int) + x.toInt).toNat a else 0, 0)))) ∧
  (∀ (f : VL) (s : State) (nd : Nat), Runs s f.g → vdReg s f.vd f.lv = .ok nd →
    ∃ t, exec (.vlimm f) s = .next t ∧ VecMarks s t nd [] ∧
      VecWrites s t nd (tyW f.ty) (tyN f.ty) (readQ s (lvQ f.lv)) (keepV s nd)
        (fun _ => if 3 ≤ f.ty ∧ f.ty < 6 then (((BitVec.ofNat 10 f.imm).signExtend (8 * tyW f.ty)).toNat, 0)
          else if f.imm % 1024 = 0 then (0, 0)
          else roundFin (fmtOf f.ty) .rne false (decide (512 ≤ f.imm % 1024)) (BitVec.ofNat 10 f.imm).toInt.natAbs 0))

/-- R65, R211, R212, R214, R215, R62, R63: the reductions combine the contributing lanes in the pairwise tree, VDOT4 adds
four products to each element of the old vd, and VCVT converts N = 128 / max(ws, wd) elements, writes zeros above them, and
under stochastic rounding draws once per element, active or not. -/
def Obligations.VectorReductionsAndConversions : Prop :=
  VredResult .vredadd (fun s a b => fadd f32 (rndOf s.regs.frm) (f32.decode a) (f32.decode b))
    (fun a b => ((a + b) % 2 ^ 32, 0)) ∧
  VredResult .vredmax (fun _ a b => (fminmax f32 true a b, 0))
    (fun a b => (if (BitVec.ofNat 32 a).toInt < (BitVec.ofNat 32 b).toInt then b else a, 0)) ∧
  VredResult .vredmin (fun _ a b => (fminmax f32 false a b, 0))
    (fun a b => (if (BitVec.ofNat 32 a).toInt < (BitVec.ofNat 32 b).toInt then a else b, 0)) ∧
  (∀ (f : V3) (s : State) (nd na nb : Nat) (a b d : VReg), Runs s f.g → vdReg s f.vd f.lv = .ok nd →
    vaReg s f.va f.lv = .ok na → vbReg s f.vb f.lv = .ok nb → readV s na = .ok a → readV s nb = .ok b →
    readV s nd = .ok d →
    ∃ t, exec (.vdot4 f) s = .next t ∧
      VecWrites s t nd 4 32 (readQ s (lvQ f.lv)) d (fun j =>
        if f.ty = 5 then ((((elem 4 j d : Nat) : Int) + ((List.range 4).map (fun k =>
            (BitVec.ofNat 8 (elem 1 (4 * j + k) a)).toInt * (BitVec.ofNat 8 (elem 1 (4 * j + k) b)).toInt)).sum).emod
              (2 ^ 32) |>.toNat, 0)
        else dotFV (frmRnd s) (f32.decode (elem 4 j d)) ((List.range 4).map (fun k =>
          ((fmtOf f.ty).decode (elem 1 (4 * j + k) a), (fmtOf f.ty).decode (elem 1 (4 * j + k) b))))) ∧
      VecMarks s t nd ((if f.la then [na] else []) ++ (if f.lb then [nb] else []))) ∧
  (∀ (f : VCv) (s : State) (nd na n : Nat) (a : VReg) (sr : Bool), Runs s f.g → vdReg s f.vd f.lv = .ok nd →
    vaReg s f.va f.lv = .ok na → readV s na = .ok a → n = 128 / max (tyW f.ty) (tyW f.dt) →
    sr = (f.alt && !tyI f.ty && !tyI f.dt) →
    ∃ t, exec (.vcvt f) s = .next (t.modRegs (fun r =>
        { r with srseed := if sr then Nat.iterate (fun x => (srNext x).1) n r.srseed else r.srseed })) ∧
      VecWrites s t nd (tyW f.dt) n (readQ s (lvQ f.lv)) (keepV s nd) (fun j =>
        cvtElem f.ty f.dt f.sat f.alt (frmRnd s)
          (if sr then (srNext (Nat.iterate (fun x => (srNext x).1) j s.regs.srseed)).2 else 0) (elem (tyW f.ty) j a)) ∧
      ((t.regs.v[nd]?).getD 0).toNat < 2 ^ (8 * tyW f.dt * n) ∧ VecMarks s t nd (if f.la then [na] else []))

/-- R50, R59, R61, R205, R206 (Table 3.6): rules of the arithmetic itself. A value of a format rounds to itself with no flag;
a NaN gives the canonical NaN with no flag, and an invalid operation gives it with NV; division of a finite nonzero number
by zero gives the infinity with DZ; a zero sum has the sign of R59; a conversion out of an integer's range clamps or gives
the least value; and VMIN and VMAX order −0 below +0 and yield to the number that is not NaN. R58, R59 (Table 3.4): every other
result is the exact one, rounded once under the mode: a sum, a product, a product with an addend, and a quotient. -/
def Obligations.FloatRules : Prop :=
  ∀ f ∈ [f32, bf16, f16, e5m2, e4m3], ∀ k : Nat,
    (∀ b n m e, b < 2 * f.sign → f.decode b = .fin n m e → roundFV f (rndOf k) (.fin n m e) = (b, 0)) ∧
    (∀ v, fmul f (rndOf k) .nan v = (f.nanBits, 0) ∧ fdiv f (rndOf k) .nan v = (f.nanBits, 0) ∧
      fdiv f (rndOf k) v .nan = (f.nanBits, 0) ∧ fadd f (rndOf k) .nan v = (f.nanBits, 0) ∧
      fadd f (rndOf k) v .nan = (f.nanBits, 0)) ∧
    (∀ n m e d, m = 0 → ffma f (rndOf k) (.inf n) (.fin n m e) d = (f.nanBits, fNV)) ∧
    (∀ n, fadd f (rndOf k) (.inf n) (.inf (!n)) = (f.nanBits, fNV) ∧ fsub f (rndOf k) (.inf n) (.inf n) = (f.nanBits, fNV) ∧
      fdiv f (rndOf k) (.inf n) (.inf n) = (f.nanBits, fNV)) ∧
    (∀ x y m e e', fdiv f (rndOf k) (.fin x m e) (.fin y 0 e') =
      (if m = 0 then (f.nanBits, fNV) else (f.withSign (x != y) f.infBits, fDZ))) ∧
    (∀ m e, m ≠ 0 → fsqrt f (rndOf k) (.fin true m e) = (f.nanBits, fNV) ∧ frsq f (rndOf k) (.fin true m e) = (f.nanBits, fNV)) ∧
    (∀ n e, fsqrt f (rndOf k) (.fin n 0 e) = (f.withSign n 0, 0) ∧
      frsq f (rndOf k) (.fin n 0 e) = (f.withSign n f.infBits, fDZ)) ∧
    (∀ x y e e', fadd f (rndOf k) (.fin x 0 e) (.fin y 0 e') =
      (f.withSign (if x = y then x else decide (rndOf k = .rd)) 0, 0)) ∧
    (∀ x m e, m ≠ 0 → fadd f (rndOf k) (.fin x m e) (.fin (!x) m e) = (f.withSign (decide (rndOf k = .rd)) 0, 0)) ∧
    (∀ w ∈ [1, 2, 4], ∀ u : Bool, cvtFI w u (rndOf k) true .nan = (0, fNV ||| fSV) ∧
      cvtFI w u (rndOf k) false .nan = (if u then 0 else 2 ^ (8 * w - 1), fNV) ∧
      (∀ i : Int, i < intLo w u → cvtII w u true i = (if u then 0 else 2 ^ (8 * w - 1), fSV)) ∧
      (∀ i : Int, intHi w u < i → cvtII w u true i = (if u then 2 ^ (8 * w) - 1 else 2 ^ (8 * w - 1) - 1, fSV)) ∧
      (∀ i : Int, cvtII w u false i = ((i % ((2 ^ (8 * w) : Nat) : Int)).toNat, 0))) ∧
    (∀ a b, ((f.decode a).isNan = true → (f.decode b).isNan = true →
        fminmax f false a b = f.nanBits ∧ fminmax f true a b = f.nanBits) ∧
      ((f.decode a).isNan = true → (f.decode b).isNan = false → fminmax f false a b = b ∧ fminmax f true a b = b) ∧
      ((f.decode a).isNan = false → (f.decode b).isNan = true → fminmax f false a b = a ∧ fminmax f true a b = a) ∧
      ((f.decode a).lt (f.decode b) = true → fminmax f false a b = a ∧ fminmax f true a b = b) ∧
      ((f.decode b).lt (f.decode a) = true → fminmax f false a b = b ∧ fminmax f true a b = a) ∧
      ((f.decode a).isZero true = true → (f.decode b).isZero false = true →
        fminmax f false a b = a ∧ fminmax f true a b = b ∧ fminmax f false b a = a ∧ fminmax f true b a = b)) ∧
    (∀ n m e, m ≠ 0 → RoundedTo f (rndOf k) n (valOf m e) (roundFV f (rndOf k) (.fin n m e))) ∧
    (∀ x m e y m' e', fmul f (rndOf k) (.fin x m e) (.fin y m' e') = roundFV f (rndOf k) (.fin (x != y) (m * m') (e + e')) ∧
      (∀ z n q, ffma f (rndOf k) (.fin x m e) (.fin y m' e') (.fin z n q) =
        fadd f (rndOf k) (.fin (x != y) (m * m') (e + e')) (.fin z n q)) ∧
      (∀ v : ℚ, v = (if x = true then -valOf m e else valOf m e) + (if y = true then -valOf m' e' else valOf m' e') → v ≠ 0 →
        RoundedTo f (rndOf k) (decide (v < 0)) |v| (fadd f (rndOf k) (.fin x m e) (.fin y m' e')))) ∧
    (∀ a b x m e y m' e', f.decode a = .fin x m e → f.decode b = .fin y m' e' → m ≠ 0 → m' ≠ 0 →
      RoundedTo f (rndOf k) (x != y) (valOf m e / valOf m' e') (fdiv f (rndOf k) (.fin x m e) (.fin y m' e')))

/-- R15, R16, R160, R163, R201, R202: a field that names a register at or above VALLOC, absolute or by an index register,
traps REGBOUND (0x03) with the number as a signed value, and a dead source DEADREG (0x04) with 128 + its number when
DEADCHK = 1 at the user level and reads zero otherwise; an element-wise word makes every such check before any effect. -/
def Obligations.VectorRegisterChecks : Prop :=
  (∀ (s : State) (f hi : Nat), f < 32 → hi < 2 →
    vecField s f hi false = (if 32 * hi + f < vallocOf s then .ok (32 * hi + f)
      else .error (.trap { cause := 0x03, info := BitVec.ofNat 64 (32 * hi + f) })) ∧
    (∀ n : Int, n = (readI s (f / 8)).toInt + ((8 * hi + f % 8 : Nat) : Int) →
      vecField s f hi true = (if 0 ≤ n ∧ n < (vallocOf s : Int) then .ok n.toNat
        else .error (.trap { cause := 0x03, info := BitVec.ofInt 64 n })))) ∧
  (∀ (s : State) (n : Nat), s.regs.vdead.getLsbD n = true → readV s n =
    (if s.mon = false ∧ s.regs.deadchk = true
      then .error (.trap { cause := 0x04, info := BitVec.ofNat 64 (128 + n) }) else .ok 0)) ∧
  (∀ (f : V3) (s : State), Runs s f.g → ∀ i ∈ [Instr.vadd f, .vsub f, .vmul f, .vfma f, .vfms f, .vmin f, .vmax f, .vminn f,
      .vmaxn f, .vdiv f, .vand f, .vor f, .vxor f, .vshl f, .vshr f, .vsra f, .vsel f, .vperm f, .vshuf2 f, .vdot4 f],
    (∀ t, vdReg s f.vd f.lv = .error (.trap t) → exec i s = .next (raiseTrap s { t with slot := 1 })) ∧
    (∀ nd t, vdReg s f.vd f.lv = .ok nd → vaReg s f.va f.lv = .error (.trap t) →
      exec i s = .next (raiseTrap s { t with slot := 1 })) ∧
    (∀ nd na t, vdReg s f.vd f.lv = .ok nd → vaReg s f.va f.lv = .ok na → vbReg s f.vb f.lv = .error (.trap t) →
      exec i s = .next (raiseTrap s { t with slot := 1 })) ∧
    (∀ nd na nb t, vdReg s f.vd f.lv = .ok nd → vaReg s f.va f.lv = .ok na → vbReg s f.vb f.lv = .ok nb →
      readV s na = .error (.trap t) → exec i s = .next (raiseTrap s { t with slot := 1 })) ∧
    (∀ nd na nb a t, vdReg s f.vd f.lv = .ok nd → vaReg s f.va f.lv = .ok na → vbReg s f.vb f.lv = .ok nb →
      readV s na = .ok a → readV s nb = .error (.trap t) → exec i s = .next (raiseTrap s { t with slot := 1 })))

/-- R18, R19, R20, R221, R222, R110 (Table 11.2): LD writes xd with the bytes at xa + offset × size, zero- or sign-extended
by W, and VLD vd with the 128 bytes at xa + offset; ST stores the low bytes of xs and VST all of vs there, and where no write of
another path races with the store (R93) no other byte of memory changes. A store under a speculation goes to its escrow instead,
and stalls where that has no room. Memory is little-endian (R5). -/
def Obligations.LoadsAndStores : Prop :=
  (∀ (x : Word) (f : ML), (Instr.ld f).wf = true → ldAddr x f = (x + (if f.off.lent
    then (BitVec.ofNat 16 f.off.raw).signExtend 64 else (BitVec.ofNat 8 f.off.raw).signExtend 64) *
      BitVec.ofNat 64 (2 ^ (f.w % 4))).toNat) ∧
  (∀ (x : Word) (f : MV), (Instr.vld f).wf = true → vldAddr x f = (x + (if f.off.lent
    then (BitVec.ofNat 18 f.off.raw).signExtend 64 else (BitVec.ofNat 11 f.off.raw).signExtend 64)).toNat) ∧
  (∀ (f : ML) (s : State) (x : Word) (n : Nat), Runs s f.g → readX s f.xa = .ok x → n = 2 ^ (f.w % 4) →
    ldAddr x f % n = 0 → ldAddr x f + n ≤ tsLimit s → mGate s (tsPhys s (ldAddr x f)) n = .ok () →
    (∃ u v, exec (.ld f) s = .next (setX u f.rd v) ∧ ReadOnly s u ∧
      (Plain s → ∀ b : BitVec 64, (∀ k < n, b.extractLsb' (8 * k) 8 = memGet s.mem (taskByte s (ldAddr x f) + k)) →
        v = (if f.w < 4 then (b.extractLsb' 0 (8 * n)).zeroExtend 64 else (b.extractLsb' 0 (8 * n)).signExtend 64))) ∧
    (∀ v, readX s f.rd = .ok v → guarded s s.cur (tsPhys s (ldAddr x f)) n = false →
      (s.ctx.spec = none → ∃ t, exec (.st f) s = .next t ∧ StoreFrame s t ∧
        SameGransBut s t s.cur (tsPhys s (ldAddr x f)) n ∧
        (AllSeen s s.cur pathP → SameMemBut s t (taskByte s (ldAddr x f)) n ∧
          (s.Safe → ∀ k < n, memGet t.mem (taskByte s (ldAddr x f) + k) = v.extractLsb' (8 * k) 8))) ∧
      (s.ctx.spec ≠ none → escRoom s.ctx (tsPhys s (ldAddr x f)) n = true →
        ∃ t, exec (.st f) s = .next t ∧ EscrowFrame s t ∧
          (∀ k < n, tsByte t s.cur s.ctxP pathP (tsPhys s (ldAddr x f) + k) = v.extractLsb' (8 * k) 8)) ∧
      (s.ctx.spec ≠ none → escRoom s.ctx (tsPhys s (ldAddr x f)) n = false → Overflows (.st f) s))) ∧
  (∀ (f : MV) (s : State) (x : Word) (nd : Nat), Runs s f.g → checkV s f.vd = .ok nd → readX s f.xa = .ok x →
    vldAddr x f % 64 = 0 → vldAddr x f + 128 ≤ tsLimit s → mGate s (tsPhys s (vldAddr x f)) 128 = .ok () →
    (∃ u v, exec (.vld f) s = .next (setV u nd v) ∧ ReadOnly s u ∧
      (Plain s → ∀ k < 128, elem 1 k v = (memGet s.mem (taskByte s (vldAddr x f) + k)).toNat)) ∧
    (∀ v, readV s nd = .ok v → guarded s s.cur (tsPhys s (vldAddr x f)) 128 = false →
      (s.ctx.spec = none → ∃ t, exec (.vst f) s = .next t ∧ StoreFrame s t ∧
        SameGransBut s t s.cur (tsPhys s (vldAddr x f)) 128 ∧
        (AllSeen s s.cur pathP → SameMemBut s t (taskByte s (vldAddr x f)) 128 ∧
          (s.Safe → ∀ k < 128, (memGet t.mem (taskByte s (vldAddr x f) + k)).toNat = elem 1 k v))) ∧
      (s.ctx.spec ≠ none → escRoom s.ctx (tsPhys s (vldAddr x f)) 128 = true →
        ∃ t, exec (.vst f) s = .next t ∧ EscrowFrame s t ∧
          (∀ k < 128, (tsByte t s.cur s.ctxP pathP (tsPhys s (vldAddr x f) + k)).toNat = elem 1 k v)) ∧
      (s.ctx.spec ≠ none → escRoom s.ctx (tsPhys s (vldAddr x f)) 128 = false → Overflows (.vst f) s)))

/-- R223, R224: VLDS and VSTS move eight granules, granule k at xa + k × offset, and VGATH and VSCAT 32 elements of 4 bytes,
element j at xa + offset + index j, the index in the register after vd; where stored parts meet, the higher stays; where no write
of another path races with the store (R93), no other byte of memory changes. A store under a speculation goes to its escrow. -/
def Obligations.StridedAndIndexedAccesses : Prop :=
  (∀ (f : MV) (s : State) (x : Word) (nd : Nat) (A : Nat → Nat), Runs s f.g → checkV s f.vd = .ok nd →
    readX s f.xa = .ok x →
    (∀ k, A k = (x + BitVec.ofNat 64 k * (if f.off.lent then (BitVec.ofNat 18 f.off.raw).signExtend 64
      else (BitVec.ofNat 11 f.off.raw).signExtend 64)).toNat) → (Instr.vlds f).wf = true →
    (∀ k < 8, A k % 16 = 0 ∧ A k + 16 ≤ tsLimit s ∧ mGate s (tsPhys s (A k)) 16 = .ok ()) →
    (∃ u v, exec (.vlds f) s = .next (setV u nd v) ∧ ReadOnly s u ∧
      (Plain s → ∀ k < 8, ∀ i < 16, elem 1 (16 * k + i) v = (memGet s.mem (taskByte s (A k) + i)).toNat)) ∧
    (∀ v, readV s nd = .ok v → (∀ k < 8, guarded s s.cur (tsPhys s (A k)) 16 = false) →
      (s.ctx.spec = none → ∃ t, exec (.vsts f) s = .next t ∧ StoreFrame s t ∧
        (∀ b, (∀ k < 8, OutGrans s.cur (tsPhys s (A k)) 16 b) → memGet t.mem b = memGet s.mem b) ∧
        (AllSeen s s.cur pathP →
          (∀ b, (∀ k < 8, b < taskByte s (A k) ∨ taskByte s (A k) + 16 ≤ b) → memGet t.mem b = memGet s.mem b) ∧
          (s.Safe → ∀ k < 8, ∀ i < 16,
            (∀ h < 8, k < h → taskByte s (A k) + i < taskByte s (A h) ∨ taskByte s (A h) + 16 ≤ taskByte s (A k) + i) →
            (memGet t.mem (taskByte s (A k) + i)).toNat = elem 1 (16 * k + i) v))) ∧
      (∀ sp, s.ctx.spec = some sp → sp.escrow.length + 16 ≤ 256 → ∃ t, exec (.vsts f) s = .next t ∧ EscrowFrame s t ∧
        ∀ k < 8, ∀ i < 16,
          (∀ h < 8, k < h → taskByte s (A k) + i < taskByte s (A h) ∨ taskByte s (A h) + 16 ≤ taskByte s (A k) + i) →
          (tsByte t s.cur s.ctxP pathP (tsPhys s (A k) + i)).toNat = elem 1 (16 * k + i) v))) ∧
  (∀ (f : MV) (s : State) (x : Word) (nd ni : Nat) (ix : VReg) (A : Nat → Nat), Runs s f.g → checkV s f.vd = .ok nd →
    checkV s (f.vd + 1) = .ok ni → readX s f.xa = .ok x → readV s ni = .ok ix →
    (∀ j, A j = (x + (if f.off.lent then (BitVec.ofNat 18 f.off.raw).signExtend 64
      else (BitVec.ofNat 11 f.off.raw).signExtend 64) + BitVec.ofNat 64 (elem 4 j ix)).toNat) →
    (Instr.vgath f).wf = true →
    (∀ j < 32, A j % 4 = 0 ∧ A j + 4 ≤ tsLimit s ∧ mGate s (tsPhys s (A j)) 4 = .ok ()) →
    (∃ u v, exec (.vgath f) s = .next (setV u nd v) ∧ ReadOnly s u ∧
      (Plain s → ∀ j < 32, ∀ i < 4, elem 1 (4 * j + i) v = (memGet s.mem (taskByte s (A j) + i)).toNat)) ∧
    (∀ v, readV s nd = .ok v → (∀ j < 32, guarded s s.cur (tsPhys s (A j)) 4 = false) →
      (s.ctx.spec = none → ∃ t, exec (.vscat f) s = .next t ∧ StoreFrame s t ∧
        (∀ b, (∀ j < 32, OutGrans s.cur (tsPhys s (A j)) 4 b) → memGet t.mem b = memGet s.mem b) ∧
        (AllSeen s s.cur pathP →
          (∀ b, (∀ j < 32, b < taskByte s (A j) ∨ taskByte s (A j) + 4 ≤ b) → memGet t.mem b = memGet s.mem b) ∧
          (s.Safe → ∀ j < 32, ∀ i < 4,
            (∀ h < 32, j < h → taskByte s (A j) + i < taskByte s (A h) ∨ taskByte s (A h) + 4 ≤ taskByte s (A j) + i) →
            (memGet t.mem (taskByte s (A j) + i)).toNat = elem 1 (4 * j + i) v))) ∧
      (∀ sp, s.ctx.spec = some sp → sp.escrow.length + 64 ≤ 256 → ∃ t, exec (.vscat f) s = .next t ∧ EscrowFrame s t ∧
        ∀ j < 32, ∀ i < 4,
          (∀ h < 32, j < h → taskByte s (A j) + i < taskByte s (A h) ∨ taskByte s (A h) + 4 ≤ taskByte s (A j) + i) →
          (tsByte t s.cur s.ctxP pathP (tsPhys s (A j) + i)).toNat = elem 1 (4 * j + i) v)))

/-- R19, R20, R44, R75, R96, R169, R219: a task address that is not aligned traps ALIGN (0x05), and one whose bytes pass
TSLEN − TILLSZ (the end of the store at the monitor level) TSBOUND (0x06), alignment first, with the address as UTINFO; of
several addresses the first that fails counts; no byte has moved then. An access waits for a commit drain, and for a copy
window that covers it, a store also for a buffer of a send; one that meets a faulted window traps ENGFAULT (0x0A) with the
copy's flag as DETAIL. -/
def Obligations.TileStoreChecks : Prop :=
  (∀ s, tsLimit s = if s.mon then 0x80000 else s.regs.tslen - s.regs.tillsz) ∧
  (∀ (f : ML) (s : State) (x : Word) (n : Nat), Runs s f.g → readX s f.xa = .ok x → n = 2 ^ (f.w % 4) →
    ∀ i, i = Instr.ld f ∨ (i = Instr.st f ∧ ∃ v, readX s f.rd = .ok v) →
      (ldAddr x f % n ≠ 0 → TrapsM i s 0x05 (ldAddr x f)) ∧
      (ldAddr x f % n = 0 → tsLimit s < ldAddr x f + n → TrapsM i s 0x06 (ldAddr x f)) ∧
      (ldAddr x f % n = 0 → ldAddr x f + n ≤ tsLimit s →
        (draining s s.cur = true ∨ winTile s.curTile s.ctxP (tsPhys s (ldAddr x f)) n 4 = .wait → Stalls i s) ∧
        (draining s s.cur = false → ∀ k, winTile s.curTile s.ctxP (tsPhys s (ldAddr x f)) n 4 = .faulted k →
          exec i s = .next (raiseTrap s { cause := 0x0A, detail := k, slot := 2,
                                          info := BitVec.ofNat 64 ((s.regs.fl k).status.toNat / 2 ^ 64) })) ∧
        (i = Instr.st f → mGate s (tsPhys s (ldAddr x f)) n = .ok () →
          guarded s s.cur (tsPhys s (ldAddr x f)) n = true → Stalls i s))) ∧
  (∀ (f : MV) (s : State) (x : Word) (nd : Nat), Runs s f.g →
    (∀ m : TrapInfo, checkV s f.vd = .error (.trap m) → ∀ i ∈ [Instr.vld f, .vst f, .vlds f, .vsts f, .vgath f, .vscat f],
      exec i s = .next (raiseTrap s { m with slot := 2 })) ∧
    (checkV s f.vd = .ok nd → readX s f.xa = .ok x →
      (∀ i, i = Instr.vld f ∨ (i = Instr.vst f ∧ ∃ v, readV s nd = .ok v) →
        (vldAddr x f % 64 ≠ 0 → TrapsM i s 0x05 (vldAddr x f)) ∧
        (vldAddr x f % 64 = 0 → tsLimit s < vldAddr x f + 128 → TrapsM i s 0x06 (vldAddr x f))) ∧
      (∀ i, i = Instr.vlds f ∨ (i = Instr.vsts f ∧ ∃ v, readV s nd = .ok v) → ∀ k < 8,
        ((∀ h < k, strideAddr x f h % 16 = 0) → strideAddr x f k % 16 ≠ 0 → TrapsM i s 0x05 (strideAddr x f k)) ∧
        ((∀ h < 8, strideAddr x f h % 16 = 0) → (∀ h < k, strideAddr x f h + 16 ≤ tsLimit s) →
          tsLimit s < strideAddr x f k + 16 → TrapsM i s 0x06 (strideAddr x f k))) ∧
      (∀ ni ix, checkV s (f.vd + 1) = .ok ni → readV s ni = .ok ix →
        ∀ i, i = Instr.vgath f ∨ (i = Instr.vscat f ∧ ∃ v, readV s nd = .ok v) → ∀ k < 32,
        ((∀ h < k, gathAddr x f ix h % 4 = 0) → gathAddr x f ix k % 4 ≠ 0 → TrapsM i s 0x05 (gathAddr x f ix k)) ∧
        ((∀ h < 32, gathAddr x f ix h % 4 = 0) → (∀ h < k, gathAddr x f ix h + 4 ≤ tsLimit s) →
          tsLimit s < gathAddr x f ix k + 4 → TrapsM i s 0x06 (gathAddr x f ix k)))))

/-- R94, R103, R228, R235, R247: MSTAT writes xd with a half of a flag's record, FLCLR and FLSET clear and set the flag bit
alone, and all three stall while the flag is bound; a COPYQ at the head of its channel that waits for the flag has started once an
FLSET has set it, and no command of a channel changes otherwise. FENCE.P waits until the accesses of FROM are done, and a write that a
path of FROM has made or read stays hidden from no path of TO after it; FENCE.S waits until every earlier operation in its scope is
performed; both change no register and no byte of memory. -/
def Obligations.FlagAndFenceWords : Prop :=
  (∀ (f : MSt) (s : State), Runs s f.g →
    ((s.regs.fl f.fn).bound = none → exec (.mstat f) s = .next (setX s f.rd
      ((s.regs.fl f.fn).status.extractLsb' (if f.h then 64 else 0) 64))) ∧
    ((s.regs.fl f.fn).bound ≠ none → Stalls (.mstat f) s)) ∧
  (∀ (f : MF) (s : State), f.fn < 64 → Runs s f.g →
    ((s.regs.fl f.fn).bound ≠ none → Stalls (.flclr f) s ∧ Stalls (.flset f) s) ∧
    ((s.regs.fl f.fn).bound = none → ∀ b : Bool, ∃ t,
      exec (if b then .flset f else .flclr f) s = .next t ∧ SameElsewhere s t ∧ SameMem s t ∧ t.agenda = s.agenda ∧
        t.bundle = s.bundle ∧ t.curTile = (s.modCtx (fun _ => t.ctx)).curTile ∧
        ({ t.ctx with regs := s.regs, chan := s.ctx.chan } : Plane) = s.ctx ∧ SameChans s.ctx t.ctx ∧
        (b = false → t.ctx.chan = s.ctx.chan) ∧
        (b = true → ∀ k c l, s.ctx.ch k = c :: l → c.fk = some f.fn → c.started = false →
          c.mon = true ∨ (s.ctx.halted = false ∧ (s.ctx.hold[k]?).getD none = none) → ∃ d, t.ctx.ch k = d :: l ∧ d.begun = true) ∧
        ({ t.regs with flag := s.regs.flag } : Regs) = s.regs ∧
        (t.regs.fl f.fn).on = b ∧ (t.regs.fl f.fn).status = (s.regs.fl f.fn).status ∧ (t.regs.fl f.fn).bound = none ∧
        ∀ k, k ≠ f.fn → t.regs.flag[k]? = s.regs.flag[k]?)) ∧
  (∀ (f : MFp) (s : State), Runs s f.g →
    (f.frm = 0 ∨ f.tom = 0 → exec (.fenceP f) s = .next s) ∧
    (f.frm ≠ 0 → f.tom ≠ 0 → fenceDone s f.frm = false → Stalls (.fenceP f) s) ∧
    (f.frm ≠ 0 → f.tom ≠ 0 → fenceDone s f.frm = true → ∃ t, exec (.fenceP f) s = .next t ∧ SameOutside s t ∧ SameMem s t ∧
      t.bundle = s.bundle ∧ ({ t.curTile with stale := s.curTile.stale } : Tile) = s.curTile ∧
      (∀ e ∈ t.curTile.stale, (∃ q ∈ [pathP, pathC, pathX, pathN], hasPath f.frm q = true ∧ hasPath e.seen q = true) →
        ∀ q ∈ [pathP, pathC, pathX, pathN], hasPath f.tom q = true → hasPath e.paths q = false) ∧
      (∀ e ∈ t.curTile.stale, ∃ k ∈ s.curTile.stale, e = { k with paths := e.paths }) ∧
      (∀ e ∈ s.curTile.stale, e.paths ≠ 0 → (∀ k ∈ s.curTile.stale, k.gran = e.gran →
        ∀ q ∈ [pathP, pathC, pathX, pathN], hasPath f.frm q = true → hasPath k.seen q = false) → e ∈ t.curTile.stale))) ∧
  (∀ (f : MFs2) (s : State), Runs s f.g →
    (fenceWaits s f.scope = true → Stalls (.fenceS f) s) ∧ (fenceWaits s f.scope = false → exec (.fenceS f) s = .next s))

/-- R151 to R172 (Tables 8.1 to 8.10): every bit of an encoding counts. Decoding the words of a well-formed instruction, with
the header that lends its high bits where it takes one, gives that instruction back with every operand, and no word is
left. -/
def Obligations.DecodeOfEncode : Prop :=
  ∀ i : Instr, i.wf = true → i.cls ≠ none → decodeWords (encode i) = .ok (i, [])

/-- Words that the spec writes out decode to what they stand for (Tables 8.12 and 10.8, the examples of R172, R180, R183,
R186, R189, R191, R212). -/
def Obligations.WordsOfTheSpec : Prop :=
  decodeWords [0x02E52801] = .ok (.addi { g := 0, rd := 5, ra := 5, la := false, imm := { lent := false, raw := 1 } }, []) ∧
  decodeWords [0x40001088] = .ok
    (.vadd { g := 0, ty := 0, vd := 1, va := 1, vb := 2, la := false, lb := false, lv := 0 }, []) ∧
  decodeWords [0x80612000] = .ok (.vst { g := 0, vd := 1, xa := 4, off := { lent := false, raw := 0 } }, []) ∧
  decodeWords [0xD1240000, 0x03C603E0] = .ok (.limm { g := 0, rd := 6, imm := { lent := true, raw := 300000 } }, []) ∧
  decodeWords [0x161FFFFA] = .ok (.br { g := 2, imm := { lent := false, raw := 0x1FFFFA } }, []) ∧
  decodeWords [0xC8009B00, 0x4030940D] = .ok
    (.vfma { g := 0, ty := 0, vd := 9, va := 8, vb := 3, la := false, lb := true, lv := 0x9B }, []) ∧
  decodeWords [0xE0000063] = .ok (.idleHeader false 99, []) ∧
  decodeWords [0x42005368] = .ok
    (.vcvt { g := 0, ty := 0, vd := 5, va := 6, dt := 6, sat := true, alt := false, la := false, lv := 0 }, []) ∧
  decodeWords [0x43961000] = .ok (.vidx { g := 0, ty := 3, vd := 1, xa := 0, lv := 0 }, []) ∧
  decodeWords [0x41962088] = .ok
    (.vcmpLt { g := 0, ty := 3, vd := 2, va := 1, vb := 2, la := false, lb := false, lv := 0 }, []) ∧
  decodeWords [0x02A74802] = .ok (.sel { g := 0, rd := 7, ra := 9, rb := 0, la := false, lb := false, pa := 2 }, []) ∧
  decodeWords [0x06A00000] = .ok (.exit { g := 0 }, []) ∧
  decodeWords [0x06C00001] = .ok (.arrive { g := 0, n := 1 }, []) ∧
  decodeWords [0x06E00001] = .ok (.wait { g := 0, n := 1 }, []) ∧
  decodeWords [0x07000003] = .ok (.waitf { g := 0, fn := 3 }, [])

/-- R162, R164 to R168 (Tables 8.7 to 8.11): no unassigned opcode decodes, and neither does a word whose reserved or unnamed
fields are not zero or that is lent bits it does not use: what decodes is well formed and has exactly the word and the lend
bits that its encoding gives. -/
def Obligations.OtherWordsAreRefused : Prop :=
  (∀ w l, bitsOf w 30 2 = 0 → bitsOf w 21 6 ∈ [0x2F, 0x3E] → decodeWord w l = .error .unassigned) ∧
  (∀ w l, bitsOf w 30 2 = 0 → bitsOf w 21 6 = 0x3F → 8 ≤ bitsOf w 0 4 → decodeWord w l = .error .unassigned) ∧
  (∀ w l, bitsOf w 30 2 = 1 → (bitsOf w 20 7 ∈ [0x16, 0x17, 0x1E, 0x1F] ∨ 0x29 ≤ bitsOf w 20 7 ∧ bitsOf w 20 7 ≤ 0x2F ∨
    0x33 ≤ bitsOf w 20 7 ∧ bitsOf w 20 7 ≤ 0x37 ∨ 0x3D ≤ bitsOf w 20 7) → decodeWord w l = .error .unassigned) ∧
  (∀ w l, bitsOf w 30 2 = 2 → (0x08 ≤ bitsOf w 21 6 ∧ bitsOf w 21 6 ≤ 0x0F ∨ 0x14 ≤ bitsOf w 21 6 ∧ bitsOf w 21 6 ≤ 0x17 ∨
    bitsOf w 21 6 ∈ [0x27, 0x2E, 0x2F] ∨ 0x38 ≤ bitsOf w 21 6) → decodeWord w l = .error .unassigned) ∧
  (∀ w l i, decodeWord w l = .ok i → i.wf = true ∧ i.word = w ∧ i.lend.getD 0 = l.getD 0) ∧
  (∀ i j : Instr, i.wf = true → j.wf = true → i.cls ≠ none → j.cls ≠ none → encode i = encode j → i = j)

/-- R1, R177, R195, R54, R256 (Tables 2.2, 9.5, 9.9; the values that no rule gives are the model's own, log entry 3): right
after reset no byte of memory is listed, nothing is due, no task stands on any plane, and every plane's context holds the
values of a task's start. -/
def Obligations.ResetState : Prop :=
  State.reset.Safe ∧ (∀ a, memGet State.reset.mem a = 0) ∧ State.reset.agenda = [] ∧
  State.reset.jobs = [] ∧ State.reset.launches = [] ∧ State.reset.suspended = [] ∧
  (∀ r, (State.reset.tile r).monitor = false ∧ (State.reset.tile r).fenced = false ∧ (State.reset.tile r).running = none ∧
    ∀ p, (State.reset.plane r p).state = 0 ∧ (State.reset.plane r p).spec = none ∧
      ∀ g, g = (State.reset.plane r p).regs →
        g.pc = 0 ∧ g.rsdepth = 0 ∧ g.bank.ret = [] ∧ (∀ n : Nat, (g.bank.x[n]?).getD (0 : Word) = 0) ∧ (∀ n : Nat, g.bank.dead.getLsbD n = false) ∧
        (∀ n : Nat, (g.bank.p[n]?).getD false = false) ∧ (∀ n : Nat, (g.bank.ix[n]?).getD (0 : BitVec 8) = 0) ∧
          (∀ n : Nat, (g.v[n]?).getD (0 : VReg) = 0) ∧
        (∀ n : Nat, g.vdead.getLsbD n = false) ∧ (∀ n : Nat, (g.q[n]?).getD (0 : Quad) = 0) ∧
        (∀ n : Nat, (g.fl n).on = false ∧ (g.fl n).status = 0 ∧ (g.fl n).bound = none) ∧ (∀ n : Nat, (g.wmark[n]?).getD 0 = 0) ∧
        (∀ n : Nat, (g.route[n]?).getD 0 = 0) ∧ (∀ n : Nat, (g.td n).raw = 0) ∧ (∀ n : Nat, ((g.acc[n]?).getD ({} : Acc)).el = []) ∧
        g.frm = 0 ∧ g.fflags = 0 ∧ g.specst = 0 ∧ g.utvec = 0 ∧ g.utcause = 0 ∧ g.valloc = 64 ∧ g.deadchk = false ∧
        g.hbiv = 1048576 ∧ g.tslen = 262144 ∧ g.tillsz = 32768)

/-- R18, R21, R91, R322: the memory stands in its canonical form, in which equal memories are equal data, and every step keeps
it so, whatever tile, engine, vault, scheduler or host moves. (The form is the model's own, log entry 2.) -/
def Obligations.StepsKeepTheMemoryForm : Prop :=
  ∀ s t : State, s.Safe → Sys2Proof.Machine.step s = .next t → t.Safe

/-- R122, R226 to R229 (Tables 6.7, 11.6): the copy words read their parameter block on the copy path; an accepted command
joins its channel with its flag bound, COPYQ with the flag it waits for and COPYM with the MMA that follows it, whose flag is
bound too; one that is not accepted ends at once FAULT with code PARMBAD. COPYX waits for the end of a speculation. A COPYM whose
word is no MMA, or is one under a guard or on the copy's own flag, traps ILLEGAL; one whose MMA names a bound flag stalls, and one
whose MMA fails a check of its own traps as the MMA does (R169, R219). -/
def Obligations.CopyWords : Prop :=
  (∀ (f : MC) (s : State) (x : Word), (Instr.copy f).wf = true → Runs s f.g → readX s f.xa = .ok x →
    CopyWordRules (.copy f) s f.fn (blkAddr x f) false (CopyAccepted (.copy f) s [f.fn] 1 none none) ∧
    (s.ctx.spec ≠ none → Stalls (.copyx f) s) ∧
    (s.ctx.spec = none →
      CopyWordRules (.copyx f) s f.fn (blkAddr x f) true (CopyAccepted (.copyx f) s [f.fn] 4 none none))) ∧
  (∀ (f : MC) (s : State) (x : Word), f.fn < 64 → Runs s f.g → readX s f.xa = .ok x →
    (f.rd ≠ f.fn → CopyWordRules (.copyq f) s f.fn (blkAddr x f) false
      (CopyAccepted (.copyq f) s [f.fn] 2 (some f.rd) none)) ∧
    (f.rd = f.fn → (s.regs.fl f.fn).bound ≠ none → Stalls (.copyq f) s) ∧
    (f.rd = f.fn → (s.regs.fl f.fn).bound = none → blkAddr x f % 64 = 0 → blkAddr x f + 64 ≤ tsLimit s →
      TrapsM (.copyq f) s 0x01 ((Instr.copyq f).word % 2 ^ 32))) ∧
  (∀ (f : MC) (s : State) (x v : Word), (Instr.copym f).wf = true → Runs s f.g → readX s f.xa = .ok x →
    readX s f.rd = .ok v →
    (∀ (m : MMm) (xc : Word), decodeWord (v.toNat % 2 ^ 32) none = .ok (.mma m) → m.g = 0 → m.fn ≠ f.fn → m.fn < 64 →
      readX s m.xc = .ok xc → checkMma s m xc (.mma m) = .ok () → (s.regs.fl m.fn).bound = none →
      CopyWordRules (.copym f) s f.fn (blkAddr x f) false
        (CopyAccepted (.copym f) s [f.fn, m.fn] 3 none (some (m, xc)))) ∧
    ((∀ m, decodeWord (v.toNat % 2 ^ 32) none = .ok (.mma m) → m.g ≠ 0) → (s.regs.fl f.fn).bound = none →
      blkAddr x f % 64 = 0 → blkAddr x f + 64 ≤ tsLimit s → TrapsM (.copym f) s 0x01 ((Instr.copym f).word % 2 ^ 32)) ∧
    (∀ (m : MMm) (xc : Word), decodeWord (v.toNat % 2 ^ 32) none = .ok (.mma m) → m.g = 0 → (s.regs.fl f.fn).bound = none →
      ((s.regs.fl m.fn).bound ≠ none → Stalls (.copym f) s) ∧
      ((s.regs.fl m.fn).bound = none → readX s m.xc = .ok xc → blkAddr x f % 64 = 0 → blkAddr x f + 64 ≤ tsLimit s →
        (m.fn = f.fn → checkMma s m xc (.mma m) = .ok () → TrapsM (.copym f) s 0x01 ((Instr.copym f).word % 2 ^ 32)) ∧
        (m.fn ≠ f.fn → ∀ t, checkMma s m xc (.mma m) = .error (.trap t) →
          exec (.copym f) s = .next (raiseTrap s { t with slot := 2 }))))) ∧
  (∀ (s : State) (r p : Nat) (c : CopyCmd), c.ch < 4 → c.mon = false →
    (((chPush s r p c).plane r p).ch c.ch).map (fun x => { x with fired := none }) =
      ((s.plane r p).ch c.ch ++ [c]).map (fun x => { x with fired := none }))

/-- R68, R255 to R260, R262 to R265, R54, R55 (Tables 3.3, 3.8, 12.1): the matrix words join the engine's queue, of eight, with
their flag bound and the coordinate value they read; MSEND also gives the message engine its send. A check that fails traps
with what it says, a full queue and a bound flag stall, and an accumulator with a loss mark traps MRES (0x0C) with the
failed MMA's flag. TDSET installs the descriptor read from tile store, clipped, and traps ILLEGAL on one that is not
valid. What an MMA is checked for: the alignment and the range of the elements that it reads, a pair of formats of Table 3.8, a
pair that suits the mode that its accumulator will have, the multiples of 8 of CB2 coordinates, and the loss mark, in this order
(R169); and MLDACC and MSTACC likewise. -/
def Obligations.MatrixWords : Prop :=
  (∀ (s : State) (r p : Nat) (e : Mx), ((mxPush s r p e).plane r p).mx = (s.plane r p).mx ++ [e]) ∧
  (∀ (f : MMm) (s : State) (x : Word), f.fn < 64 → Runs s f.g → readX s f.xc = .ok x →
    ((s.regs.fl f.fn).bound ≠ none → Stalls (.mma f) s) ∧
    ((s.regs.fl f.fn).bound = none →
      (∀ t, checkMma s f x (.mma f) = .error (.trap t) → exec (.mma f) s = .next (raiseTrap s { t with slot := 2 })) ∧
      (checkMma s f x (.mma f) = .ok () → 8 ≤ s.ctx.mx.length → Stalls (.mma f) s) ∧
      (checkMma s f x (.mma f) = .ok () → s.ctx.mx.length < 8 →
        ∃ u e, exec (.mma f) s = .next (mxPush u u.cur u.ctxP e) ∧ EngineFrame s u [f.fn] ∧ e.id = s.nextId ∧ e.op = .mma f ∧
          e.xv = x ∧ e.mon = s.mon ∧ e.started = false ∧ e.step = 0 ∧
          e.spec = s.ctx.spec.isSome))) ∧
  (∀ (f : MZ) (s : State), Runs s f.g →
    (∀ k, (accOf s.ctx true f.acc).lost = some k → exec (.mzero f) s = .next (raiseTrap s
      { cause := 0x0C, detail := k, slot := 2, info := BitVec.ofNat 64 ((s.regs.fl k).status.toNat / 2 ^ 64),
        acc := some f.acc })) ∧
    ((accOf s.ctx true f.acc).lost = none → 8 ≤ s.ctx.mx.length → Stalls (.mzero f) s) ∧
    ((accOf s.ctx true f.acc).lost = none → s.ctx.mx.length < 8 →
      ∃ u e, exec (.mzero f) s = .next (mxPush u u.cur u.ctxP e) ∧ EngineFrame s u [] ∧ e.id = s.nextId ∧ e.op = .mzero f)) ∧
  (∀ (f : MTa) (s : State) (x : Word), f.fn < 64 → Runs s f.g → readX s f.xc = .ok x → (s.regs.fl f.fn).bound = none →
    (s.ctx.mx.length < 8 → checkMove s f x (.mldacc f) = .ok () → ∃ u e, exec (.mldacc f) s = .next (mxPush u u.cur u.ctxP e) ∧
      EngineFrame s u [f.fn] ∧ e.id = s.nextId ∧ e.op = .mldacc f ∧ e.xv = x) ∧
    (s.ctx.mx.length < 8 → checkMove s f x (.mstacc f) = .ok () → ∃ u e, exec (.mstacc f) s = .next (mxPush u u.cur u.ctxP e) ∧
      EngineFrame s u [f.fn] ∧ e.id = s.nextId ∧ e.op = .mstacc f ∧ e.xv = x) ∧
    (∀ i ∈ [Instr.mldacc f, .mstacc f],
      (∀ t, checkMove s f x i = .error (.trap t) → exec i s = .next (raiseTrap s { t with slot := 2 })) ∧
      (checkMove s f x i = .ok () → 8 ≤ s.ctx.mx.length → Stalls i s))) ∧
  (∀ (f : MTa) (s : State), Runs s f.g → (s.regs.fl f.fn).bound ≠ none → Stalls (.mldacc f) s ∧ Stalls (.mstacc f) s) ∧
  (∀ (s : State) (f : MMm) (x : Word) (i : Instr) (a b : TDesc), a = s.regs.td f.p → b = s.regs.td f.q →
    (a.vault = false → a.base % a.size ≠ 0 →
      checkMma s f x i = .error (.trap { cause := 0x05, info := BitVec.ofNat 64 a.base })) ∧
    (a.vault = true ∨ a.base % a.size = 0 → b.vault = false → b.base % b.size ≠ 0 →
      checkMma s f x i = .error (.trap { cause := 0x05, info := BitVec.ofNat 64 b.base })) ∧
    (a.vault = true ∨ a.base % a.size = 0 → b.vault = true ∨ b.base % b.size = 0 →
      (∀ K, pairK a b = some K → (∃ y ∈ mmaSpans a b K (bitsHL x.toNat 63 60 + 1) x, tsLimit s < y.1 + y.2) →
        ∃ n, checkMma s f x i = .error (.trap { cause := 0x06, info := n })) ∧
      ((∀ K, pairK a b = some K → ∀ y ∈ mmaSpans a b K (bitsHL x.toNat 63 60 + 1) x, y.1 + y.2 ≤ tsLimit s) →
        ((a.raw = 0 ∨ b.raw = 0 ∨ a.vault = true ∨ b.vault = true ∨ pairK a b = none ∨
            (modeAhead s.ctx f.acc = true ∧ ¬ (a.fmt = 5 ∧ b.fmt = 5 ∧ a.scaled = false ∧ b.scaled = false)) ∨
            (a.fmt = 8 ∧ bitsHL x.toNat 39 20 % 8 ≠ 0) ∨ (b.fmt = 8 ∧ bitsHL x.toNat 59 40 % 8 ≠ 0)) →
          checkMma s f x i = .error (.trap { cause := 0x01, info := BitVec.ofNat 64 (i.word % 2 ^ 32) })) ∧
        (a.raw ≠ 0 → b.raw ≠ 0 → a.vault = false → b.vault = false → pairK a b ≠ none →
          (modeAhead s.ctx f.acc = true → a.fmt = 5 ∧ b.fmt = 5 ∧ a.scaled = false ∧ b.scaled = false) →
          (a.fmt = 8 → bitsHL x.toNat 39 20 % 8 = 0) → (b.fmt = 8 → bitsHL x.toNat 59 40 % 8 = 0) →
          ((accOf s.ctx true f.acc).lost = none → checkMma s f x i = .ok ()) ∧
          (∀ k, (accOf s.ctx true f.acc).lost = some k → checkMma s f x i = .error (.trap
            { cause := 0x0C, detail := k, info := BitVec.ofNat 64 ((s.regs.fl k).status.toNat / 2 ^ 64), acc := some f.acc }))))) ∧
    (checkMma s f x i = .ok () → ∀ K, pairK a b = some K → ∀ m < 32, ∀ k < (bitsHL x.toNat 63 60 + 1) * K,
      (a.masked (bitsHL x.toNat 19 0 + m) (bitsHL x.toNat 39 20 + k) = false →
        a.elAddr (bitsHL x.toNat 19 0 + m) (bitsHL x.toNat 39 20 + k) + a.size ≤ tsLimit s) ∧
      (b.masked (bitsHL x.toNat 39 20 + k) (bitsHL x.toNat 59 40 + m) = false →
        b.elAddr (bitsHL x.toNat 39 20 + k) (bitsHL x.toNat 59 40 + m) + b.size ≤ tsLimit s))) ∧
  (∀ a b : TDesc,
    (pairK a b = some 32 ↔ (a.fmt = 5 ∨ a.fmt = 6 ∨ a.fmt = 7) ∧ (b.fmt = 5 ∨ b.fmt = 6 ∨ b.fmt = 7)) ∧
    (pairK a b = some 16 ↔ (a.fmt = 1 ∨ a.fmt = 2) ∧ (b.fmt = 1 ∨ b.fmt = 2)) ∧
    (pairK a b = some 64 ↔ (a.fmt = 8 ∧ (b.fmt = 8 ∨ ((b.fmt = 5 ∨ b.fmt = 6 ∨ b.fmt = 7) ∧ b.scaled = true))) ∨
      (b.fmt = 8 ∧ (a.fmt = 5 ∨ a.fmt = 6 ∨ a.fmt = 7) ∧ a.scaled = true)) ∧
    (pairK a b = none ∨ pairK a b = some 32 ∨ pairK a b = some 16 ∨ pairK a b = some 64)) ∧
  (∀ (pl : Plane) (a : Nat), (pl.mx = [] → modeAhead pl a = (accOf pl true a).int32) ∧
    ∀ l e, pl.mx = l ++ [e] →
      (∀ f, e.op = .mzero f → f.acc = a → modeAhead pl a = f.mode) ∧
      (∀ f, e.op = .mldacc f → f.acc = a → (modeAhead pl a = true ↔
        (pl.regs.td f.t).fmt = 3 ∨ (pl.regs.td f.t).fmt = 4 ∨ (pl.regs.td f.t).fmt = 5)) ∧
      (e.op.acc ≠ a ∨ (∃ f, e.op = .mma f) ∨ (∃ f, e.op = .mstacc f) ∨ (∃ f k, e.op = .msend f k) →
        modeAhead pl a = modeAhead { pl with mx := l } a)) ∧
  (∀ (s : State) (f : MTa) (x : Word) (i : Instr) (d : TDesc) (sp : List (Nat × Nat)), d = s.regs.td f.t →
    sp = ({ d with raw := d.raw &&& ~~~(1#256 <<< 10) } : TDesc).spans (bitsHL x.toNat 19 0) 32 (bitsHL x.toNat 39 20) 32 →
    (d.vault = false → d.base % d.size ≠ 0 →
      checkMove s f x i = .error (.trap { cause := 0x05, info := BitVec.ofNat 64 d.base })) ∧
    (d.vault = false → d.base % d.size = 0 → (∃ y ∈ sp, tsLimit s < y.1 + y.2) →
      ∃ n, checkMove s f x i = .error (.trap { cause := 0x06, info := n })) ∧
    (d.vault = true ∨ (d.base % d.size = 0 ∧ ∀ y ∈ sp, y.1 + y.2 ≤ tsLimit s) →
      (d.raw = 0 ∨ d.vault = true ∨ d.fmt = 8 ∨ d.scaled = true →
        checkMove s f x i = .error (.trap { cause := 0x01, info := BitVec.ofNat 64 (i.word % 2 ^ 32) })) ∧
      (d.raw ≠ 0 → d.vault = false → d.fmt ≠ 8 → d.scaled = false →
        ((accOf s.ctx true f.acc).lost = none → checkMove s f x i = .ok ()) ∧
        (∀ k, (accOf s.ctx true f.acc).lost = some k → checkMove s f x i = .error (.trap
          { cause := 0x0C, detail := k, info := BitVec.ofNat 64 ((s.regs.fl k).status.toNat / 2 ^ 64), acc := some f.acc })))) ∧
    (checkMove s f x i = .ok () → ∀ m < 32, ∀ k < 32,
      d.masked (bitsHL x.toNat 19 0 + m) (bitsHL x.toNat 39 20 + k) = false →
        d.elAddr (bitsHL x.toNat 19 0 + m) (bitsHL x.toNat 39 20 + k) + d.size ≤ tsLimit s)) ∧
  (∀ (f : MMs) (s : State) (x : Word), f.fn < 64 → Runs s f.g → readX s f.xt = .ok x → (s.regs.fl f.fn).bound = none →
    (x.toNat % 65536 = 0xFFFF → TrapsM (.msend f) s 0x01 ((Instr.msend f).word % 2 ^ 32)) ∧
    (x.toNat % 65536 ≠ 0xFFFF → (accOf s.ctx true f.acc).lost = none → s.ctx.mx.length < 8 →
      s.ctx.spec = none ∨ (s.ctx.sends.filter (fun sd => sd.spec)).length < 16 →
      ∃ u v sd e, exec (.msend f) s = .next (mxPush v v.cur v.ctxP e) ∧ v = addSend u sd ∧ EngineFrame s u [f.fn] ∧
        sd.id = s.nextId ∧ sd.kind = 6 ∧ sd.flag = some f.fn ∧ sd.tag = x.toNat % 65536 ∧ sd.bytes = 1024 * tyW f.ty ∧
        sd.group = (s.regs.route[f.n]?).getD 0 / 2 ^ 24 % 256 ∧
        sd.copies.map (·.dst) = [(s.regs.route[f.n]?).getD 0 % 2 ^ 24] ∧ sd.ready = false ∧ e.id = s.nextId ∧
        e.op = .msend f s.nextId)) ∧
  (∀ (f : MTd) (s u : State) (x : Word) (t : Nat) (b : List Byte) (d : TDesc), Runs s f.g → descBusy s.ctx f.n = false →
    readX s f.xa = .ok x → t = taskAddr x (f.off.sval 9 8 * 32) → t % 32 = 0 → t + 32 ≤ tsLimit s → mRead s t 32 = .ok (b, u) →
    d = { raw := BitVec.ofNat 256 (leNat b) } →
    (d.valid = false → TrapsM (.tdset f) s 0x01 ((Instr.tdset f).word % 2 ^ 32)) ∧
    (d.valid = true → d.cb2 = false → exec (.tdset f) s = .next (setTd u f.n (clipped u f d))) ∧
    (d.valid = true → d.cb2 = true → 64 * d.cbidx + 1024 ≤ tsLimit u → u.ctx.spec = none → ∀ l v,
      mRead u (64 * d.cbidx) 1024 = .ok (l, v) →
      exec (.tdset f) s = .next (setTd v f.n { clipped v f d with lat := (words4 l).map (BitVec.ofNat 32) }))) ∧
  (∀ (f : MTd) (s : State), descBusy s.ctx f.n = true → Runs s f.g → Stalls (.tdset f) s) ∧
  (∀ (s : State) (n k : Nat) (d : TDesc), n < 16 →
    (setTd s n d).regs.td n = d ∧ (k ≠ n → (setTd s n d).regs.td k = s.regs.td k))

/-- R70, R73, R75, R83, R85, R87, R230 to R234 (Tables 11.3, 11.4): SEND, SENDR and SENDM give the message engine a send with the
envelope, length and address they read, to the rank, the routing register's rank or every other member of the group, with
the flag bound; a tag of 0xFFFF traps ILLEGAL, as a SENDM longer than EAGER does. RECV and RECVF post a receive, or end
NOROUTE when the task is no member of its group or the source that it names is none, but for a vault in group 0; RCANCEL takes a
receive back, which ends CANCELLED; PROBE writes to its flag's record what it finds of the first admitted message that fits its
filter, or zeros. -/
def Obligations.MessageWords : Prop :=
  (∀ (f : MS) (s : State) (m l a : Word), f.fn < 64 → Runs s f.g → readX s f.rd = .ok m → readX s f.xl = .ok l →
    readX s f.xa = .ok a →
    (s.ctx.spec = none ∨ (s.ctx.sends.filter (fun sd => sd.spec)).length < 16) →
    ((s.regs.fl f.fn).bound ≠ none → Stalls (.send f) s ∧ Stalls (.sendr f) s ∧ Stalls (.sendm f) s) ∧
    ((s.regs.fl f.fn).bound = none → ¬ BufferOk s a.toNat (min l.toNat 16777216) →
      TrapsM (.send f) s 0x06 a.toNat ∧ TrapsM (.sendr f) s 0x06 a.toNat ∧ TrapsM (.sendm f) s 0x06 a.toNat) ∧
    ((s.regs.fl f.fn).bound = none → BufferOk s a.toNat (min l.toNat 16777216) →
      (bitsHL m.toNat 39 24 = 0xFFFF → TrapsM (.send f) s 0x01 ((Instr.send f).word % 2 ^ 32) ∧
        TrapsM (.sendm f) s 0x01 ((Instr.sendm f).word % 2 ^ 32)) ∧
      (bitsHL m.toNat 39 24 ≠ 0xFFFF →
        Sends (.send f) s 1 f.fn (bitsHL m.toNat 47 40) (bitsHL m.toNat 39 24) l a (fun _ => [m.toNat % 2 ^ 24]) ∧
        (s.ctx.task.eager < l.toNat → TrapsM (.sendm f) s 0x01 ((Instr.sendm f).word % 2 ^ 32)) ∧
        (l.toNat ≤ s.ctx.task.eager →
          Sends (.sendm f) s 2 f.fn (bitsHL m.toNat 47 40) (bitsHL m.toNat 39 24) l a (fun s =>
            (members s s.ctx.task.job (s.regs.myrank / 4096) (bitsHL m.toNat 47 40)).filter (fun d => decide (d ≠ s.regs.myrank))))) ∧
      (m.toNat % 65536 ≠ 0xFFFF → Sends (.sendr f) s 1 f.fn ((s.regs.route[f.n]?).getD 0 / 2 ^ 24 % 256) (m.toNat % 65536) l a
        (fun s => [(s.regs.route[f.n]?).getD 0 % 2 ^ 24])))) ∧
  (∀ (f : MS) (s : State) (m l a : Word), f.fn < 64 → Runs s f.g → readX s f.rd = .ok m → readX s f.xl = .ok l →
    readX s f.xa = .ok a → s.ctx.spec = none → (s.regs.fl f.fn).bound = none → BufferOk s a.toNat (min l.toNat 16777216) →
    (128 ≤ s.ctx.prq.length → Stalls (.recv f) s ∧ Stalls (.recvf f) s) ∧
    (s.ctx.prq.length < 128 → ∀ i, i = Instr.recv f ∨ i = Instr.recvf f → ∃ u e,
      exec i s = .next (if recvOk u u.ctx.task.job u.regs.myrank e.src e.group then postRecv u u.cur u.ctxP e
        else endRecv u u.cur u.ctxP e 5) ∧
      EngineFrame s u [f.fn] ∧ e.id = s.nextId ∧ e.flag = f.fn ∧ e.src = m.toNat % 2 ^ 24 ∧ e.tag = bitsHL m.toNat 39 24 ∧
      e.group = bitsHL m.toNat 47 40 ∧ e.addr = tsPhys s a.toNat ∧ e.cap = min l.toNat 16777216 ∧
      (i = Instr.recv f → e.fwd = none) ∧ (i = Instr.recvf f → e.fwd = some ((s.regs.route[f.n]?).getD 0)))) ∧
  (∀ (f : MF) (s : State), f.fn < 64 → Runs s f.g →
    (s.ctx.spec ≠ none → Stalls (.rcancel f) s) ∧
    (s.ctx.spec = none → (∀ e ∈ s.ctx.prq, (s.regs.fl f.fn).bound ≠ some e.id ∨ e.flag ≠ f.fn) →
      exec (.rcancel f) s = .next s) ∧
    (s.ctx.spec = none → ∀ e, s.ctx.prq.find? (fun e => decide ((s.regs.fl f.fn).bound = some e.id ∧ e.flag = f.fn)) = some e →
      ∃ t, exec (.rcancel f) s = .next t ∧ t.ctx.prq = s.ctx.prq.erase e ∧ (t.regs.fl f.fn).on = true ∧
        (t.regs.fl f.fn).bound = none ∧ recStatus (t.regs.fl f.fn).status = 2 ∧ SameOutside s t ∧ SameMem s t ∧
        ∀ k, k ≠ f.fn → t.regs.flag[k]? = s.regs.flag[k]?)) ∧
  (∀ (f : MXF) (s : State) (m : Word), f.fn < 64 → Runs s f.g → readX s f.rd = .ok m →
    ((s.regs.fl f.fn).bound ≠ none → Stalls (.probe f) s) ∧
    ((s.regs.fl f.fn).bound = none → s.ctx.task.dual = false → EndsAtOnce (.probe f) s f.fn (probeRecord s.ctx m)) ∧
    ((s.regs.fl f.fn).bound = none → s.ctx.task.dual = true → ∃ u, EngineFrame s u [f.fn] ∧
      exec (.probe f) s = .next (pushDual u u.cur u.ctxP (.probe f.fn s.nextId m)))) ∧
  (∀ (s : State) (job me src g : Nat), recvOk s job me src g = true ↔ isMember s job (me / 4096) g me = true ∧
    (src = 0xFFFFFF ∨ isMember s job (me / 4096) g src = true ∨ (g = 0 ∧ 0x400 ≤ src % 4096 ∧ src % 4096 < 0x500))) ∧
  (∀ (s : State) (job pkg rank : Nat), (isMember s job pkg 0 rank = true ↔ rank % 4096 < 0x400 ∧
      ∃ j, s.jobAt job (rank / 4096) = some j ∧ s.partOf rank = some j.part) ∧
    (∀ g, g ≠ 0 → (isMember s job pkg g rank = true ↔ ∃ j, s.jobAt job pkg = some j ∧ rank ∈ ngetD j.groups g []))) ∧
  (∀ (pl : Plane) (m : Word) (ok : Uq → Prop), (∀ u, ok u ↔ u.admitted = true ∧ u.hdr.group = bitsHL m.toNat 47 40 ∧
      (m.toNat % 2 ^ 24 = 0xFFFFFF ∨ m.toNat % 2 ^ 24 = u.hdr.src) ∧
      (bitsHL m.toNat 39 24 = 0xFFFF ∨ bitsHL m.toNat 39 24 = u.hdr.tag)) →
    ((∀ u ∈ pl.uq, ¬ ok u) → probeRecord pl m = 0) ∧
    (∀ l u r, pl.uq = l ++ u :: r → (∀ w ∈ l, ¬ ok w) → ok u →
      (probeRecord pl m).extractLsb' 104 24 = BitVec.ofNat 24 u.hdr.src ∧
      (probeRecord pl m).extractLsb' 96 8 = BitVec.ofNat 8 u.hdr.group ∧
      (probeRecord pl m).extractLsb' 80 16 = BitVec.ofNat 16 u.hdr.tag ∧
      recStatus (probeRecord pl m) = 0 ∧ recKind (probeRecord pl m) = 5 ∧ recFcode (probeRecord pl m) = 0 ∧
      (u.hdr.len < 2 ^ 32 → (probeRecord pl m).extractLsb' 32 32 = BitVec.ofNat 32 u.hdr.len) ∧
      recAux (probeRecord pl m) = 1 ∧ (probeRecord pl m).extractLsb' 0 25 = 0))

/-- R101, R236 to R246, R252 (Tables 11.5, 11.6): the vault words give the message engine a request with the operands they read,
the flag bound, and the buffer they read or write in range; all but GET wait for the end of a speculation. LEASE, UNLEASE,
LEASEQ and SLOTQ go to the package's lane manager. In a DUAL task each waits for the partner's. -/
def Obligations.RequestAndLeaseWords : Prop :=
  (∀ (f : MS) (s : State) (v l a : Word), f.fn < 64 → Runs s f.g → readX s f.rd = .ok v → readX s f.xl = .ok l →
    readX s f.xa = .ok a → (s.regs.fl f.fn).bound = none →
    (BufferOk s a.toNat l.toNat → Requests (.get f) s f.fn .get v.toNat l.toNat 0 0 (tsPhys s a.toNat) 0 ∧
      (s.ctx.spec = none → Requests (.put f) s f.fn .put v.toNat l.toNat (tsPhys s a.toNat) l.toNat 0 0)) ∧
    (s.ctx.spec = none → Requests (.redf f) s f.fn (.redf l.toNat) v.toNat 4 0 0 0 (a.toNat % 2 ^ 32)) ∧
    (¬ BufferOk s a.toNat l.toNat → TrapsM (.get f) s 0x06 a.toNat ∧
      (s.ctx.spec = none → TrapsM (.put f) s 0x06 a.toNat)) ∧
    (s.ctx.spec ≠ none → Stalls (.put f) s ∧ Stalls (.redf f) s)) ∧
  (∀ (f : MA) (s : State) (v a : Word), f.fn < 64 → Runs s f.g → readX s f.rd = .ok v → readX s f.xa = .ok a →
    (s.ctx.spec ≠ none → Stalls (.atom f) s ∧ Stalls (.red f) s) ∧
    (s.ctx.spec = none → (s.regs.fl f.fn).bound = none →
      (a.toNat % 16 ≠ 0 → TrapsM (.atom f) s 0x05 a.toNat) ∧
      (a.toNat % 16 = 0 → tsLimit s < a.toNat + 48 → TrapsM (.atom f) s 0x06 a.toNat) ∧
      (a.toNat % 16 = 0 → a.toNat + 48 ≤ tsLimit s → Requests (.atom f) s f.fn (.atom f.op f.w) v.toNat (if f.w then 16 else 8)
        (tsPhys s a.toNat) 32 (tsPhys s a.toNat + 32) 0) ∧
      Requests (.red f) s f.fn (.red f.op f.w) v.toNat (if f.w then 8 else 4) 0 0 0 (a.toNat % 2 ^ (if f.w then 64 else 32)))) ∧
  (∀ (f : MFs) (s : State) (v a : Word), f.fn < 64 → Runs s f.g → readX s f.rd = .ok v → readX s f.xa = .ok a →
    s.ctx.spec = none → (s.regs.fl f.fn).bound = none → a.toNat % 16 = 0 → a.toNat + 32 ≤ tsLimit s →
    Requests (.fship f) s f.fn (.fship f.r) v.toNat 64 (tsPhys s a.toNat) 16 (tsPhys s a.toNat + 16) 0) ∧
  (∀ (f : MAF) (s : State) (a : Word), f.fn < 64 → Runs s f.g → readX s f.xa = .ok a → s.ctx.spec = none →
    (s.regs.fl f.fn).bound = none → a.toNat % 64 = 0 → a.toNat + 128 ≤ tsLimit s →
    Requests (.query f) s f.fn .query 0 128 (tsPhys s a.toNat) 4224 a.toNat 0) ∧
  (∀ (f : MXF) (s : State) (v : Word), f.fn < 64 → Runs s f.g → readX s f.rd = .ok v → (s.regs.fl f.fn).bound = none →
    (s.ctx.spec ≠ none → Stalls (.lease f) s) ∧
    (s.ctx.spec = none → ∃ u, EngineFrame s u [f.fn] ∧ exec (.lease f) s =
      .next (if s.ctx.task.dual then pushDual u u.cur u.ctxP (.lease f.fn s.nextId v)
        else leasePost u u.cur u.ctxP f.fn s.nextId 0 v)) ∧
    (∀ i (b : Bool), (i = Instr.leaseq f ∧ b = false) ∨ (i = Instr.slotq f ∧ b = true) → ∀ l : LmAsk,
      l = { rank := s.cur, plane := s.ctxP, fn := f.fn, id := s.nextId, slot := b, what := v.toNat % (if b then 4096 else 65536) } →
      ∃ u, SameElsewhere s u ∧ SameMem s u ∧ u.agenda = s.agenda ∧ u.ctx.askIds = s.ctx.askIds ++ [s.nextId] ∧
        (u.regs.fl f.fn).on = false ∧ (u.regs.fl f.fn).bound = some s.nextId ∧
        exec i s = .next (if s.ctx.task.dual then pushDual u u.cur u.ctxP (.ask l)
          else { u with agenda := u.agenda ++ [{ ev := .laneManagerAnswer l }] }))) ∧
  (∀ (f : MX) (s : State) (v : Word), Runs s f.g → readX s f.rd = .ok v →
    (s.ctx.spec ≠ none → Stalls (.unlease f) s) ∧
    (s.ctx.spec = none → exec (.unlease f) s = .next (if s.ctx.task.dual
      then pushDual s s.cur s.ctxP (.unlease (v.toNat % 65536))
      else unleaseAt s (s.cur / 4096) s.ctx.task.job (v.toNat % 65536))))

/-- R92, R96 to R98, R121, R122, R226 to R228: a copy starts when its channel is free and, of a COPYQ, its flag is set or was found
set before; its window and watermark then stand at its destination. It moves its bytes a part of a granule at a time, when nothing
holds the part's accesses: of a copy between tile-store addresses the first part of a run reads the whole run and writes the first
bytes, a later part writes what was read, and neither writes any other byte; the watermark then stands past the part, and the lock is
off at the end of a piece. At its end the window closes, its flag completes OK with the length, and the MMA of a COPYM joins the
matrix queue. -/
def Obligations.CopySteps : Prop :=
  (∀ (s : State) (r p k : Nat) (c : CopyCmd) (l : List CopyCmd), (Instr.copyStart r p k).wf = true →
    (s.plane r p).ch k = c :: l → c.started = false →
    (c.mon = true ∨ (((s.plane r p).halted = false ∨ c.fired ≠ none) ∧ ((s.plane r p).hold[k]?).getD none = none)) →
    (∀ fk, c.fk = some fk → c.fired = none → ((s.plane r p).regs.fl fk).on = false →
      ∃ t, exec (.copyStart r p k) s = .next t ∧ t.Due (.copyStart r p k) ∧ t.tiles = s.tiles ∧ SameMem s t) ∧
    ((∀ fk, c.fk = some fk → c.fired ≠ none ∨ ((s.plane r p).regs.fl fk).on = true) →
      ∃ t, exec (.copyStart r p k) s = .next t ∧ (t.plane r p).ch k = { c with started := true } :: l ∧
        (t.plane r p).window[k]? = some (if c.dvault = true ∨ c.total (s.plane r p).regs = 0 then none
          else some { lo := copyPhys (s.plane r p) c (c.wspan (s.plane r p).regs).1,
                      hi := copyPhys (s.plane r p) c (c.wspan (s.plane r p).regs).2, base := copyPhys (s.plane r p) c 0 }) ∧
        (t.plane r p).regs.wmark[k]? = some (if c.dvault then 0 else c.mark (s.plane r p).regs 0) ∧
        t.Due (.watermarkAdvance r p k) ∧ SameMem s t)) ∧
  (∀ (s : State) (r p k : Nat) (c : CopyCmd) (l : List CopyCmd) (q : Nat × Nat × CRun),
    (Instr.watermarkAdvance r p k).wf = true → (s.plane r p).ch k = c :: l → c.started = true → c.waiting = false →
    (c.total (s.plane r p).regs ≤ c.moved →
      exec (.watermarkAdvance r p k) s = .next (pumpTile (emitOnce s (.copyComplete r p k)) r)) ∧
    (c.moved < c.total (s.plane r p).regs → c.svault = false →
      q = (c.moved, c.partEnd (s.plane r p).regs c.moved - c.moved, c.runAt (s.plane r p).regs c.moved) →
      (partGate s r p k c q = .wait →
        exec (.watermarkAdvance r p k) s = .next (pumpTile (emitOnce s (.watermarkAdvance r p k)) r)) ∧
      (∀ fn, partGate s r p k c q = .faulted fn →
        exec (.watermarkAdvance r p k) s = .next (pumpTile (faultCopy s r p k c 0x13) r)) ∧
      (partGate s r p k c q = .clear → c.spec = false →
        exec (.watermarkAdvance r p k) s = .next (pumpTile (moveNext s r p k c q) r)))) ∧
  (∀ (c : CopyCmd) (g : Regs) (i : Nat), c.ten = false → i < c.len0 → ∃ x, c.runAt g i = x ∧ x.start = 0 ∧ x.len = c.len0 ∧
    x.rd = c.len0 ∧ x.src = c.src ∧ x.dst = c.dst ∧ c.partEnd g i = min c.len0 (i + 16 - (c.dst + i) % 16)) ∧
  (∀ (s t : State) (r p k n : Nat) (c : CopyCmd) (x : CRun), k < 4 → c.ch = k → c.svault = false → c.dvault = false →
    c.spec = false → 0 < n → n ≤ x.len → x.rd = x.len → (s.tile r).stale = [] → (s.plane r p).spec = none → s.Safe →
    t = moveNext s r p k c (x.start, n, x) →
    (∀ i < n, memGet t.mem (tsAddr r (copyPhys (s.plane r p) c x.dst) + i) =
      memGet s.mem (tsAddr r (copyPhys (s.plane r p) c x.src) + i)) ∧
    SameMemBut s t (tsAddr r (copyPhys (s.plane r p) c x.dst)) n ∧ t.Due (.watermarkAdvance r p k) ∧
    ∃ d l, (t.plane r p).ch k = d :: l ∧ d.moved = x.start + n ∧ d.id = c.id ∧
      ∀ i, n ≤ i → i < x.len → ngetD d.unit (x.start + i) 0 = memGet s.mem (tsAddr r (copyPhys (s.plane r p) c x.src) + i)) ∧
  (∀ (s t : State) (r p k m n : Nat) (c : CopyCmd) (x : CRun), k < 4 → c.ch = k → c.dvault = false → c.spec = false →
    x.start < m → m + n ≤ x.start + x.rd → (s.tile r).stale = [] → (s.plane r p).spec = none → s.Safe →
    t = moveNext s r p k c (m, n, x) →
    (∀ i < n, memGet t.mem (tsAddr r (copyPhys (s.plane r p) c (x.dstOf m)) + i) = ngetD c.unit (m + i) 0) ∧
    SameMemBut s t (tsAddr r (copyPhys (s.plane r p) c (x.dstOf m))) n ∧ t.Due (.watermarkAdvance r p k) ∧
    (t.plane r p).regs.wmark[k]? = some (c.mark (s.plane r p).regs (m + n)) ∧
    ((c.piece16 (s.plane r p).regs m).2 ≤ m + n → (t.plane r p).lock[k]? = some []) ∧
    ((t.plane r p).ch k).head?.map (·.moved) = some (m + n)) ∧
  (∀ (s : State) (r p k : Nat) (c : CopyCmd) (l : List CopyCmd), (Instr.copyComplete r p k).wf = true →
    (s.plane r p).ch k = c :: l → c.started = true → c.total (s.plane r p).regs ≤ c.moved → c.arr = false → c.flag < 64 →
    ((s.plane r p).regs.fl c.flag).bound = some c.id →
    ∃ u, exec (.copyComplete r p k) s = .next (pumpTile (chKick u r p k) r) ∧
      ((u.plane r p).ch k).map (fun x => { x with fired := none }) = l.map (fun x => { x with fired := none }) ∧
      (u.plane r p).window[k]? = some none ∧ SameMem s u ∧
      (c.follow = none → FlagSet u r p c.flag (copyRecord 0 0 c.moved k)) ∧
      (∀ m x, c.follow = some (m, x) → c.followCancel = false → FlagSet u r p c.flag (copyRecord 0 0 c.moved k) ∧
        ∃ e, (u.plane r p).mx = (s.plane r p).mx ++ [e] ∧ e.op = .mma m ∧ e.xv = x ∧ e.id = c.id))

/-- R51, R66 to R68, R258, R261 to R265: an MMA step adds its products to the accumulator and is counted; in int32 mode each
element wraps modulo 2^32; a step whose repeat fails the residue check ends the MMA. The end of a matrix instruction
completes its flag with its record: MZERO clears the accumulator, MLDACC loads it, and MSTACC stores its unmasked elements,
converted, at their addresses (R263) and no other byte, or none outside their granules where the engine has not seen an earlier write
(R93); an MSEND's snapshot fills its message. -/
def Obligations.MatrixSteps : Prop :=
  (∀ (acc : Acc) (a b : TDesc) (rd : Nat → Byte) (ar k kn bc i j : Nat), i < 32 → j < 32 →
    (acc.int32 = true → (stepAcc acc a b rd ar k kn bc).1.at i j = (((acc.at i j : Int) +
      ((List.range kn).map (fun kk => (a.val rd (ar + i) (k + kk)).toInt * (b.val rd (k + kk) (bc + j)).toInt)).sum) %
        (2 ^ 32 : Int)).toNat) ∧
    (acc.int32 = false → (stepAcc acc a b rd ar k kn bc).1.at i j = (fpEl (acc.at i j)
      ((List.range kn).map (fun kk => a.val rd (ar + i) (k + kk)))
      ((List.range kn).map (fun kk => b.val rd (k + kk) (bc + j)))).1 % 2 ^ 32) ∧
    (stepAcc acc a b rd ar k kn bc).1.int32 = acc.int32 ∧ (stepAcc acc a b rd ar k kn bc).1.lost = acc.lost) ∧
  (∀ (s : State) (r p kn : Nat) (e : Mx) (l : List Mx) (f : MMm) (a b : TDesc) (sp : List (Nat × Nat)),
    (s.plane r p).mx = e :: l → e.op = .mma f → f.acc < 4 → e.step < xcSteps e.xv → (e.started = true ∨ (s.plane r p).halted = false) →
    a = (s.plane r p).regs.td f.p → b = (s.plane r p).regs.td f.q → kn = (pairK a b).getD 32 →
    sp = a.spans (xcArow e.xv) 32 (xcKorg e.xv + e.step * kn) kn ++ b.spans (xcKorg e.xv + e.step * kn) kn (xcBcol e.xv) 32 →
    spansGate s r p ((s.plane r p).mxBase e) 4 true sp = .clear →
    ((Instr.mmaStep r p 0).wf = true → (s.plane r p).spec = none → e.spec = false →
      ∃ t, exec (.mmaStep r p 0) s = .next t ∧ SameMem s t ∧
        (t.plane r p).regs.acc[f.acc]? = some (stepAcc (((s.plane r p).regs.acc[f.acc]?).getD {}) a b
          (fun x => tsByte s r p pathX ((s.plane r p).mxBase e + x)) (xcArow e.xv) (xcKorg e.xv + e.step * kn) kn (xcBcol e.xv)).1 ∧
        (t.plane r p).mx.head?.map (·.step) = some (e.step + 1) ∧
        (∀ n < 4, n ≠ f.acc → (t.plane r p).regs.acc[n]? = (s.plane r p).regs.acc[n]?) ∧
        (xcSteps e.xv ≤ e.step + 1 → t.Due (.matrixOpComplete r p))) ∧
    ((Instr.mmaStep r p 2).wf = true →
      ∃ u, exec (.mmaStep r p 2) s = .next (mmaLost (residueRetry u r) r p e f) ∧ SameMem s u)) ∧
  (∀ (s : State) (r p : Nat) (e : Mx) (l : List Mx), (Instr.matrixOpComplete r p).wf = true → (s.plane r p).mx = e :: l →
    (e.started = true ∨ (s.plane r p).halted = false) →
    (∀ f, e.op = .mma f → f.fn < 64 → ((s.plane r p).regs.fl f.fn).bound = some e.id → e.started = true →
      xcSteps e.xv ≤ e.step → ∃ t, exec (.matrixOpComplete r p) s = .next t ∧ SameMem s t ∧
        FlagSet t r p f.fn (mxRecord 0 0 e.step f.acc) ∧
        (t.plane r p).mx = (s.plane r p).mx.filter (fun x => decide (x.id ≠ e.id)) ∧
        (t.plane r p).regs.fflags = (s.plane r p).regs.fflags ||| e.flags) ∧
    (∀ f, e.op = .mzero f → f.acc < 4 → (s.plane r p).spec = none → e.spec = false →
      ∃ t, exec (.matrixOpComplete r p) s = .next t ∧ SameMem s t ∧
        (t.plane r p).regs.acc[f.acc]? = some { int32 := f.mode, lost := (((s.plane r p).regs.acc[f.acc]?).getD {}).lost }) ∧
    (∀ f sp, e.op = .mldacc f → f.acc < 4 → f.fn < 64 → ((s.plane r p).regs.fl f.fn).bound = some e.id →
      (s.plane r p).spec = none → e.spec = false →
      sp = ((s.plane r p).regs.td f.t).spans (xcArow e.xv) 32 (xcKorg e.xv) 32 → spansGate s r p ((s.plane r p).mxBase e) 4 true sp = .clear →
      ∃ t, exec (.matrixOpComplete r p) s = .next t ∧ SameMem s t ∧
        FlagSet t r p f.fn (mxRecord 0 0 (((s.plane r p).regs.td f.t).open32 (xcArow e.xv) (xcKorg e.xv)).length f.acc) ∧
        (t.plane r p).regs.acc[f.acc]? = some (loadAcc ((s.plane r p).regs.td f.t)
          (fun x => tsByte s r p pathX ((s.plane r p).mxBase e + x)) (xcArow e.xv) (xcKorg e.xv)
          (((s.plane r p).regs.acc[f.acc]?).getD {}).lost)) ∧
    (∀ f d, e.op = .mstacc f → f.fn < 64 → ((s.plane r p).regs.fl f.fn).bound = some e.id →
      (s.plane r p).spec = none → e.spec = false → d = (s.plane r p).regs.td f.t →
      spansGate s r p ((s.plane r p).mxBase e) 4 false (d.spans (xcArow e.xv) 32 (xcKorg e.xv) 32) = .clear →
      (∀ x ∈ d.spans (xcArow e.xv) 32 (xcKorg e.xv) 32, guarded s r ((s.plane r p).mxBase e + x.1) x.2 = false) →
      ∃ t, exec (.matrixOpComplete r p) s = .next t ∧
        FlagSet t r p f.fn (mxRecord 0 0 (d.open32 (xcArow e.xv) (xcKorg e.xv)).length f.acc) ∧
        (∀ c, (∀ n ∈ d.open32 (xcArow e.xv) (xcKorg e.xv), ∀ k,
            k = (s.plane r p).mxBase e + d.elAddr (xcArow e.xv + n / 32) (xcKorg e.xv + n % 32) →
            c < k / 16 * 16 ∨ (k + d.size - 1) / 16 * 16 + 16 ≤ c) → memGet t.mem (tsAddr r c) = memGet s.mem (tsAddr r c)) ∧
        (AllSeen s r pathX → ∀ b, (∀ n ∈ d.open32 (xcArow e.xv) (xcKorg e.xv),
            b < tsAddr r ((s.plane r p).mxBase e + d.elAddr (xcArow e.xv + n / 32) (xcKorg e.xv + n % 32)) ∨
            tsAddr r ((s.plane r p).mxBase e + d.elAddr (xcArow e.xv + n / 32) (xcKorg e.xv + n % 32)) + d.size ≤ b) →
          memGet t.mem b = memGet s.mem b) ∧
        (AllSeen s r pathX → s.Safe → d.valid = true → d.cb2 = false → ∀ n ∈ d.open32 (xcArow e.xv) (xcKorg e.xv),
          memRead t.mem (tsAddr r ((s.plane r p).mxBase e + d.elAddr (xcArow e.xv + n / 32) (xcKorg e.xv + n % 32))) d.size =
            leBytes d.size (accOut (((s.plane r p).regs.acc[f.acc]?).getD {}) d.fmt f.sat n).1))) ∧
  (∀ (s : State) (r p sid : Nat) (e : Mx) (l : List Mx) (f : MMs), (Instr.msendSnapshot r p).wf = true →
    (s.plane r p).mx = e :: l → e.op = .msend f sid → (e.started = true ∨ (s.plane r p).halted = false) →
    (∀ sd ∈ (s.plane r p).sends, sd.kind = 6 → sd.acc = f.acc → sd.id ≠ sid → sd.held = false) →
    ∃ u, exec (.msendSnapshot r p) s = .next (pumpSends (mxDone u r p e 0 0 0) r p) ∧ SameMem s u ∧
      ∀ sd ∈ (u.plane r p).sends, sd.id = sid → sd.held = true ∧ sd.ready = true ∧
        sd.payload = ((List.range 1024).map (accOut (accOf (s.plane r p) e.spec f.acc) f.ty f.sat)).flatMap
          (fun x => leBytes (tyW f.ty) x.1))

/-- R69 to R72, R76, R78 to R80, R84, R298: a message header that arrives meets the posted receives in their order, and then
takes the lowest free run of till lines, or a stub where no such run is free or none may hold it, or is refused where no stub is
left; so it is in its turn in its stream, and one that comes early waits, stored, until then; one for a fenced tile is answered
PEERDOWN, for a tile whose stream table is full FAULT, for a job with no task there NOROUTE; a refusal leads to a retry or at
the last to OVERRUN, and an answer ends its copy and, with the last, the send. -/
def Obligations.MessageSteps : Prop :=
  (∀ (m : Msg) (s : State), (Instr.messageArrival m).wf = true → m.proto ≠ 2 →
    ((s.tile m.dst).fenced = true → ∃ t, exec (.messageArrival m) s = .next t ∧ t.tiles = s.tiles ∧ SameMem s t ∧
      t.Due (.sendAcknowledgement
        { rank := m.src, job := m.job, sid := m.sid, dst := m.dst, fin := true, status := 6, fcode := 0 })) ∧
    ((s.tile m.dst).fenced = false → m.query = false → s.streamRoom m.job m.dst m.src m.group false = false →
      ∃ t, exec (.messageArrival m) s = .next t ∧ t.tiles = s.tiles ∧ SameMem s t ∧ t.Due (.sendAcknowledgement
        { rank := m.src, job := m.job, sid := m.sid, dst := m.dst, fin := true, status := 7, fcode := 0x14 })) ∧
    ((s.tile m.dst).fenced = false → m.query = true ∨ s.streamRoom m.job m.dst m.src m.group false = true →
      (hostPlane (s.tile m.dst) m.job = none → (∀ u ∈ s.suspended, u.rank ≠ m.dst ∨ u.plane.task.job ≠ m.job) →
        ∃ t, exec (.messageArrival m) s = .next t ∧ t.tiles = s.tiles ∧ SameMem s t ∧ t.Due (.sendAcknowledgement
          { rank := m.src, job := m.job, sid := m.sid, dst := m.dst, fin := true, status := 5, fcode := 0 })) ∧
      (∀ p u, hostPlane (s.tile m.dst) m.job = some p → (s.plane m.dst p).diverted = false →
        (enter s m.dst p m false false = (.refused, u) → ∃ t, exec (.messageArrival m) s = .next t ∧ t.tiles = u.tiles ∧
          SameMem u t ∧ t.Due (.refusalArrival
            { rank := m.src, job := m.job, sid := m.sid, dst := m.dst, fin := false, status := 0, fcode := 0 })) ∧
        (enter s m.dst p m false false = (.dropped, u) → exec (.messageArrival m) s = .next u) ∧
        (enter s m.dst p m false false = (.till, u) →
          exec (.messageArrival m) s = .next (twinEnter (answer u m.dst m true 0 0) m.dst p m)) ∧
        (enter s m.dst p m false false = (.stub, u) →
          exec (.messageArrival m) s = .next (twinEnter (answer u m.dst m false 0 0) m.dst p m)) ∧
        (enter s m.dst p m false false = (.matched, u) → exec (.messageArrival m) s =
          .next (twinEnter (if m.proto = 0 then u else answer u m.dst m false 0 0) m.dst p m))))) ∧
  (∀ (m : Msg) (s : State) (r p : Nat),
    (∀ e, (s.plane r p).prq.find? (fun e => fits e.src e.tag e.group m) = some e →
      ∃ u, takeIn s r p m false false = (.matched, deliver u r p e m (if m.proto = 0 then .here m.payload true false else .pull)) ∧
        (u.plane r p).prq = (s.plane r p).prq.erase e ∧ SameMem s u) ∧
    ((∀ e ∈ (s.plane r p).prq, fits e.src e.tag e.group m = false) → m.proto = 0 →
      (∀ k, (s.plane r p).tillAlloc m.len = some k →
        (∀ j < k, (s.plane r p).tillHeld j (tillNeed m.len) = true) ∧ (s.plane r p).tillHeld k (tillNeed m.len) = false ∧
        ∃ u, takeIn s r p m false false = (.till, u) ∧
          (AllSeen s r pathN → SameMemBut s u (tsAddr r ((s.plane r p).tillAddr k)) m.payload.length) ∧
          SameGransBut s u r ((s.plane r p).tillAddr k) m.payload.length ∧
          (u.plane r p).uq = (s.plane r p).uq ++
            [{ hdr := { m with payload := [] }, line := k, lines := tillNeed m.len, admitted := true }] ∧
          ((s.tile r).stale = [] → s.Safe → ∀ j (h : j < m.payload.length),
            memGet u.mem (tsAddr r ((s.plane r p).tillAddr k) + j) = m.payload[j]))) ∧
    ((∀ e ∈ (s.plane r p).prq, fits e.src e.tag e.group m = false) → m.proto ≠ 0 ∨ (s.plane r p).tillAlloc m.len = none →
      ((s.plane r p).stubFree = true → takeIn s r p m false false = (.stub, s.modPlane r p (fun pl =>
        { pl with uq := pl.uq ++ [{ hdr := { m with payload := [] }, line := 0, lines := 0, admitted := true, kept := false }] }))) ∧
      ((s.plane r p).stubFree = false → takeIn s r p m false false = (.refused, s)))) ∧
  (∀ (m : Msg) (s : State) (r p : Nat) (x : Stream), x = s.stream m.job r m.src m.group false →
    (m.query = true → enter s r p m false false = takeIn s r p m false false) ∧
    (m.query = false → x.standsRefused m.seq = true →
      enter s r p m false false = (.refused, s.putStream { x with refused := x.refused.erase m.seq ++ [m.seq] })) ∧
    (m.query = false → x.standsRefused m.seq = false →
      (2 ^ 31 ≤ seqDist x.next m.seq → enter s r p m false false = (.dropped, s)) ∧
      (seqDist x.next m.seq = 0 → ∀ c u, takeIn s r p m false false = (c, u) → c ≠ .refused → enter s r p m false false =
        (c, cascade ((u.plane r p).uq.length + 1) (u.putStream { x with refused := x.refused.erase m.seq }.advance) r p
          m.src m.group)) ∧
      (seqDist x.next m.seq ≠ 0 → seqDist x.next m.seq < 2 ^ 31 → ∀ c u, storeMsg s r p m false false false = (c, u) →
        c ≠ .refused → enter s r p m false false = (c, u.putStream { x with refused := x.refused.erase m.seq })))) ∧
  (∀ (s : State) (r p src g n : Nat) (u : Uq) (x : Stream), x = s.stream (s.plane r p).task.job r src g false →
    (s.plane r p).uq.find? (fun u => !u.admitted && decide (u.hdr.src = src ∧ u.hdr.group = g ∧ u.hdr.seq = x.next)) = some u →
    (∀ e ∈ (s.plane r p).prq, fits e.src e.tag e.group u.hdr = false) → ∃ v, cascade (n + 1) s r p src g = cascade n v r p src g ∧
      (v.plane r p).uq = (s.plane r p).uq.erase u ++ [{ u with admitted := true }] ∧ v.streams = (s.putStream x.advance).streams ∧
      SameMem s v) ∧
  (∀ (m : Msg) (s : State), (Instr.abandon m).wf = true → twinTile s m.dst m.job = none → hostPlane (s.tile m.dst) m.job = none →
    s.streamRoom m.job m.dst m.src m.group false = true →
    exec (.abandon m) s = .next (s.putStream ((s.stream m.job m.dst m.src m.group false).abandon m.seq))) ∧
  (∀ (x : Stream) (q : Nat), (x.next ≠ q → seqDist x.next q < 2 ^ 31 → q ∈ (x.abandon q).abandoned ∧ (x.abandon q).next = x.next) ∧
    (x.next = q → x.abandoned = [] → (x.abandon q).next = (q + 1) % 2 ^ 32)) ∧
  (∀ (a : Ack) (s : State) (p : Nat) (sd : Send) (c : SendCopy), epOf a.rank < 0x400 →
    planeOfSend (s.tile a.rank) a.sid = some p → (s.plane a.rank p).send a.sid = some sd → openCopy sd a.dst = some c →
    ((Instr.refusalArrival a).wf = true → c.retry < (s.plane a.rank p).regs.retrylim →
      ∃ t, exec (.refusalArrival a) s = .next t ∧ t.Due (.sendRetry a) ∧ t.tiles = s.tiles ∧ SameMem s t) ∧
    ((Instr.refusalArrival a).wf = true → (s.plane a.rank p).regs.retrylim ≤ c.retry →
      ∃ u, exec (.refusalArrival a) s = .next (withSend u a.rank a.sid (onCopy a.dst (SendCopy.finish 4 0))) ∧
        u.tiles = s.tiles ∧ ∃ m, u.Due (.abandon m) ∧ m.sid = a.sid ∧ m.dst = a.dst ∧ m.seq = c.seq) ∧
    (∀ n, (Instr.sendRetry a).wf = true → n = (if sd.eager then sd.bytes else 0) →
      (queueTakes s a.rank a.dst n = false ∨ sendBytes s a.rank p sd 0 n = .error .wait →
        ∃ t, exec (.sendRetry a) s = .next t ∧ t.Due (.sendRetry a) ∧ t.tiles = s.tiles ∧ SameMem s t) ∧
      (∀ fn, queueTakes s a.rank a.dst n = true → sendBytes s a.rank p sd 0 n = .error (.faulted fn) →
        ∃ u, exec (.sendRetry a) s = .next (withSend u a.rank a.sid (onCopy a.dst (SendCopy.finish 7 0x13))) ∧ u.tiles = s.tiles ∧
          ∃ m, u.Due (.abandon m) ∧ m.sid = a.sid ∧ m.dst = a.dst ∧ m.seq = c.seq) ∧
      (∀ b, queueTakes s a.rank a.dst n = true → sendBytes s a.rank p sd 0 n = .ok b →
        ∃ t m, exec (.sendRetry a) s = .next t ∧ t.Due (.messageArrival m) ∧ m.sid = a.sid ∧ m.dst = a.dst ∧ m.seq = c.seq ∧
          m.retry = c.retry + 1 ∧ m.payload = b ∧ SameMem s t))) ∧
  (∀ (a : Ack) (s : State) (p fn : Nat) (sd : Send), epOf a.rank < 0x400 →
    planeOfSend (s.tile a.rank) a.sid = some p → partnerOf s a.rank p = none →
    (s.plane a.rank p).sends.Pairwise (fun x y => x.id ≠ y.id) → sd ∈ (s.plane a.rank p).sends → sd.id = a.sid →
    sd.twin = 0 → sd.paired = true → sd.flag = some fn → fn < 64 → ((s.plane a.rank p).regs.fl fn).bound = some sd.id → sd.numbered = true →
    (∀ c ∈ sd.copies, c.fin = none → c.dst = a.dst) →
    ((Instr.sendAcknowledgement a).wf = true → a.fin = true → ∃ t, exec (.sendAcknowledgement a) s = .next t ∧
      FlagSet t a.rank p fn (sendRecord (s.plane a.rank p).regs.myrank (onCopy a.dst (SendCopy.finish a.status a.fcode) sd))) ∧
    ((Instr.discardNotice a).wf = true → ∃ t, exec (.discardNotice a) s = .next t ∧
      FlagSet t a.rank p fn (sendRecord (s.plane a.rank p).regs.myrank (onCopy a.dst (SendCopy.finish 2 0) sd))))

/-- R77, R79, R82, R86, R150: the bytes of a delivery land line by line at the receive's address and nowhere else, in a window
they wait; when they have all landed the receive's flag is set with its record: TRUNC when the message was longer than the
receive or fewer bytes came than it was told of, STUBBED when it came by a stub, else OK. A pull brings of the payload what it
wants, as the engine reads it then, as far as it stands ready and the queue to the receiver has room, in lines that come one by
one, and with the last of it the copy ends. A transfer over the fabric is never abandoned, one that Ultra Ethernet abandons
leaves no packet on its way and ends LINKERR at both ends. -/
def Obligations.DeliverySteps : Prop :=
  (∀ (s : State) (r p did n a : Nat) (d : Delivery), (Instr.payloadLineLands r p did).wf = true →
    (s.plane r p).delivery did = some d → d.data ≠ [] → (d.lines = 0 ∨ draining s r = false) → a = d.recv.addr + d.got →
    n = min (64 - a % 64) d.data.length →
    (winTile (s.tile r) p a n 4 = .wait → ∃ t, exec (.payloadLineLands r p did) s = .next t ∧
      t.Due (.payloadLineLands r p d.did) ∧ t.tiles = s.tiles ∧ SameMem s t) ∧
    (∀ fn, winTile (s.tile r) p a n 4 = .faulted fn →
      exec (.payloadLineLands r p did) s = .next (failDelivery s r p d 7 0x13)) ∧
    (winTile (s.tile r) p a n 4 = .clear → (s.plane r p).spec = none →
      ∃ t, exec (.payloadLineLands r p did) s = .next t ∧ (AllSeen s r pathN → SameMemBut s t (tsAddr r a) n) ∧
        SameGransBut s t r a n ∧
        ((s.tile r).stale = [] → s.Safe → ∀ k < n, some (memGet t.mem (tsAddr r a + k)) = d.data[k]?) ∧
        ((t.plane r p).delivery did).map (fun e => (e.got, e.data)) = some (d.got + n, d.data.drop n) ∧
        (d.fwd = none → (t.plane r p).regs = (s.plane r p).regs))) ∧
  (∀ (s : State) (r p did : Nat) (d : Delivery), (Instr.deliveryComplete r p did).wf = true →
    (s.plane r p).delivery did = some d → d.fin = none → d.pulling = false → d.data = [] → d.fwd = none → d.recv.flag < 64 →
    ((s.plane r p).regs.fl d.recv.flag).bound = some d.recv.id →
    ∃ t, exec (.deliveryComplete r p did) s = .next t ∧ SameMem s t ∧ (t.plane r p).delivery did = none ∧
      FlagSet t r p d.recv.flag (recvRecord d.recv d.hdr.src d.hdr.tag
        (if d.recv.cap < d.hdr.len ∨ d.got < d.want then 1 else if d.stubbed then 3 else 0) 0 d.hdr.len d.got 15) ∧
      (d.ack = true → r = d.hdr.dst → t.Due (.sendAcknowledgement { rank := d.hdr.src, job := d.hdr.job, sid := d.hdr.sid,
                                                                    dst := d.hdr.dst, fin := true, status := 0, fcode := 0 }))) ∧
  (∀ (q : Pull) (s : State), (Instr.pullRequest q).wf = true → epOf q.rank < 0x400 →
    ((s.tile q.rank).fenced = true → exec (.pullRequest q) s = .next (pullFails s q 6 0)) ∧
    ((s.tile q.rank).fenced = false → ∀ p sd, planeOfSend (s.tile q.rank) q.sid = some p →
      (s.plane q.rank p).diverted = false → (s.plane q.rank p).send q.sid = some sd →
      ∀ n fin, n = min (sd.onHand q.want - q.done) (64 * ((queueRoom s q.rank q.dst).getD q.want)) →
      fin = sd.pulledOut q.want (q.done + n) →
      (n = 0 ∧ fin = false ∨ sendBytes s q.rank p sd q.done n = .error .wait → ∃ t, exec (.pullRequest q) s = .next t ∧
        t.Due (.pullRequest q) ∧ t.tiles = s.tiles ∧ SameMem s t) ∧
      (∀ fn, ¬ (n = 0 ∧ fin = false) → sendBytes s q.rank p sd q.done n = .error (.faulted fn) → exec (.pullRequest q) s =
        .next (pullFails (withSend s q.rank q.sid (onCopy q.dst (SendCopy.finish 7 0x13))) q 7 0x13)) ∧
      (∀ b, sendBytes s q.rank p sd q.done n = .ok b → ∃ u, SameMem s u ∧ u.agenda = s.agenda ∧
        (fin = true → exec (.pullRequest q) s = .next (pulled
          (withSend u q.rank q.sid (onCopy q.dst (SendCopy.finish (if sd.eager then 3 else 0) 0))) q
          (s.plane q.rank p).regs.myrank b true)) ∧
        (fin = false → n ≠ 0 → ∃ t, exec (.pullRequest q) s = .next t ∧ t.Due (.pullRequest { q with done := q.done + n }) ∧
          t.tiles = (pulled u q (s.plane q.rank p).regs.myrank b false).tiles)))) ∧
  (∀ (sd : Send) (w k : Nat),
    (sd.kind ≠ 4 → sd.kind ≠ 6 → sd.onHand w = min w sd.bytes ∧ (sd.pulledOut w k = true ↔ min w sd.bytes ≤ k)) ∧
    (sd.kind = 4 → sd.held = false → sd.onHand w = min w sd.payload.length ∧ sd.pulledOut w k = false) ∧
    (sd.kind = 6 → sd.held = false → sd.onHand w = 0 ∧ sd.pulledOut w k = false)) ∧
  (∀ (s : State) (r p i n : Nat) (sd : Send) (b : List Byte), sd.kind ≠ 4 → sd.kind ≠ 6 → (s.tile r).stale = [] → (s.plane r p).spec = none →
    sendBytes s r p sd i n = .ok b → b = memRead s.mem (tsAddr r (sd.addr + i)) n) ∧
  (∀ (s : State) (q : Pull) (src k : Nat) (b : List Byte) (fin : Bool) (d : Delivery),
    planeOfDelivery (s.tile q.dst) q.did = some k → partnerOf s q.dst k = none → (s.plane q.dst k).delivery q.did = some d →
    ((pulled s q src b fin).plane q.dst k).delivery q.did = some { d with data := d.data ++ b, pulling := !fin } ∧
    (b ≠ [] → (pulled s q src b fin).Due (.payloadLineLands q.dst k q.did)) ∧
    (b = [] → fin = true → (pulled s q src b fin).Due (.deliveryComplete q.dst k q.did))) ∧
  (∀ (a : Ack) (s : State), (Instr.transportAbandon a).wf = true →
    ((∀ d ∈ s.agenda, overUet s d.ev = false) → exec (.transportAbandon a) s = .next s) ∧
    (∀ d ∈ s.agenda, isTransfer s a d.ev = true → overUet s d.ev = true → ∃ u, exec (.transportAbandon a) s =
      .next (receiverFails (senderFails u a) a) ∧ u.tiles = s.tiles ∧ SameMem s u ∧ (∀ e ∈ u.agenda, isTransfer s a e.ev = false) ∧
      ∀ e ∈ s.agenda, isTransfer s a e.ev = false → e ∈ u.agenda) ∧
    ((∀ d ∈ s.agenda, isTransfer s a d.ev = true → overUet s d.ev = false) →
      ∀ q, s.agenda.findSome? (fun d => if isRequest a d.ev && overUet s d.ev then requestOf d.ev else none) = some q →
      ∃ t, exec (.transportAbandon a) s = .next t ∧ t.tiles = s.tiles ∧ SameMem s t ∧
        t.Due (.vaultReply { req := q, status := 7, fcode := 0x07, data := [], done := 0, home := 0 }) ∧
        ∀ d ∈ t.agenda, isRequest a d.ev = true →
          d.ev = .vaultReply { req := q, status := 7, fcode := 0x07, data := [], done := 0, home := 0 })) ∧
  (∀ (a : Ack) (s : State) (p : Nat) (sd : Send) (c : SendCopy), epOf a.rank < 0x400 → planeOfSend (s.tile a.rank) a.sid = some p →
    (s.plane a.rank p).send a.sid = some sd → openCopy sd a.dst = some c →
    ∃ u, senderFails s a = withSend u a.rank a.sid (onCopy a.dst (SendCopy.finish 7 0x07)) ∧ u.tiles = s.tiles ∧ SameMem s u)

/-- R112, R114, R116, R117, R119, R123, R124, R324, R326, R340: what a vault does with a request. A fenced vault on its way
answers MEMERR, a page that moves RNR before the first granule; that one in no partition answers XPART is the model's choice
(log entry 96). A GET reads a granule a step and returns the bytes after the last, and a marked one adds its filter entries or
meets a full filter; a PUT writes a granule a step, and after the last its acknowledgement goes, or is withheld while a filter
entry clashes, with a notice to every reader; an ATOM returns the old value and stores the new one of Table 6.2; a RED stores it
alone; a REDF writes its slot and marks it written; an FSHIP runs its routine. The last clause gives the ten operations of Table
6.2 on numbers of n bytes. -/
def Obligations.VaultRequestSteps : Prop :=
  (∀ (i : Instr) (q : Req) (s : State),
    i ∈ [Instr.vaultGet q, .vaultPut q, .vaultAtom q, .vaultRed q, .vaultRedf q, .vaultFship q] → i.wf = true →
    (∀ v, (visits s q).find? (fun v => (s.vault v).fenced) = some v →
      ∃ t, exec i s = .next t ∧ Answered t q v 7 0x05 [] (if q.op = .put then q.done else 0) ∧ t.tiles = s.tiles ∧ SameMem s t) ∧
    (∀ v, (∀ w ∈ visits s q, (s.vault w).fenced = false) → (visits s q).find? (fun v => (s.partOf v).isNone) = some v →
      ∃ t, exec i s = .next t ∧ Answered t q v 7 0x15 [] (if q.op = .put then q.done else 0) ∧ t.tiles = s.tiles ∧ SameMem s t) ∧
    ((∀ v ∈ visits s q, (s.vault v).fenced = false ∧ (s.partOf v).isSome = true) →
      (s.pkg q.pkg).isMoving (dpn64 q.dpa) = true → q.done ≤ q.base →
      ∃ t, exec i s = .next t ∧ t.Due (.rnrRetry q) ∧ t.tiles = s.tiles ∧ SameMem s t)) ∧
  (∀ (q : Req) (s : State) (home n x : Nat) (b : List Byte), (Instr.vaultGet q).wf = true → Served s q home →
    x = q.dpa + (q.done - q.base) → n = min (16 - x % 16) (q.upto - q.done) → b = memRead s.mem (s.dpaAddr q.pkg x) n →
    (q.spec = false → Readable s q.pkg x home n → ∃ t, exec (.vaultGet q) s = .next t ∧
      (q.done + n < q.upto → t.Due (.vaultGet { q with done := q.done + n, data := q.data ++ b })) ∧
      (q.upto ≤ q.done + n → Answered t { q with data := [] } home 0 0 (q.data ++ b) (q.done + n)) ∧ t.tiles = s.tiles ∧ SameMem s t) ∧
    (q.spec = false → (firstBad s q.pkg x n).isSome = true →
      ∃ t, exec (.vaultGet q) s = .next t ∧ Answered t { q with data := [] } home 7 0x05 [] 0) ∧
    (∀ l, l = newEntries (s.vault home) q → q.spec = true →
      (64 < (s.vault home).filter.length + l.length → l ≠ [] → ∃ t, exec (.vaultGet q) s = .next t ∧
        Answered t { q with data := [] } home stFILTERFULL 0 [] 0 ∧ t.vaults = s.vaults ∧ SameMem s t) ∧
      ((s.vault home).filter.length + l.length ≤ 64 → Readable s q.pkg x home n → ∃ t, exec (.vaultGet q) s = .next t ∧
        (q.done + n < q.upto → t.Due (.vaultGet { q with done := q.done + n, data := q.data ++ b })) ∧
        (q.upto ≤ q.done + n → Answered t { q with data := [] } home 0 0 (q.data ++ b) (q.done + n)) ∧
        (t.vault home).filter = (s.vault home).filter ++ l ∧ SameMem s t))) ∧
  (∀ (q : Req) (s : State) (home n m x a : Nat), (Instr.vaultPut q).wf = true → Served s q home → q.upto ≤ q.data.length →
    x = q.dpa + (q.done - q.base) → n = min (16 - x % 16) (q.upto - q.done) → m = q.done + n → x % 65536 + n ≤ 65536 →
    firstBad s q.pkg x n = none → a = s.dpaAddr q.pkg x → ∃ t, exec (.vaultPut q) s = .next t ∧
      SameMemBut s t a n ∧ (s.Safe → ∀ k < n, some (memGet t.mem (a + k)) = q.data[q.done + k]?) ∧ t.tiles = s.tiles ∧
      (m < q.upto → t.Due (.vaultPut { q with done := m })) ∧
      (q.upto ≤ m → clashes (s.vault home) q [(q.dpa, m - q.base)] = [] → Answered t q home 0 0 [] m) ∧
      (q.upto ≤ m → ∀ e ∈ clashes (s.vault home) q [(q.dpa, m - q.base)], t.Due (.conflictNotice e.rank e.plane e.number) ∧
        ({ req := q, status := 0, fcode := 0, data := [], done := m, home := home }, clashes (s.vault home) q [(q.dpa, m - q.base)])
          ∈ (t.vault home).withheld)) ∧
  (∀ (q : Req) (s : State) (home op n a old : Nat) (w : Bool), (Instr.vaultAtom q).wf = true → Served s q home →
    q.op = .atom op w → n = (if w then 16 else 8) → a = s.dpaAddr q.pkg q.dpa → old = leNat (memRead s.mem a n) →
    (10 ≤ op → ∃ t, exec (.vaultAtom q) s = .next t ∧ Answered t q home 7 0x0C [] 0 ∧ t.tiles = s.tiles ∧ SameMem s t) ∧
    (op < 10 → Readable s q.pkg q.dpa home n → clashes (s.vault home) q [(q.dpa, n)] = [] →
      ∃ t, exec (.vaultAtom q) s = .next t ∧ Answered t q home 0 0 (memRead s.mem a n) n ∧ t.tiles = s.tiles ∧
        SameMemBut s t a n ∧ (s.Safe → leNat (memRead t.mem a n) = (atomOp op n old q.a q.b).getD old))) ∧
  (∀ (q : Req) (s : State) (home op n a old : Nat) (w : Bool), (Instr.vaultRed q).wf = true → Served s q home →
    q.op = .red op w → n = (if w then 8 else 4) → a = s.dpaAddr q.pkg q.dpa → old = leNat (memRead s.mem a n) →
    (8 ≤ op → ∃ t, exec (.vaultRed q) s = .next t ∧ Answered t q home 7 0x0C [] 0 ∧ t.tiles = s.tiles ∧ SameMem s t) ∧
    (op < 8 → Readable s q.pkg q.dpa home n → clashes (s.vault home) q [(q.dpa, n)] = [] →
      ∃ t, exec (.vaultRed q) s = .next t ∧ Answered t q home 0 0 [] n ∧ t.tiles = s.tiles ∧ SameMemBut s t a n ∧
        (s.Safe → some (leNat (memRead t.mem a n)) = atomOp op n old q.a q.b))) ∧
  (∀ (q : Req) (s : State) (home slot n sa ba : Nat), (Instr.vaultRedf q).wf = true → Served s q home → q.op = .redf slot →
    firstBad s q.pkg q.dpa 16 = none → n = leNat (s.dpaBytes q.pkg (q.dpa + 4) 4) → sa = q.dpa + 64 + bitmapLen n + 4 * slot →
    ba = q.dpa + 64 + slot / 8 →
    (objOk q.dpa n = false → ∃ t, exec (.vaultRedf q) s = .next t ∧ Answered t q home 7 0x0E [] 0 ∧ SameMem s t) ∧
    (objOk q.dpa n = true → n ≤ slot → ∃ t, exec (.vaultRedf q) s = .next t ∧ Answered t q home 7 0x0D [] 0 ∧ SameMem s t) ∧
    (objOk q.dpa n = true → slot < n → firstBad s q.pkg sa 4 = none → firstBad s q.pkg ba 1 = none →
      (s.vault home).objects.length < 16 → clashes (s.vault home) q [(sa, 4), (ba, 1)] = [] →
      ∃ t, exec (.vaultRedf q) s = .next t ∧ Answered t q home 0 0 [] 4 ∧ t.tiles = s.tiles ∧
        (s.Safe → leNat (t.dpaBytes q.pkg sa 4) = q.a % 2 ^ 32 ∧
          leNat (t.dpaBytes q.pkg ba 1) = leNat (s.dpaBytes q.pkg ba 1) ||| 2 ^ (slot % 8)) ∧
        (∀ b, b < s.dpaAddr q.pkg sa ∨ s.dpaAddr q.pkg sa + 4 ≤ b → b ≠ s.dpaAddr q.pkg ba →
          memGet t.mem b = memGet s.mem b) ∧ (q.dpa, true) ∈ (t.vault home).objects)) ∧
  (∀ (q : Req) (s : State) (home r a : Nat) (ws : Nat → Nat), (Instr.vaultFship q).wf = true → Served s q home →
    q.op = .fship r → (∀ k, ws k = ngetD (s.vault home).routine (16 * r + k) 0) → a = s.dpaAddr q.pkg q.dpa →
    ((ws 0).testBit 31 = false → ∃ t, exec (.vaultFship q) s = .next t ∧ Answered t q home 7 0x0F [] 0 ∧ SameMem s t) ∧
    (∀ y : Rout, (ws 0).testBit 31 = true → Readable s q.pkg q.dpa home 64 → clashes (s.vault home) q [(q.dpa, 64)] = [] →
      y = routRun ws (BitVec.ofNat 64 q.a) (BitVec.ofNat 64 q.b) 15 { l := lineWords (memRead s.mem a 64) } →
      ∃ t, exec (.vaultFship q) s = .next t ∧ t.tiles = s.tiles ∧
        Answered t q home 0 0 (leBytes 8 (((lineWords (memRead s.mem a 64))[bitsHL (ws 0) 30 28]?).getD 0).toNat ++
          leBytes 8 y.t.toNat) 64 ∧ SameMemBut s t a 64 ∧
        (s.Safe → lineWords (memRead t.mem a 64) = (if y.wrote = true then y.l else lineWords (memRead s.mem a 64))))) ∧
  (∀ (n : Nat) (x a b : BitVec (8 * n)), 0 < n →
    atomOp 0 n x.toNat a.toNat b.toNat = some (x + a).toNat ∧ atomOp 1 n x.toNat a.toNat b.toNat = some (x &&& a).toNat ∧
    atomOp 2 n x.toNat a.toNat b.toNat = some (x ||| a).toNat ∧ atomOp 3 n x.toNat a.toNat b.toNat = some (x ^^^ a).toNat ∧
    atomOp 4 n x.toNat a.toNat b.toNat = some (if a.toInt < x.toInt then a else x).toNat ∧
    atomOp 5 n x.toNat a.toNat b.toNat = some (if x.toInt < a.toInt then a else x).toNat ∧
    atomOp 6 n x.toNat a.toNat b.toNat = some (if a.toNat < x.toNat then a else x).toNat ∧
    atomOp 7 n x.toNat a.toNat b.toNat = some (if x.toNat < a.toNat then a else x).toNat ∧
    atomOp 8 n x.toNat a.toNat b.toNat = some a.toNat ∧
    atomOp 9 n x.toNat a.toNat b.toNat = some (if x = a then b else x).toNat)

/-- R101, R109, R124, R237, R282, R315, R318, R321, R323, R325, Table 18.5: what follows a request. A reply ends its request: its
bytes land, its flag is set with its record, and what waited goes on; while its bytes cannot land it waits. One that ends a part of a
GET or PUT that crosses a leaf lets the next part go (R315). A request turned
away goes again; a page walk's leaf is installed in the tile and the die's TLB and lets it go on, an entry that has come to cover the
address meanwhile is used instead (R315), or it faults; a release flit frees its speculation's filter entries and
the answers withheld for them alone, and is acknowledged; a host atomic is one step in the vault order. -/
def Obligations.AnswerSteps : Prop :=
  (∀ (p : Reply) (s : State), (Instr.vaultReply p).wf = true → (s.tile p.req.rank).reqOf p.req.id = none →
    exec (.vaultReply p) s = .next s) ∧
  (∀ (p pj : Reply) (s u : State) (r : Nat) (e : ReqSt), (Instr.vaultReply p).wf = true → r = p.req.rank →
    (s.tile r).reqOf p.req.id = some e → pj = joined e.req p →
    u = (learnLoc s r p).modPlane r p.req.plane (fun pl => noteVault pl p.req p.home) → twinReq u r p.req.plane p.req.id = none →
    p.status ≠ stFILTERFULL →
    (morePart e.req p = true → e.dropped = false → ∃ v, exec (.vaultReply p) s = .next (pumpRelease (pumpTile v r) r p.req.plane) ∧
      SameMem s v ∧ v.agenda = s.agenda ∧ (v.tile r).reqs = (u.tile r).reqs.map (fun x => if x.req.id = e.req.id then
        { e with sent := false, len := 0, req := { e.req with vault := 0, base := p.done, done := p.done,
                                                              data := if e.req.op = .get then e.req.data ++ p.data else e.req.data } }
        else x)) ∧
    (morePart e.req p = false → e.dropped = true →
      exec (.vaultReply p) s = .next (pumpRelease (pumpTile (dropReq u r e.req.id) r) r p.req.plane)) ∧
    (∀ k, morePart e.req p = false → e.dropped = false → e.owner = .copy k → exec (.vaultReply p) s = .next (pumpRelease (pumpTile
      (copyReply (dropReq u r e.req.id) r e.req.plane k e.req p.status p.fcode pj.data) r) r p.req.plane)) ∧
    (morePart e.req p = false → e.dropped = false → e.owner = .flag →
      (∀ v, landReply u r e.req (replyBytes pj) = .done v → exec (.vaultReply p) s = .next (pumpRelease (pumpTile
        (completeFlag (dropReq v r e.req.id) r e.req.plane e.req.flag e.req.id
          (reqRecord e.req p.status p.fcode p.home p.done (replyBytes pj).length)) r) r p.req.plane)) ∧
      (landReply u r e.req (replyBytes pj) = .faulted → exec (.vaultReply p) s = .next (pumpRelease (pumpTile
        (completeFlag (dropReq u r e.req.id) r e.req.plane e.req.flag e.req.id (reqRecord e.req 7 0x13 p.home 0 0)) r) r
          p.req.plane)) ∧
      (∀ v, landReply u r e.req (replyBytes pj) = .wait v → exec (.vaultReply p) s = .next (emitOnce v (.vaultReply p))))) ∧
  (∀ (q : Req) (p : Reply), (morePart q p = true ↔ p.status = 0 ∧ (q.op = .get ∨ q.op = .put) ∧ p.done < q.len) ∧
    (q.op = .get → p.status = 0 → joined q p = { p with data := q.data ++ p.data }) ∧ (q.op ≠ .get → joined q p = p) ∧
    replyBytes p = (if p.status = 0 then p.data else [])) ∧
  (∀ (s : State) (r : Nat) (q : Req) (b : List Byte), winTile (s.tile r) q.plane q.dst b.length 4 = .clear →
    (s.plane r q.plane).spec = none → ∃ v, landReply s r q b = .done v ∧
      (AllSeen s r pathN → SameMemBut s v (tsAddr r q.dst) b.length) ∧ SameGransBut s v r q.dst b.length ∧
      ((s.tile r).stale = [] → s.Safe → ∀ k (h : k < b.length), memGet v.mem (tsAddr r q.dst + k) = b[k])) ∧
  (∀ (s : State) (r p fn id : Nat) (q : Quad), p < 2 → fn < 64 → ((s.plane r p).regs.fl fn).bound = some id →
    FlagSet (completeFlag s r p fn id q) r p fn q) ∧
  (∀ (q : Req) (s : State) (e : ReqSt), (Instr.rnrRetry q).wf = true →
    ((s.tile q.rank).reqOf q.id = none → exec (.rnrRetry q) s = .next s) ∧
    ((s.tile q.rank).reqOf q.id = some e → e.dropped = false → ∃ t, exec (.rnrRetry q) s = .next t ∧
      t.Due (reqEvent { q with tries := q.tries + 1, data := if q.op = .get then [] else q.data }) ∧ t.tiles = s.tiles ∧ SameMem s t)) ∧
  (∀ (q : Req) (s : State) (e : ReqSt) (k : Nat), (Instr.pageWalkEnd q).wf = true → k = pkgOf q.rank →
    (s.tile q.rank).reqOf q.id = some e → e.sent = false →
    (∀ w ∈ (s.pkg k).walks, w.die = dieOf (epOf q.rank) → w.part = q.part → w.page = (q.va + q.base) / 4096 →
      w.reqs = [(q.rank, q.id)]) →
    (∀ x v y, lookupTile s q.rank e.req.part (e.req.va + e.req.base) = some (x, v) → walk s k q.part (q.va + q.base) = .ok y →
      ∃ u, SameMem s u ∧ exec (.pageWalkEnd q) s = .next (nextWalks (pumpReqs (withEntry u q.rank e x) q.rank) k)) ∧
    (lookupTile s q.rank e.req.part (e.req.va + e.req.base) = none →
      (∀ w, walk s k q.part (q.va + q.base) = .error w → w.bad = none → e.req.host = false →
        ∃ t, exec (.pageWalkEnd q) s = .next t ∧ SameMem s t ∧
          Answered t e.req 0 7 w.code [] (if e.req.op = .put then e.req.base else 0)) ∧
      (∀ x, walk s k q.part (q.va + q.base) = .ok x → ∃ u, SameMem s u ∧ x ∈ (u.tile q.rank).tr ∧
        x ∈ ngetD (u.pkg k).tlb (dieOf (epOf q.rank)) [] ∧
        exec (.pageWalkEnd q) s = .next (nextWalks (pumpReqs (withEntry u q.rank e x) q.rank) k)))) ∧
  (∀ (f : Flit) (s : State), (Instr.releaseFlit f).wf = true →
    ∃ t, exec (.releaseFlit f) s = .next t ∧ t.Due (.releaseFlitAck f) ∧ t.tiles = s.tiles ∧ SameMem s t ∧
      (∀ e, e ∈ (t.vault f.vault).filter ↔
        e ∈ (s.vault f.vault).filter ∧ ¬ (e.rank = f.rank ∧ e.plane = f.plane ∧ e.number = f.number)) ∧
      ∀ x ∈ (s.vault f.vault).withheld, (∀ e ∈ x.2, e.rank = f.rank ∧ e.plane = f.plane ∧ e.number = f.number) →
        t.Due (.vaultReply x.1)) ∧
  (∀ (f : Flit) (s : State), (Instr.releaseFlitAck f).wf = true → ∃ t, exec (.releaseFlitAck f) s = .next t ∧ SameMem s t ∧
    t.agenda = s.agenda ∧ { t.plane f.rank f.plane with releasing := (s.plane f.rank f.plane).releasing } = s.plane f.rank f.plane ∧
    (t.plane f.rank f.plane).releasing = flitAcked (s.plane f.rank f.plane).releasing f) ∧
  (∀ (h : HostAtom) (s : State), (Instr.hostAtomic h).wf = true →
    (∀ fc u, placeDie s h.pkg ((s.pkg h.pkg).homeDie h.part) h.part (hostRank h.pkg) true true h.va = .error (fc, u) →
      exec (.hostAtomic h) s = .next u) ∧
    (∀ (p : Place) (u : State) (home a : Nat),
      placeDie s h.pkg ((s.pkg h.pkg).homeDie h.part) h.part (hostRank h.pkg) true true h.va = .ok (p, u) → p.host = false →
      home = u.holdingVault p.pkg p.dpa → a = u.dpaAddr p.pkg p.dpa → (u.vault home).fenced = false → (u.partOf home).isSome = true →
      ((u.pkg p.pkg).isMoving (dpn64 p.dpa) = true → ∃ t, exec (.hostAtomic h) s = .next t ∧ t.Due (.hostAtomic h) ∧ SameMem s t) ∧
      ((u.pkg p.pkg).isMoving (dpn64 p.dpa) = false → Readable u p.pkg p.dpa home h.w →
        ∃ t, exec (.hostAtomic h) s = .next t ∧ SameMemBut s t a h.w ∧
          (s.Safe → leNat (memRead t.mem a h.w) =
            (atomOp h.op h.w (leNat (memRead s.mem a h.w)) h.a h.b).getD (leNat (memRead s.mem a h.w))))))

/-- R127, R128, R129, R130, R131, R242, R285, R107, R108, R321: a query at its home vault is checked, waits for one of the 32
places, and its search goes from step to step through hop and distance requests, which other vaults answer, ends with its result
message, and keeps the order of (distance, id); a request to host memory becomes a PCIe request, whose completion reads or writes
host memory a granule at a time and answers with the host's bytes, and whose failure answers with HOSTERR. -/
def Obligations.SearchAndHostSteps : Prop :=
  (∀ (q : Req) (s : State) (home : Nat), (Instr.vaultQuery q).wf = true → pullsAt s q = none → Served s q home →
    (blockOk q.data = false → ∃ t, exec (.vaultQuery q) s = .next t ∧ Answered t q home 7 0x10 [] 0 ∧ SameMem s t) ∧
    (blockOk q.data = true → 32 ≤ (s.vault home).waiting.length → 32 ≤ (s.vault home).running.length →
      ∃ t, exec (.vaultQuery q) s = .next t ∧ t.Due (.rnrRetry q) ∧ t.tiles = s.tiles ∧ SameMem s t) ∧
    (blockOk q.data = true → 32 ≤ (s.vault home).running.length → (s.vault home).waiting.length < 32 →
      ∃ t, exec (.vaultQuery q) s = .next t ∧ t.tiles = s.tiles ∧ SameMem s t ∧
        (t.vault home).waiting = (s.vault home).waiting ++ [{ qid := q.id, req := q }] ∧
        (t.vault home).running = (s.vault home).running) ∧
    (blockOk q.data = true → (s.vault home).running.length < 32 → exec (.vaultQuery q) s =
      .next (beginRuns 33 (s.modVault home (fun v => { v with waiting := v.waiting ++ [{ qid := q.id, req := q }] })) home))) ∧
  (∀ (q : Req) (s : State) (home : Nat) (run : QRun), (Instr.vaultQuery q).wf = true → pullsAt s q = some (home, run) →
    exec (.vaultQuery q) s = .next (beginRuns 33 (pullVector s home run) home)) ∧
  (∀ (s : State) (home n a : Nat) (run : QRun), partnerOf s run.req.rank run.req.plane = none → n = run.dim * tyW run.fmt →
    a = (vectorAt (s.plane run.req.rank run.req.plane).regs run.req n).1 →
    ((vectorAt (s.plane run.req.rank run.req.plane).regs run.req n).2 = false →
      ∃ u, pullVector s home run = u ∧ Answered u run.req home 7 0x10 [] 0 ∧ SameMem s u ∧ (u.vault home).run run.qid = none) ∧
    ((vectorAt (s.plane run.req.rank run.req.plane).regs run.req n).2 = true →
      (engineRead s run.req.rank run.req.plane pathN 4 a n = .error .wait →
        (pullVector s home run).Due (.vaultQuery run.req) ∧ (pullVector s home run).vaults = s.vaults ∧
          SameMem s (pullVector s home run)) ∧
      (∀ fn, engineRead s run.req.rank run.req.plane pathN 4 a n = .error (.faulted fn) →
        Answered (pullVector s home run) run.req home 7 0x13 [] 0 ∧ SameMem s (pullVector s home run)) ∧
      (∀ b, engineRead s run.req.rank run.req.plane pathN 4 a n = .ok b → ∃ u, SameMem s u ∧
        pullVector s home run = searchOn u home { run with vec := b, pulling := false }))) ∧
  (∀ (q : QStep) (s : State) (run : QRun) (sh : Shard), (Instr.hopRequest q).wf = true → (s.vault q.home).run q.qid = some run →
    run.shards.find? (fun e => decide (e.hop = some q.node)) = some sh →
    (q.vault ≠ q.home →
      (nodeMoves s q.home run sh q.node = true → ∃ t, exec (.hopRequest q) s = .next t ∧ t.Due (.hopRequest q) ∧
        t.tiles = s.tiles ∧ SameMem s t) ∧
      (∀ u ids, nodeMoves s q.home run sh q.node = false → hopNode s q.home run sh q.node = (u, .ok ids) →
        exec (.hopRequest q) s =
          .next (emitNet u q.vault q.home (4 * ids.length) (.hopRequest { q with vault := q.home, src := q.vault, ids := ids }))) ∧
      (∀ u fc, nodeMoves s q.home run sh q.node = false → hopNode s q.home run sh q.node = (u, .error fc) →
        exec (.hopRequest q) s =
          .next (emitNet u q.vault q.home 4 (.hopRequest { q with vault := q.home, src := q.vault, ids := [2 ^ 32 + fc] })))) ∧
    (q.vault = q.home →
      (∀ v sh2, (∀ n ∈ q.ids, n < 2 ^ 32) → openIds s q.home run sh q.ids = (v, sh2) →
        exec (.hopRequest q) s = .next (resumeShard v q.home run sh2)) ∧
      (∀ fc, q.ids = [2 ^ 32 + fc] → exec (.hopRequest q) s =
        .next (resumeShard s q.home run { sh with done := true, qstat := 3, fcode := fc, hop := none })))) ∧
  (∀ (q : QStep) (s : State) (run : QRun) (sh : Shard), (Instr.distanceRequest q).wf = true →
    (s.vault q.home).run q.qid = some run →
    run.shards.find? (fun e => decide (e.idx = q.node) && q.ids.all (fun v => e.asked.contains v)) = some sh →
    (q.vault ≠ q.home →
      (q.ids.any (fun v => nodeMoves s q.home run sh v) = true → ∃ t, exec (.distanceRequest q) s = .next t ∧
        t.Due (.distanceRequest q) ∧ t.tiles = s.tiles ∧ SameMem s t) ∧
      (∀ u l, q.ids.any (fun v => nodeMoves s q.home run sh v) = false → distNodes q.home run sh q.ids s = (u, l) →
        exec (.distanceRequest q) s = .next (emitNet (putShard u q.home run { sh with dists := sh.dists ++ l }) q.vault q.home
          (4 * q.ids.length) (.distanceRequest { q with vault := q.home, src := q.vault })))) ∧
    (q.vault = q.home →
      ((∀ v ∈ sh.asked, v ∈ q.ids) → exec (.distanceRequest q) s = .next (resumeShard s q.home run { sh with asked := [] })) ∧
      ((∃ v ∈ sh.asked, v ∉ q.ids) → ∃ l, exec (.distanceRequest q) s = .next (putShard s q.home run { sh with asked := l }) ∧
        ∀ v, v ∈ l ↔ v ∈ sh.asked ∧ v ∉ q.ids))) ∧
  (∀ (home qid : Nat) (s : State) (run : QRun), (Instr.querySearchEnd home qid).wf = true → (s.vault home).run qid = some run →
    (run.sent = true → exec (.querySearchEnd home qid) s = .next s) ∧
    (run.sent = false → ∃ t, exec (.querySearchEnd home qid) s = .next t ∧ t.tiles = s.tiles ∧ SameMem s t ∧
      t.Due (.messageArrival (resultMsg home { run with payload := resultBytes run, sent := true })))) ∧
  (∀ (l : List (Nat × Nat)) (a : Nat × Nat), leastPair l = some a → a ∈ l ∧ ∀ b ∈ l, pairLt b a = false) ∧
  (∀ (n : Nat) (vs l : List Nat), (freshIds n vs l).Nodup ∧ ∀ v ∈ freshIds n vs l, v ∈ l ∧ v < n ∧ v ∉ vs) ∧
  (∀ (sh : Shard) (ef v d : Nat), 1 ≤ ef → sh.beam.length ≤ ef →
    (sh.join ef v d).beam.length ≤ ef ∧ (sh.join ef v d).visited = v :: sh.visited) ∧
  (∀ run : QRun, (merged run).length ≤ qK run.req.data ∧
    (merged run).Pairwise (fun a b => pairLt (b.1, b.2.1) (a.1, a.2.1) = false)) ∧
  (∀ (q : Req) (s : State), (Instr.hostWindowRequest q).wf = true →
    (∀ fc, hostRefuses q q.sysatom = some fc → ∃ t, exec (.hostWindowRequest q) s = .next t ∧ Answered t q q.vault 7 fc [] 0 ∧
      t.tiles = s.tiles ∧ SameMem s t) ∧
    (hostRefuses q q.sysatom = none → ∃ t, exec (.hostWindowRequest q) s = .next t ∧ t.tiles = s.tiles ∧ SameMem s t ∧
      (t.Due (.pcieCompletion q) ∨ t.Due (.hostCompletionTimeout q)))) ∧
  (∀ (q : Req) (s : State), (Instr.pcieCompletion q).wf = true →
    (∀ n b, q.op = .get → q.base ≤ q.done → n = min (16 - hostOff q q.done % 16) (q.upto - q.done) →
      b = memRead s.mem (hostByte q q.done) n → ∃ t, exec (.pcieCompletion q) s = .next t ∧ t.tiles = s.tiles ∧ SameMem s t ∧
        (q.done + n < q.upto → t.Due (.pcieCompletion { q with done := q.done + n, data := q.data ++ b })) ∧
        (q.upto ≤ q.done + n → Answered t { q with data := [] } q.vault 0 0 (q.data ++ b) (q.done + n))) ∧
    (∀ n, q.op = .put → q.base ≤ q.done → q.upto ≤ q.data.length → n = min (16 - hostOff q q.done % 16) (q.upto - q.done) →
      ∃ t, exec (.pcieCompletion q) s = .next t ∧ t.tiles = s.tiles ∧ SameMemBut s t (hostByte q q.done) n ∧
        (s.Safe → ∀ k < n, some (memGet t.mem (hostByte q (q.done + k))) = q.data[q.done + k]?) ∧
        (q.done + n < q.upto → t.Due (.pcieCompletion { q with done := q.done + n })) ∧
        (q.upto ≤ q.done + n → Answered t q q.vault 0 0 [] (q.done + n))) ∧
    (∀ op w n, q.op = .atom op w → op < 10 → q.base = 0 → n = (if w then 16 else 8) → ∃ t, exec (.pcieCompletion q) s = .next t ∧
      t.tiles = s.tiles ∧ SameMemBut s t (hostByte q 0) n ∧ Answered t q q.vault 0 0 (memRead s.mem (hostByte q 0) n) n ∧
      (s.Safe → leNat (memRead t.mem (hostByte q 0) n) =
        (atomOp op n (leNat (memRead s.mem (hostByte q 0) n)) q.a q.b).getD 0))) ∧
  (∀ (q : Req) (s : State), (Instr.hostCompletionTimeout q).wf = true →
    ∃ t n, exec (.hostCompletionTimeout q) s = .next t ∧ t.tiles = s.tiles ∧ Answered t q q.vault 7 0x06 [] n ∧
      (q.op = .get → n = 0 ∧ SameMem s t))

/-- R36, R37, R38, R40, R42, R44, R124, R250: the steps of barriers and of speculation past them. A signal leaves when nothing
holds it back, and reaches its group's tree; a tree that every member has signalled completes its phase, and the speculations
that await it begin their commits; a conflict rolls a speculation back to its checkpoint; a commit drains the escrow to the
tile store line by line, in order of first write, and with no line left the speculation is over. -/
def Obligations.BarrierSteps : Prop :=
  (∀ (s : State) (r p : Nat) (h : Held) (k : Task) (l : Launch), (Instr.arriveSignalRelease r p).wf = true →
    (s.plane r p).held = [h] → k = (s.plane r p).task → isOdd r k = false → (∀ u ∈ s.suspended, u.rank ≠ r) → h.group < 4 →
    s.launchOf k.launch = some l → s.groupOut k.launch h.group = 0 →
    (heldBack s (s.tile r) p k [] 1 h = true → ∃ t, exec (.arriveSignalRelease r p) s = .next t ∧
      t.Due (.arriveSignalRelease r p) ∧ t.launches = s.launches ∧ (t.plane r p).held = [h] ∧ SameMem s t) ∧
    (heldBack s (s.tile r) p k [] 1 h = false → ∃ t m, exec (.arriveSignalRelease r p) s = .next t ∧ (t.plane r p).held = [] ∧
      SameMem s t ∧ t.launchOf k.launch = some m ∧ ((m.trees[h.group]?).getD {}).arrived =
        ((l.trees[h.group]?).getD {}).arrived ++ [k.index] ∧
      (l.ntask ≤ ((l.trees[h.group]?).getD {}).arrived.length + 1 → t.Due (.barrierPhaseComplete k.launch h.group)))) ∧
  (∀ (s : State) (t : Tile) (p : Nat) (k : Task) (h : Held), heldBack s t p k [] 1 h = false →
    arriveTokens t p h.group = 0 ∧ ∀ id ∈ h.waits, stillHolds t p id = false) ∧
  (∀ (s : State) (num g : Nat) (l : Launch) (tr : Tree), (Instr.barrierPhaseComplete num g).wf = true →
    s.launchOf num = some l → tr = (l.trees[g]?).getD {} →
    (tr.out ≠ 0 ∨ tr.arrived.length < l.ntask → exec (.barrierPhaseComplete num g) s = .next s) ∧
    (tr.out = 0 → l.ntask ≤ tr.arrived.length → ∃ t m, exec (.barrierPhaseComplete num g) s = .next t ∧ SameMem s t ∧
      t.launchOf num = some m ∧ ((m.trees[g]?).getD {}).phase = !tr.phase ∧ ((m.trees[g]?).getD {}).arrived = [] ∧
      ((m.trees[g]?).getD {}).done = tr.done + 1 ∧ ∀ n r p sp, (n, r) ∈ l.members → planeOfTask (s.tile r) num n = some p →
        (s.plane r p).spec = some sp → sp.group = g →
        sp.awaits ≤ tr.done + 1 → sp.committing = false → t.Due (.escrowDrainEnd r p))) ∧
  (∀ (s : State) (r p n : Nat), (Instr.conflictNotice r p n).wf = true →
    ((s.plane r p).spec = none → exec (.conflictNotice r p n) s = .next s) ∧
    (∀ sp, (s.plane r p).spec = some sp → sp.number ≠ n → exec (.conflictNotice r p n) s = .next s) ∧
    (∀ sp, (s.plane r p).spec = some sp → sp.number = n → sp.committing = false → (s.plane r p).task.dual = false →
      (s.plane r p).arrWait = [] → ∃ t, exec (.conflictNotice r p n) s = .next t ∧ SameMem s t ∧ (t.plane r p).spec = none ∧
        (t.plane r p).rollbacks = (s.plane r p).rollbacks + 1 ∧ (t.plane r p).regs = restored (s.plane r p) sp ∧
        (∀ sd ∈ (t.plane r p).sends, sd ∈ (s.plane r p).sends ∧ sd.spec = false))) ∧
  (∀ (pl : Plane) (sp : Spec), (restored pl sp).bank = sp.ckpt.bank ∧ (restored pl sp).v = sp.ckpt.v ∧
    (restored pl sp).q = sp.ckpt.q ∧ (restored pl sp).t = sp.ckpt.t ∧ (restored pl sp).ph = sp.ckpt.ph ∧
    (restored pl sp).pc = sp.pc ∧ (restored pl sp).acc = pl.regs.acc ∧ (restored pl sp).hbcnt = pl.regs.hbcnt ∧
    (sp.doneFlags = [] → (restored pl sp).flag = sp.ckpt.flag)) ∧
  (∀ (s : State) (r p : Nat), (Instr.escrowDrainEnd r p).wf = true →
    ((s.plane r p).drains = false → exec (.escrowDrainEnd r p) s = .next s) ∧
    (∀ sp, (s.plane r p).spec = some sp → sp.committing = true → sp.escrow = [] →
      exec (.escrowDrainEnd r p) s = .next (commitAt s r p sp)) ∧
    (∀ sp l e, (s.plane r p).spec = some sp → sp.committing = true → sp.escrow = l :: e → ∃ t,
      exec (.escrowDrainEnd r p) s = .next t ∧ t.mem = (drainEscrow s r [l]).mem ∧ t.Due (.escrowDrainEnd r p) ∧
      (t.plane r p).spec = some { sp with escrow := e } ∧ (t.plane r p).regs = (s.plane r p).regs)) ∧
  (∀ (s : State) (r : Nat) (ls : List (Nat × NMap Byte)), (ls.map (·.1)).Nodup →
    (∀ l ∈ ls, (l.2.map (·.1)).Nodup ∧ ∀ b ∈ l.2, b.1 < 64) →
    (s.Safe → ∀ l ∈ ls, ∀ b ∈ l.2, memGet (drainEscrow s r ls).mem (tsAddr r (64 * l.1 + b.1)) = b.2) ∧
    (∀ a, (∀ l ∈ ls, ∀ b ∈ l.2, a ≠ tsAddr r (64 * l.1 + b.1)) → memGet (drainEscrow s r ls).mem a = memGet s.mem a)) ∧
  (∀ (pl : Plane) (sp : Spec), (committed pl sp).spec = none ∧ (committed pl sp).rollbacks = 0 ∧
    (∀ sd ∈ (committed pl sp).sends, sd.spec = false) ∧ (∀ m ∈ (committed pl sp).mx, m.spec = false) ∧
    ({ (committed pl sp).regs with specst := pl.regs.specst, acc := pl.regs.acc } : Regs) = pl.regs ∧
    ∀ k < 4, (committed pl sp).regs.acc[k]? = some (ngetD sp.shadow k ((pl.regs.acc[k]?).getD {})))

/-- R35, R46, R84, R289, R292, R298, R300, R313, R314, R339: the asynchronous steps of a tile. A difference between the tiles of a
DUAL pair, or an operation that stands alone for 4,096 clk, makes DUALMISMATCH due, and it is taken at a boundary; a missed
heartbeat, which goes before it, fences the tile and enters the monitor; the monitor's watchdog is a monitor fault; a pre-emption
is marked and then taken, one of a plane that is being loaded or waits for a resume token after that (the model's choice, log entry
103); a cancel ends the task; a fence notice tells the tile's engines, or at a tile still fenced is the coordinator's work. -/
def Obligations.InterruptSteps : Prop :=
  (∀ (s : State) (r q p kind : Nat), (Instr.dualTimeout r q).wf = true → (s.tile r).dualDue = some (p, kind) → p < 2 →
    (s.tile r).fenced = false → (s.tile r).monitor = false → NoSpecAt s r → (s.plane r p).state = 3 →
    (∀ n, (s.tile r).running = some n → (s.plane r n).regs.hbcnt < (s.plane r n).regs.hbiv) →
      ∃ t, exec (.dualTimeout r q) s = .next t ∧ MonitorEntered t r p 0x0D (BitVec.ofNat 64 kind) (s.plane r p).resumePoint ∧
      (t.tile r).dualDue = none ∧ (t.plane r p).regs = (s.plane r p).regs ∧ SameMem s t) ∧
  (∀ (s : State) (r p : Nat), (Instr.dualTimeout r p).wf = true → (s.tile r).dualDue = none →
    exec (.dualTimeout r p) s = .next (dualTimeouts (tidyDual (pumpDual s r p) r p) r p)) ∧
  (∀ (s : State) (r p : Nat),
    (∀ e l, partnerOf s r p = none → (s.plane r p).task.dual = true → partnerOut s r p = false → dualWaiting s r p = e :: l →
      e.2.1 + clkNs s (pkgOf r) 4096 < s.podTime → ((dualTimeouts s r p).tile r).dualDue.isSome = true) ∧
    (∀ r2 p2 e, partnerOf s r p = some (r2, p2) → e ∈ dualAlone s r p r2 p2 → e.1 + clkNs s (pkgOf r) 4096 < s.podTime →
      ((dualTimeouts s r p).tile r).dualDue.isSome = true ∧ ((dualTimeouts s r p).tile r2).dualDue.isSome = true)) ∧
  (∀ (s u : State) (r p r2 p2 kind : Nat), u = dualMismatch s r p r2 p2 kind → (u.tile r).dualDue.isSome = true ∧
    (u.tile r2).dualDue.isSome = true ∧ ∀ x, x ≠ r → x ≠ r2 → u.tile x = s.tile x) ∧
  (∀ (s : State) (r p : Nat), (Instr.hbmiss r).wf = true → (s.tile r).running = some p → p < 2 →
    ((s.plane r p).regs.hbcnt < (s.plane r p).regs.hbiv → exec (.hbmiss r) s = .next s) ∧
    ((s.plane r p).regs.hbiv ≤ (s.plane r p).regs.hbcnt → (s.tile r).monitor = false → (s.tile r).fenced = false → NoSpecAt s r →
      ∃ u, hbmissAt s r p = u ∧ (u.tile r).fenced = true ∧ u.Due (.fenceNotice r r) ∧
        MonitorEntered u r p 0x0E (BitVec.ofNat 64 (s.plane r p).regs.hbcnt) (s.plane r p).resumePoint ∧
        (partnerOf s r p = none → exec (.hbmiss r) s = .next u) ∧
        ∀ x, partnerOf s r p = some x → exec (.hbmiss r) s = .next (hbmissPair u x.1 x.2 (s.plane r p).regs.hbcnt))) ∧
  (∀ (s : State) (r : Nat), (Instr.monitorWatchdogExpiry r).wf = true →
    ((s.tile r).monitor = true → (s.tile r).mwatch < 2 ^ 22 → exec (.monitorWatchdogExpiry r) s = .next s) ∧
    ((s.tile r).monitor = true → 2 ^ 22 ≤ (s.tile r).mwatch → ∃ c t, exec (.monitorWatchdogExpiry r) s = .next t ∧
      t = monitorFaultRest (monitorFault s r c) r ∧ t.Due (.fenceNotice r r)) ∧
    ((s.tile r).monitor = false → (s.tile r).mfault = true →
      exec (.monitorWatchdogExpiry r) s = .next (monitorFaultRest s r) ∧ (monitorFaultRest s r).Due (.fenceNotice r r)) ∧
    ((s.tile r).monitor = false → (s.tile r).mfault = false → exec (.monitorWatchdogExpiry r) s = .next s) ∧
    ∀ c, ((monitorFault s r c).tile r).fenced = true ∧ ((monitorFault s r c).tile r).monitor = false ∧
      ((monitorFault s r c).tile r).mfault = true ∧ ((monitorFault s r c).tile r).running = none) ∧
  (∀ (s : State) (r p : Nat), (Instr.preemptInterrupt r p).wf = true →
    (∀ x, partnerOf s r p = some x →
      exec (.preemptInterrupt r p) s = .next (markPreempt (markPreempt s r p) x.1 x.2)) ∧
    ((s.plane r p).state = 0 ∨ 4 < (s.plane r p).state → partnerOf s r p = none →
      exec (.preemptInterrupt r p) s = .next s) ∧
    (1 ≤ (s.plane r p).state → (s.plane r p).state ≤ 4 → partnerOf s r p = none → NoSpecAt s r →
      ∃ t, exec (.preemptInterrupt r p) s = .next t ∧ (t.plane r p).preempt = some (pkgOf r * 4096 + 0x511) ∧
        ({ t.plane r p with preempt := (s.plane r p).preempt } : Plane) = s.plane r p ∧ SameMem s t ∧ t.agenda = s.agenda)) ∧
  (∀ pl : Plane, (pl.state = 1 ∨ pl.resumeKind = true → pl.preemptDue = none) ∧
    (pl.state ≠ 1 → pl.resumeKind = false → pl.preemptDue = pl.preempt)) ∧
  (∀ (s : State) (r b : Nat), (Instr.preempt r).wf = true →
    ((s.tile r).monitor = true ∨ (s.tile r).fenced = true → exec (.preempt r) s = .next s) ∧
    (∀ p < 2, (s.tile r).monitor = false → (s.tile r).fenced = false → (s.plane r p).preemptDue = some b →
      (p = 1 → (s.plane r 0).preemptDue = none) → NoSpecAt s r →
      ∃ t, exec (.preempt r) s = .next t ∧ MonitorEntered t r p 0x10 (BitVec.ofNat 64 b) (s.plane r p).resumePoint ∧
        (t.plane r p).preempt = none ∧ (t.plane r p).halted = true ∧ (t.plane r p).regs = (s.plane r p).regs ∧ SameMem s t)) ∧
  (∀ (s : State) (r p n : Nat), (Instr.cancelInterrupt r p n).wf = true →
    (∀ q, (q = p ∨ (q = 1 - p ∧ runsLaunch (s.plane r p) n = false)) → runsLaunch (s.plane r q) n = true →
      ((s.tile r).monitor = true ∨ (s.plane r q).drains = true → ∃ t, exec (.cancelInterrupt r p n) s = .next t ∧
        (t.plane r q).cancel = true ∧ (t.plane r q).regs = (s.plane r q).regs ∧ SameMem s t) ∧
      ((s.tile r).monitor = false → (s.plane r q).drains = false → exec (.cancelInterrupt r p n) s =
        .next (endPlane s r q { code := 2, pc := (s.plane r q).resumePoint }))) ∧
    (∀ u, runsLaunch (s.plane r p) n = false → runsLaunch (s.plane r (1 - p)) n = false →
      s.suspended.find? (fun u => decide (u.rank = r ∧ u.plane.task.launch = n)) = some u →
      exec (.cancelInterrupt r p n) s = .next (endSusp s u { code := 2 })) ∧
    (runsLaunch (s.plane r p) n = false → runsLaunch (s.plane r (1 - p)) n = false →
      (∀ u ∈ s.suspended, u.rank = r → u.plane.task.launch ≠ n) → exec (.cancelInterrupt r p n) s = .next s)) ∧
  (∀ (pl : Plane) (n : Nat), runsLaunch pl n = true ↔ 1 ≤ pl.state ∧ pl.state ≤ 4 ∧ pl.task.launch = n) ∧
  (∀ (s : State) (f r : Nat), (Instr.fenceNotice f r).wf = true →
    exec (.fenceNotice r r) s = .next (if (s.tile r).fenced = true then coordinate s r else s) ∧
    (f ≠ r → ∃ t u, exec (.fenceNotice f r) s = .next t ∧ t = releaseFenced (pumpTile u r) f ∧
      u.suspended = (peerDownAt (peerDownAt s r 0 f) r 1 f).suspended.map
        (fun v => if v.rank = r then { v with plane := v.plane.peerDown f } else v))) ∧
  (∀ (pl : Plane) (f : Nat), (∀ q ∈ (pl.peerDown f).prq, q.src ≠ f) ∧
    (∀ q ∈ pl.prq, q.src ≠ f → q ∈ (pl.peerDown f).prq) ∧
    ∀ q, pl.prq = [q] → pl.sends = [] → q.src = f → q.flag < 64 → (pl.regs.fl q.flag).bound = some q.id →
      ((pl.peerDown f).regs.fl q.flag).on = true ∧
      ((pl.peerDown f).regs.fl q.flag).status = recvRecord q 0 0 6 0 0 0 15)

/-- R30, R294 (Table 16.3), R296, R298, R299, R301, R310: an EXIT ends its task when its conditions hold and waits until then; a
plane that has drained is free; the entries of a spill queue are admitted again in order; a window's start ages a plane that
was ready throughout the last and did not run; the loader writes program, data image and token, and a fault ends the launch. That
the allocation reads as zero past the data image is the model's choice (log entry 2). -/
def Obligations.TaskSteps : Prop :=
  (∀ (s : State) (r p pc : Nat), (Instr.taskEnd r p).wf = true →
    ((s.plane r p).exiting = none → exec (.taskEnd r p) s = .next s) ∧
    ((s.plane r p).exiting = some pc → (s.plane r p).state ≠ 3 → exec (.taskEnd r p) s = .next s) ∧
    ((s.plane r p).exiting = some pc → (s.plane r p).state = 3 → mayExit (s.tile r) p = false →
      ∃ t, exec (.taskEnd r p) s = .next t ∧ t.Due (.taskEnd r p) ∧ t.tiles = s.tiles ∧ SameMem s t) ∧
    ((s.plane r p).exiting = some pc → (s.plane r p).state = 3 → (s.tile r).monitor = false → mayExit (s.tile r) p = true →
      exec (.taskEnd r p) s = .next (endPlane s r p { code := 0, pc := pc }))) ∧
  (∀ (t : Tile) (p : Nat), mayExit t p = true ↔ (∀ k < 4, (t.pl p).ch k = []) ∧ (t.pl p).mx = [] ∧ (t.pl p).deliveries = [] ∧
    (t.pl p).spec = none ∧ (∀ sd ∈ (t.pl p).sends, ∀ c ∈ sd.copies, c.settled = true) ∧
    ∀ q ∈ t.reqs, q.req.plane = p → q.owner = .flag → q.req.op = .get) ∧
  (∀ (info pos pc cause code e discard cycle : Nat) (b : List Byte), b = statusRecord info pos pc cause code e discard cycle →
    b.length = 32 ∧ leNat (b.take 8) = cycle % 2 ^ 64 ∧ leNat ((b.drop 8).take 4) = discard % 2 ^ 32 ∧
    leNat ((b.drop 12).take 4) = code % 2 ^ 32 ∧ leNat ((b.drop 16).take 1) = e % 256 ∧ leNat ((b.drop 17).take 1) = cause % 256 ∧
    leNat ((b.drop 18).take 2) = pc % 65536 ∧ leNat ((b.drop 20).take 4) = pos % 2 ^ 32 ∧ leNat ((b.drop 24).take 8) = info % 2 ^ 64) ∧
  (∀ (s : State) (r p : Nat), (Instr.planeFree r p).wf = true →
    ((s.plane r p).state ≠ 6 → exec (.planeFree r p) s = .next s) ∧
    ((s.plane r p).state = 6 → mayFree (s.tile r) p = false → ∃ t, exec (.planeFree r p) s = .next t ∧ t.Due (.planeFree r p) ∧
      t.tiles = s.tiles ∧ SameMem s t) ∧
    ((s.plane r p).state = 6 → mayFree (s.tile r) p = true → ∃ t, exec (.planeFree r p) s = .next t ∧ (t.plane r p).state = 0 ∧
      (t.plane r p).specCount = (s.plane r p).specCount ∧ t.Due (.placementDecision (pkgOf r) (epOf r / 256 % 4)) ∧ SameMem s t)) ∧
  (∀ (s : State) (r p : Nat), (Instr.spillHeadReadmit r p).wf = true →
    ((s.plane r p).diverted = false ∨ (s.plane r p).readmit = false → exec (.spillHeadReadmit r p) s = .next s) ∧
    ((s.plane r p).diverted = true → (s.plane r p).readmit = true →
      ((s.plane r p).spillq = [] → ∃ t, exec (.spillHeadReadmit r p) s = .next t ∧ (t.plane r p).diverted = false ∧
        (t.plane r p).readmit = false ∧ (t.plane r p).regs = (s.plane r p).regs ∧ SameMem s t ∧ t.agenda = s.agenda) ∧
      (∀ e l, (s.plane r p).spillq = e :: l →
        (∀ fc u, readmitHead s r p e = .error (fc, u) → exec (.spillHeadReadmit r p) s = .next u) ∧
        (∀ u, readmitHead s r p e = .ok (false, u) → exec (.spillHeadReadmit r p) s = .next u) ∧
        (∀ u, readmitHead s r p e = .ok (true, u) →
          exec (.spillHeadReadmit r p) s = .next (readmitAll (l.length + 1) u r p).1)))) ∧
  (∀ (s : State) (r p : Nat) (e : SpillE) (x : Nat × State),
    queueRead s r (s.plane r p) (s.plane r p).queueHead (spillCost e) = .error x → readmitHead s r p e = .error x) ∧
  (∀ (s u v : State) (r p : Nat) (e : SpillE) (b : List Byte),
    queueRead s r (s.plane r p) (s.plane r p).queueHead (spillCost e) = .ok (b, u) →
    v = u.modPlane r p (fun pl => pl.popSpill e) →
    (∀ w, admitEntry v r p (e.withBytes b) = some w → readmitHead s r p e = .ok (true, w)) ∧
    (admitEntry v r p (e.withBytes b) = none → readmitHead s r p e = .ok (false, u))) ∧
  (∀ (s : State) (r p : Nat), (Instr.windowStart r).wf = true → p < 2 → ∃ t, exec (.windowStart r) s = .next t ∧
    (t.tile r).wrem = 25600 ∧ (t.plane r p).pass = (if (s.plane r p).readyAll = true ∧ (s.plane r p).ran = false
      then min ((s.plane r p).pass + 1) 8 else (s.plane r p).pass) ∧ (t.plane r p).readyAll = (s.plane r p).isReady ∧
    (t.plane r p).regs = (s.plane r p).regs ∧ (t.tile r).running = (s.tile r).running ∧ SameMem s t ∧ t.agenda = s.agenda) ∧
  (∀ (s : State) (r p : Nat) (l : Launch), (Instr.loadComplete r p).wf = true →
    ((s.plane r p).state ≠ 1 → exec (.loadComplete r p) s = .next s) ∧
    ((s.plane r p).state = 1 → s.launchOf (s.plane r p).task.launch = some l →
      (∀ fc u, readImages s l (s.plane r p).resumeKind = .error (fc, u) →
        exec (.loadComplete r p) s = .next (cancelLaunch u l.num true)) ∧
      (∀ b d u, readImages s l (s.plane r p).resumeKind = .ok (b, d, u) → (s.tile r).running ≠ none →
        (s.plane r p).regs.tsbase + (s.plane r p).regs.tslen < 2 ^ 32 → ∃ t, exec (.loadComplete r p) s = .next t ∧
          (t.plane r p).state = 2 ∧ (t.plane r p).token = true ∧ (t.plane r p).regs = (u.plane r p).regs ∧
          (s.Safe → memRead t.mem (codeAddr r p 0) b.length = b ∧ memRead t.mem (tsAddr r (s.plane r p).regs.tsbase) d.length = d) ∧
          (∀ a, d.length ≤ a → a < (s.plane r p).regs.tslen → memGet t.mem (tsAddr r ((s.plane r p).regs.tsbase + a)) = 0) ∧
          t.agenda = s.agenda)))

/-- R29, R304 to R309, R311, R338: the scheduler's steps. A die's decision serves the enabled user queue of the highest rank, the next
after the last served among equals, or draws among the system queues, whose generator and ages move on, while a lower die that may
serve the same launch goes first; the task's planes load, a gang's all at once, and a field test of a tile runs. A graph's walker
evaluates the lowest ready node: a launch node is enqueued, an exit node ends the walk, an if or switch node signals the successor
that its word names and a while node its body or its end, once no write of the graph's tasks is out; a word that cannot be read
ends the graph. -/
def Obligations.SchedulerSteps : Prop :=
  (∀ (s : State) (pkg die : Nat), (Instr.placementDecision pkg die).wf = true →
    exec (.placementDecision pkg die) s = .next (placeAt s pkg die) ∧
    (∀ l slots u, Config.resumes s.tick = false → decideQueue s pkg die = (some (l, slots), u) →
      lowerOffers s l die = false → ∃ t, exec (.placementDecision pkg die) s = .next t ∧
        t = emitOnce (takeSlots u l slots) (.placementDecision pkg die) ∧
        t.Due (.placementDecision pkg die)) ∧
    (∀ l slots u, Config.resumes s.tick = false → decideQueue s pkg die = (some (l, slots), u) → lowerOffers s l die = true →
      exec (.placementDecision pkg die) s = .next (emitOnce s (.placementDecision pkg die))) ∧
    (∀ u, Config.resumes s.tick = false → decideQueue s pkg die = (none, u) → outAt u pkg die = [] →
      exec (.placementDecision pkg die) s = .next u)) ∧
  (∀ (s : State) (l : Launch) (die : Nat), lowerOffers s l die = true → l.test = none ∧
    ∃ d < die, s.Due (.placementDecision l.pkg d) ∧ ∃ x, served s l.pkg d l.qid = some x ∧ x.1.num = l.num) ∧
  (∀ (s u : State) (l : Launch) (slots : List (Nat × Nat)), l.gang = false → l.test = none → s.launchOf l.num = some l →
    u = takeSlots s l slots → ∀ x ∈ slots, x.2 < 2 → (u.plane x.1 x.2).state = 1 ∧
      (u.plane x.1 x.2).task.job = l.job ∧ (u.plane x.1 x.2).task.launch = l.num ∧ (u.plane x.1 x.2).task.index = l.next ∧
      (u.plane x.1 x.2).regs.myrank = slotsRank slots ∧ u.Due (.loadComplete x.1 x.2)) ∧
  (∀ (s u : State) (l m : Launch) (slots : List (Nat × Nat)), l.gang = true → l.test = none → s.launchOf l.num = some l →
    m = { l with heldPlanes := l.heldPlanes ++ slots } → u = s.modLaunch l.num (fun l => { l with heldPlanes := l.heldPlanes ++ slots }) →
    u.launchOf l.num = some m ∧ (gangReady u m = false → takeSlots s l slots = u) ∧
      (gangReady u m = true → takeSlots s l slots = placeGang u l.num)) ∧
  (∀ (s : State) (l : Launch) (slots : List (Nat × Nat)) (e : Nat), l.test = some e → (takeSlots s l slots).tiles = s.tiles ∧
    (takeSlots s l slots).Due (.fieldTest l.pkg e (Config.testPasses s.tick e))) ∧
  (∀ (l : List Nat) (last q : Nat), l.Pairwise (· < ·) → afterLast l last = some q → q ∈ l ∧
    ((last < q ∧ ∀ x ∈ l, last < x → q ≤ x) ∨ ((∀ x ∈ l, x ≤ last) ∧ ∀ x ∈ l, q ≤ x))) ∧
  (∀ (l : List Nat) (last : Nat), l ≠ [] → (afterLast l last).isSome = true) ∧
  (∀ (s u : State) (pkg die : Nat) (l : Launch) (slots : List (Nat × Nat)), decideQueue s pkg die = (some (l, slots), u) →
    (∀ q, 60 ≤ q → q < 64 → served s pkg die q = none) → l.qid < 60 ∧ u.mem = s.mem ∧ u.tiles = s.tiles ∧
      ngetD (u.pkg pkg).lastq die 59 = l.qid ∧
      (∀ q < 60, served s pkg die q ≠ none → (s.pkg pkg).queueRank die q ≤ (s.pkg pkg).queueRank die l.qid) ∧
      ∀ q < 60, served s pkg die q ≠ none → (s.pkg pkg).queueRank die q = (s.pkg pkg).queueRank die l.qid →
        (ngetD (s.pkg pkg).lastq die 59 < l.qid → ngetD (s.pkg pkg).lastq die 59 < q → l.qid ≤ q) ∧
        (l.qid ≤ ngetD (s.pkg pkg).lastq die 59 → q ≤ ngetD (s.pkg pkg).lastq die 59 ∧ l.qid ≤ q)) ∧
  (∀ (s u : State) (pkg die : Nat) (e : List Nat) (w : Option Nat) (p : Package),
    e = [60, 61, 62, 63].filter (fun q =>
      decide (bitsHL ((s.pkg pkg).reg (qcfgAddr die q)) 23 16 ≠ 0) && (served s pkg die q).isSome) → e ≠ [] →
    (∀ q < 60, served s pkg die q ≠ none → (s.pkg pkg).queueRank die q ≤ (s.pkg pkg).queueRank die 60) →
    draw (s.pkg pkg) die e = (w, p) → u = s.modPkg pkg (fun _ => p) →
    decideQueue s pkg die = (w.bind (served u pkg die), u)) ∧
  (∀ (p k : Package) (die w x : Nat) (e : List Nat), e.Nodup → (∀ q ∈ e, q < 64) → draw p die e = (some w, k) →
    x = lseedNext (p.reg (0x10000 + 0x1000 * die + 0x208)) → k.reg (0x10000 + 0x1000 * die + 0x208) = x ∧ w ∈ e ∧
    (∀ q, e.find? (fun q => decide (lageOf (p.reg (qcfgAddr die q)) = 64)) = some q → w = q) ∧
    ((∀ q ∈ e, lageOf (p.reg (qcfgAddr die q)) ≠ 64) →
      byTicket (e.map (fun q => (q, bitsHL (p.reg (qcfgAddr die q)) 23 16)))
        (x * (e.map (fun q => bitsHL (p.reg (qcfgAddr die q)) 23 16)).sum / 2 ^ 32) = some w) ∧
    ∀ q ∈ e, k.reg (qcfgAddr die q) = putBits (p.reg (qcfgAddr die q)) 15 8
      (if q = w then 0 else min (lageOf (p.reg (qcfgAddr die q)) + 1) 64)) ∧
  (∀ x : Nat, lseedNext x = if x % 2 = 1 then (x / 2) ^^^ 0x80200003 else x / 2) ∧
  (∀ (l : List (Nat × Nat)) (v w : Nat), byTicket l v = some w → ∃ b t c, l = b ++ (w, t) :: c ∧
    (b.map (·.2)).sum ≤ v ∧ v < (b.map (·.2)).sum + t) ∧
  (∀ (s : State) (pkg num : Nat), (Instr.graphNodeEval pkg num).wf = true →
    (s.graphOf num = none → exec (.graphNodeEval pkg num) s = .next s) ∧
    (∀ g, s.graphOf num = some g → g.fin = true ∨ g.stopped = true ∨ g.pkg ≠ pkg ∨ g.next = none →
      exec (.graphNodeEval pkg num) s = .next s) ∧
    (∀ g k n, s.graphOf num = some g → g.fin = false → g.stopped = false → g.pkg = pkg → g.next = some k → g.nodes[k]? = some n →
      exec (.graphNodeEval pkg num) s = .next (advance (graphGo (evalNode s g k n) num)))) ∧
  (∀ (g : Graph) (k : Nat), g.next = some k → ∃ n, g.nodes[k]? = some n ∧ n.st = 1 ∧ (n.kind = 0 → g.running < 64) ∧
    ∀ j < k, ∀ m, g.nodes[j]? = some m → m.st = 1 → m.kind = 0 ∧ 64 ≤ g.running) ∧
  (∀ (s : State) (g : Graph) (k : Nat) (n : Node), s.graphOf g.num = some g → g.nodes[k]? = some n → n.kind = 4 →
    ∃ h, (evalNode s g k n).graphOf g.num = some h ∧ h.exitSeen = true ∧ h.eval = g.eval + 1 ∧ (∀ m ∈ h.nodes, m.st ≠ 0) ∧
      (evalNode s g k n).mem = s.mem) ∧
  (∀ (s : State) (g : Graph) (k : Nat) (n : Node), n.kind = 0 → ∃ m ∈ (evalNode s g k n).launches, m.num = s.nextNum ∧
    m.graph = some (g.num, k) ∧ m.job = g.job ∧ m.pkg = g.pkg) ∧
  (∀ (s v u : State) (g : Graph) (k : Nat) (n : Node) (l : Launch) (b : List Byte), n.kind = 0 →
    v = (freshNum (s.modGraph g.num (fun g => { g with nodes := g.nodes.modify k (fun n => { n with st := 2 }) }))).2 →
    schedRead v g.pkg (s.jobPart g.job g.pkg) n.addr 128 = .ok (b, u) → n.addr % 64 = 0 →
    l = { num := s.nextNum, job := g.job, pkg := g.pkg, image := b, graph := some (g.num, k) } →
    launchOk u l (s.jobPart g.job g.pkg) = true →
    { l with ntask := l.lw * l.lh, left := l.lw * l.lh } ∈ (evalNode s g k n).launches ∧ l.queued = true ∧ l.bad = false ∧
      ∀ d ∈ (u.pkg g.pkg).diesOf (s.jobPart g.job g.pkg), (evalNode s g k n).Due (.placementDecision g.pkg d)) ∧
  (∀ (s : State) (g : Graph) (k : Nat) (n : Node), n.kind = 1 ∨ n.kind = 2 ∨ n.kind = 3 →
    (writesOut s g = true → evalNode s g k n = s) ∧
    (∀ fc u, writesOut s g = false → schedRead s g.pkg (s.jobPart g.job g.pkg) n.addr 8 = .error (fc, u) →
      evalNode s g k n = u.modGraph g.num (fun h => { h with status := 4, fcode := fc, node := k })) ∧
    (∀ b u, writesOut s g = false → schedRead s g.pkg (s.jobPart g.job g.pkg) n.addr 8 = .ok (b, u) →
      (n.kind ≠ 2 → evalNode s g k n = u.modGraph g.num (fun h => h.took k (n.choose (leNat b)))) ∧
      (n.kind = 2 → leNat b = 0 → evalNode s g k n = u.modGraph g.num (fun h => h.took k ((n.succ.drop 1).take 1))) ∧
      (n.kind = 2 → leNat b ≠ 0 → evalNode s g k n = u.modGraph g.num (fun h => h.again k n)))) ∧
  (∀ (g : Graph) (k j : Nat), (g.took k [j]).eval = g.eval + 1 ∧ ∀ (i : Nat) (x y : Node), g.nodes[i]? = some x →
    y = (if i = k then { x with st := 3 } else x) → (g.took k [j]).nodes[i]? = some (if i = j then y.signal else y)) ∧
  (∀ (g : Graph) (k : Nat) (n : Node), (g.again k n).eval = g.eval + 1 ∧ ∀ (i : Nat) (x y : Node), g.nodes[i]? = some x →
    y = (if i = k then x.load x.nback else if n.bodyLo ≤ i ∧ i ≤ n.bodyHi then x.load x.npred else x) →
    (g.again k n).nodes[i]? = some (if n.succ.head? = some i then y.signal else y)) ∧
  (∀ (n : Node) (c : Nat), (n.load c).count = c ∧ ((n.load c).st = 1 ↔ c = 0) ∧ ((n.load c).st = 0 ↔ c ≠ 0) ∧
    (n.load c).succ = n.succ ∧ (n.load c).kind = n.kind) ∧
  (∀ (n : Node) (w : Nat), (n.kind = 1 → w ≠ 0 → n.choose w = n.succ.take 1) ∧
    (n.kind = 1 → n.choose 0 = (n.succ.drop 1).take 1) ∧
    (n.kind = 3 → w < n.succ.length → (n.choose w).head? = n.succ[w]?) ∧
    (n.kind = 3 → n.succ.length ≤ w → n.succ ≠ [] → (n.choose w).head? = n.succ.getLast?)) ∧
  (∀ n : Node, (n.st = 0 → 1 < n.count → n.signal.count + 1 = n.count ∧ n.signal.st = 0) ∧
    (n.st = 0 → n.count = 1 → n.signal.count = 0 ∧ n.signal.st = 1))

/-- R135, R137, R139, R141 to R149, R245, R246: the lane manager's steps. A request is served, and its lanes are tuned to the peer
with a new lease or none is; the grant's record sets the requester's flag, and at its end, or when a donor's queue has stood at
LTHRESH for 50 µs, lanes return; a switch at a boundary brings slotted mode or the table into force, or ends the mode; a
peer's queue drains in order at 8 bytes per lane and ns, in slotted mode in its slots and after the guard; a bad table is
refused with BADSLOT. -/
def Obligations.LaneManagerSteps : Prop :=
  (∀ (s : State) (pkg : Nat), (Instr.leaseServe pkg).wf = true →
    ((s.pkg pkg).nextReq = none → exec (.leaseServe pkg) s = .next s) ∧
    (∀ q k, (s.pkg pkg).nextReq = some q →
      k = { (s.pkg pkg).tidyLeases s.podTime with leaseReqs := (s.pkg pkg).leaseReqs.erase q, lastJob := q.job } →
      (leaseBad s pkg q.val = true → exec (.leaseServe pkg) s = .next (completePair (s.modPkg pkg (fun _ => k)) q.rank q.fn
        q.id q.twin (leaseRecord (leasePeer q.val) 5 0 0 3))) ∧
      (∀ quota h k2 l, leaseBad s pkg q.val = false → quota = ((s.jobAt q.job pkg).map (·.quota)).getD 64 →
        h = k.held q.job s.podTime → leasePasses s pkg ((offsetOf pkg (leasePeer q.val)).getD 0) (leaseLanes q.val) quota h 127
          (k, []) = (k2, l) → l.length ≤ leaseLanes q.val ∧ l.length ≤ quota - h ∧
        (l = [] → exec (.leaseServe pkg) s = .next (completePair (s.modPkg pkg (fun _ => k2)) q.rank q.fn
          q.id q.twin (leaseRecord (leasePeer q.val) 0 0 0 (if quota ≤ h then 2 else 1)))) ∧
        (l ≠ [] → ∃ t x, exec (.leaseServe pkg) s = .next t ∧ x ∈ (t.pkg pkg).leases ∧ x.num = k2.lastLease % 65535 + 1 ∧
          x.job = q.job ∧ x.lanes = l ∧ x.endNs = s.podTime + leaseDur q.val * 1000 ∧ x.fn = q.fn ∧ x.id = q.id ∧ x.granted = l.length ∧
          x.reported = false ∧ t.Due (.leaseRetuneEnd pkg x.num) ∧ t.Due (.leaseExpiry pkg x.num) ∧ t.tiles = s.tiles ∧
          SameMem s t)))) ∧
  (∀ (s : State) (pkg n : Nat), (Instr.leaseRetuneEnd pkg n).wf = true →
    ((∀ x ∈ (s.pkg pkg).leases, x.num = n → x.reported = true) → exec (.leaseRetuneEnd pkg n) s = .next s) ∧
    (∀ x, (s.pkg pkg).leases.find? (fun x => decide (x.num = n) && !x.reported) = some x → x.fn < 64 →
      ∃ t, exec (.leaseRetuneEnd pkg n) s = .next t ∧ SameMem s t ∧
        (∀ p < 2, ((s.plane x.rank p).regs.fl x.fn).bound = some x.id →
          FlagSet t x.rank p x.fn (leaseRecord (peerAt pkg x.off) 0 n x.granted x.aux)) ∧
        (∀ p < 2, x.twin ≠ 0 → ((s.plane (x.rank + 1) p).regs.fl x.fn).bound = some x.twin →
          FlagSet t (x.rank + 1) p x.fn (leaseRecord (peerAt pkg x.off) 0 n x.granted x.aux)) ∧
        (∀ u ∈ s.suspended, u.rank = x.rank → (u.plane.regs.fl x.fn).bound = some x.id → ∃ v ∈ t.suspended, v.rank = u.rank ∧
          (v.plane.regs.fl x.fn).on = true ∧
          (v.plane.regs.fl x.fn).status = leaseRecord (peerAt pkg x.off) 0 n x.granted x.aux) ∧
        (∀ y ∈ (t.pkg pkg).leases, y.num = n → y.reported = true))) ∧
  (∀ (s : State) (pkg n : Nat), (Instr.leaseExpiry pkg n).wf = true →
    ((s.pkg pkg).leases.find? (fun x => decide (x.num = n) && x.live) = none → exec (.leaseExpiry pkg n) s = .next s) ∧
    (∀ x, (s.pkg pkg).leases.find? (fun x => decide (x.num = n) && x.live) = some x →
      (s.podTime < x.endNs → ∃ t, exec (.leaseExpiry pkg n) s = .next t ∧ t.Due (.leaseExpiry pkg n) ∧ t.pkgs = s.pkgs) ∧
      (x.endNs ≤ s.podTime → exec (.leaseExpiry pkg n) s = .next (returnLanes s pkg n (fun _ => true))))) ∧
  (∀ (s u : State) (pkg n : Nat) (which : Nat × Nat → Bool) (x : Lease),
    (s.pkg pkg).leases.find? (fun x => decide (x.num = n) && x.live) = some x → u = returnLanes s pkg n which →
    u.tiles = s.tiles ∧ SameMem s u ∧ (u.pkg pkg).leases.map (fun y => { y with back := y.back.map (fun l : Nat × Nat => (l.1, 0)) }) =
      (s.pkg pkg).leases.map (fun y => { (if y = x then { x with lanes := x.lanes.filter (fun l => !which l) } else y) with
        back := (y.back ++ (if y = x then (x.lanes.filter which).map (fun l : Nat × Nat => (l.1, 0)) else [])).map
          (fun l : Nat × Nat => (l.1, 0)) }) ∧
    ∀ l ∈ x.lanes, which l = true → (∃ y ∈ (u.pkg pkg).leases, y.num = n ∧ (l.1, s.podTime + 150) ∈ y.back) ∧
      (l.1 ∈ (u.pkg pkg).homing ∨ (u.pkg pkg).pos l.1 = lanePos l.1)) ∧
  (∀ (now l : Nat) (p : Package),
    ((∃ k < 8, 8 * (l / 8) + k ≠ l ∧ p.pos (8 * (l / 8) + k) = lanePos l) → Package.goHome1 now p l = p) ∧
    ((∀ k < 8, 8 * (l / 8) + k ≠ l → p.pos (8 * (l / 8) + k) ≠ lanePos l) → (Package.goHome1 now p l).pos l = lanePos l ∧
      l ∉ (Package.goHome1 now p l).homing ∧ ∀ m, m ≠ l → (Package.goHome1 now p l).pos m = p.pos m)) ∧
  (∀ (p : Package) (now : Nat) (t : Nat × Nat), p.onWay now t = true ↔ t.1 ∈ p.homing ∨ now < t.2) ∧
  (∀ (s : State) (pkg d : Nat), (Instr.leaseRevocation pkg d).wf = true →
    (nget (s.pkg pkg).highSince d = none → exec (.leaseRevocation pkg d) s = .next s) ∧
    (∀ b, nget (s.pkg pkg).highSince d = some b →
      (queueHigh s pkg d = false → ∃ t, exec (.leaseRevocation pkg d) s = .next t ∧ nget (t.pkg pkg).highSince d = none ∧
        (t.pkg pkg).leases = (s.pkg pkg).leases ∧ t.tiles = s.tiles ∧ SameMem s t) ∧
      (queueHigh s pkg d = true → s.podTime < b + 50000 → ∃ t, exec (.leaseRevocation pkg d) s = .next t ∧
        t.Due (.leaseRevocation pkg d) ∧ t.pkgs = s.pkgs) ∧
      (∀ x, queueHigh s pkg d = true → b + 50000 ≤ s.podTime →
        ((s.pkg pkg).leases.reverse).find? (fun x => x.lanes.any (fun l => decide (l.2 = d))) = some x →
        ∃ t, exec (.leaseRevocation pkg d) s = .next t ∧ t.tiles = s.tiles ∧ SameMem s t ∧ t.Due (.leaseRevocation pkg d) ∧
          (t.pkg pkg).leases = ((returnLanes s pkg x.num (fun l => decide (l.2 = d))).pkg pkg).leases))) ∧
  (∀ (s : State) (pkg k : Nat), (Instr.slotStart pkg k).wf = true →
    ((s.pkg pkg).slotted = false → exec (.slotStart pkg k) s = .next (lanesRun s pkg)) ∧
    ((s.pkg pkg).slotted = true → (s.pkg pkg).rota.slotAt s.podTime = none → ∃ t, exec (.slotStart pkg k) s = .next t ∧
      t.Due (.slotStart pkg 0) ∧ t.pkgs = s.pkgs ∧ t.tiles = s.tiles ∧ SameMem s t) ∧
    (∀ n b e, (s.pkg pkg).slotted = true → (s.pkg pkg).rota.slotAt s.podTime = some (n, b, e) →
      ∃ t, exec (.slotStart pkg k) s = .next t ∧ t.Due (.slotStart pkg n) ∧
        (s.podTime < b + (s.pkg pkg).rota.guard ∨ (s.pkg pkg).slotLanesUp e = 0 →
          t.tiles = s.tiles ∧ SameMem s t ∧ ∀ d ∈ s.agenda, d ∈ t.agenda)) ∧
    (∀ n b e lanes total used x v, (s.pkg pkg).slotted = true → (s.pkg pkg).rota.slotAt s.podTime = some (n, b, e) →
      b + (s.pkg pkg).rota.guard ≤ s.podTime → lanes = (s.pkg pkg).slotLanesUp e → lanes ≠ 0 →
      total = lanes * (slotNs e - (s.pkg pkg).rota.guard) / 8 →
      used = max (if (s.pkg pkg).slotAt = b then (s.pkg pkg).slotUsed else 0)
        ((lanes * (s.podTime - (b + (s.pkg pkg).rota.guard)) + 7) / 8) →
      x = drainVia (queueKey pkg (slotOff e)) s.agenda (total - used) →
      v = s.modPkg pkg (fun k => { k with slotUsed := if k.slotAt = b then k.slotUsed else 0, slotAt := b }) →
      exec (.slotStart pkg k) s = .next (emitOnce (pumpPkg (State.modPkg { v with agenda := x.1 } pkg (fun k =>
        { k with slotUsed := used + (total - used - x.2) })) pkg (!(waitingKeys s pkg).isEmpty)) (.slotStart pkg n)))) ∧
  (∀ (key n : Nat) (l : List Due), (drainVia key l n).2 ≤ n ∧ (drainVia key l n).1.map (·.ev) = l.map (·.ev) ∧
    (∀ i j : Nat, ∀ a b : Due, ∀ v w : Nat × Nat, i < j → l[i]? = some a → l[j]? = some b → a.via = some v → b.via = some w →
      v.1 = key → w.1 = key → 0 < w.2 → ((drainVia key l n).1[j]?).any (fun d => d.via.isNone) = true →
      ((drainVia key l n).1[i]?).any (fun d => d.via.isNone) = true)) ∧
  (∀ (s : State) (key ns c : Nat), nget (s.pkg (key / 4096)).credit (key % 4096) = some c → (drainLanes s key ns).agenda =
    (drainVia key s.agenda ((c + 8 * (s.pkg (key / 4096)).lanesAt (key % 4096) * ns) / 64)).1) ∧
  (∀ (s : State) (pkg : Nat), (Instr.modeSwitch pkg).wf = true →
    ((s.pkg pkg).switchAt = none → exec (.modeSwitch pkg) s = .next s) ∧
    (∀ b, (s.pkg pkg).switchAt = some b →
      (s.podTime < b → ∃ t, exec (.modeSwitch pkg) s = .next t ∧ t.Due (.modeSwitch pkg) ∧ t.pkgs = s.pkgs ∧ SameMem s t) ∧
      (b ≤ s.podTime → (s.pkg pkg).slotBit = true → ∃ t, exec (.modeSwitch pkg) s = .next t ∧ (t.pkg pkg).slotted = true ∧
        (t.pkg pkg).rota = { slots := (s.pkg pkg).slotRegs, guard := guardOf ((s.pkg pkg).reg 0x20000), start := b } ∧
        (t.pkg pkg).switchAt = none ∧ t.Due (.slotStart pkg 0) ∧ SameMem s t ∧ t.tiles = s.tiles) ∧
      (b ≤ s.podTime → (s.pkg pkg).slotBit = false → ∃ t, exec (.modeSwitch pkg) s = .next t ∧ (t.pkg pkg).slotted = false ∧
        (t.pkg pkg).switchAt = none ∧ (∀ d ∈ t.agenda, ∀ v, d.via = some v → v.1 / 4096 = pkg → v.2 ≠ 0) ∧ SameMem s t ∧
        t.tiles = s.tiles))) ∧
  (∀ (s : State) (pkg ns : Nat), (Instr.podTimeBeacon pkg ns).wf = true → exec (.podTimeBeacon pkg ns) s = .next s) ∧
  (∀ (l : LmAsk) (s : State), (Instr.laneManagerAnswer l).wf = true →
    ∃ t, exec (.laneManagerAnswer l) s = .next t ∧ SameMem s t ∧ t.pkgs = s.pkgs ∧
      (∀ r p, r ≠ l.rank ∨ (p < 2 ∧ l.id ∉ (s.plane r p).askIds) → t.plane r p = s.plane r p) ∧
      (∀ p < 2, l.id ∈ (s.plane l.rank p).askIds → (p = 1 → l.id ∉ (s.plane l.rank 0).askIds) →
        ((s.plane l.rank p).regs.fl l.fn).bound = some l.id → FlagSet t l.rank p l.fn
          (if l.slot = true then slotqRecord s (pkgOf l.rank) l.what
            else leaseqRecord s (pkgOf l.rank) (s.plane l.rank p).task.job l.what))) ∧
  (∀ (s : State) (pkg v : Nat), (Instr.slottedSet pkg v).wf = true →
    bitsHL ((s.pkg pkg).reg 0x20000) 41 32 = bitsHL v 41 32 → (s.pkg pkg).slotBit = false →
    (tableBad (s.pkg pkg).slotRegs (guardOf ((s.pkg pkg).reg 0x20000)) = true →
      ∃ t, exec (.slottedSet pkg v) s = .next t ∧ (t.pkg pkg).slotBit = false ∧ t.tiles = s.tiles) ∧
    (tableBad (s.pkg pkg).slotRegs (guardOf ((s.pkg pkg).reg 0x20000)) = false → (s.pkg pkg).slotted = false →
      ∃ t, exec (.slottedSet pkg v) s = .next t ∧ (t.pkg pkg).slotBit = true ∧ (t.pkg pkg).slotted = false ∧
        t.Due (.modeSwitch pkg) ∧ t.tiles = s.tiles ∧ SameMem s t)) ∧
  (∀ (s : State) (pkg v : Nat), (Instr.slottedClear pkg v).wf = true →
    bitsHL ((s.pkg pkg).reg 0x20000) 41 32 = bitsHL v 41 32 → (s.pkg pkg).slotBit = true →
    ((s.pkg pkg).slotted = true → ∃ t, exec (.slottedClear pkg v) s = .next t ∧ (t.pkg pkg).slotBit = false ∧
      (t.pkg pkg).slotted = true ∧ t.Due (.modeSwitch pkg) ∧ t.tiles = s.tiles ∧ SameMem s t) ∧
    ((s.pkg pkg).slotted = false → ∃ t, exec (.slottedClear pkg v) s = .next t ∧ (t.pkg pkg).slotBit = false ∧
      (t.pkg pkg).switchAt = none ∧ t.tiles = s.tiles ∧ SameMem s t)) ∧
  (∀ (s : State) (pkg n v : Nat), (Instr.slotTableWrite pkg n v).wf = true → n < 64 →
    ((s.pkg pkg).slotted = false → (s.pkg pkg).slotBit = false → ∃ t, exec (.slotTableWrite pkg n v) s = .next t ∧
      (t.pkg pkg).reg (0x20100 + 8 * n) = v % 2 ^ 32 - bitsHL v 15 10 * 2 ^ 10 ∧ t.tiles = s.tiles ∧ SameMem s t) ∧
    ((s.pkg pkg).slotted = true → ∀ k, k = (s.pkg pkg).setReg (0x20100 + 8 * n) (v % 2 ^ 32 - bitsHL v 15 10 * 2 ^ 10) →
      (tableBad k.slotRegs (guardOf (k.reg 0x20000)) = true → ∃ t, exec (.slotTableWrite pkg n v) s = .next t ∧
        (t.pkg pkg).cfg = (s.pkg pkg).cfg ∧ t.tiles = s.tiles) ∧
      (tableBad k.slotRegs (guardOf (k.reg 0x20000)) = false → ∃ t, exec (.slotTableWrite pkg n v) s = .next t ∧
        (t.pkg pkg).cfg = k.cfg ∧ (t.pkg pkg).pendTable = true ∧ t.Due (.modeSwitch pkg) ∧ t.tiles = s.tiles ∧ SameMem s t)))

/-- R117, R132, R133, R136, R324, R333 to R344: the steps of the platform. A replayed flit counts against its lane, and the limit
fences it; a test of an idle unit passes or fences it; a spare takes over a free column; a stopped management core hands its
stack to autonomous refresh until 16 beats; hot pages are exchanged and keep their contents, unless a vault of theirs is fenced
meanwhile; the clock follows the throttle; THERMTRIP takes the compute dies' power; bring-up ends ready or failed at a step; a loss
of power leaves only the non-volatile store; a condition that did not hold at the last look sets REPLACE_REQUESTED (the model's
reading, log entry 98). -/
def Obligations.PlatformSteps : Prop :=
  (∀ (s : State) (pkg l e lim n : Nat), (Instr.crcReplay pkg l).wf = true → e = 1344 + l →
    lim = bitsHL ((s.pkg pkg).reg 8) 51 40 → n = (if (ngetD (s.pkg pkg).windowCount e (windowOf s e, 0)).1 = windowOf s e
      then (ngetD (s.pkg pkg).windowCount e (windowOf s e, 0)).2 + 1 else 1) →
    ((s.pkg pkg).isFenced e = true → exec (.crcReplay pkg l) s = .next s) ∧
    ((s.pkg pkg).isFenced e = false → n < lim → ∃ t, exec (.crcReplay pkg l) s = .next t ∧ (t.pkg pkg).isFenced e = false ∧
      bitsHL ((t.pkg pkg).healthOf e) 47 32 = min (bitsHL ((s.pkg pkg).healthOf e) 47 32 + 1) 65535 ∧
      ngetD (t.pkg pkg).windowCount e (0, 0) = (windowOf s e, n) ∧ t.tiles = s.tiles ∧ SameMem s t) ∧
    ((s.pkg pkg).isFenced e = false → lim ≤ n → ∃ t, exec (.crcReplay pkg l) s = .next t ∧ (t.pkg pkg).isFenced e = true)) ∧
  (∀ (s : State) (pkg : Nat) (hour : Bool), (Instr.limitWindowEnd pkg hour).wf = true →
    ∃ t, exec (.limitWindowEnd pkg hour) s = .next t ∧ t.tiles = s.tiles ∧ SameMem s t ∧
      ∀ e, e ∈ (t.pkg pkg).windowCount ↔ e ∈ (s.pkg pkg).windowCount ∧
        ((laneOfEntry e.1).isNone = hour → e.2.1 = windowOf s e.1)) ∧
  (∀ (s : State) (pkg e : Nat) (pass : Bool), (Instr.fieldTest pkg e pass).wf = true →
    ((s.pkg pkg).isFenced e = true → exec (.fieldTest pkg e pass) s = .next s) ∧
    ((s.pkg pkg).isFenced e = false → 1024 ≤ e → unitIdle s pkg e = false → ∃ t, exec (.fieldTest pkg e pass) s = .next t ∧
      t.Due (.fieldTest pkg e pass) ∧ t.pkgs = s.pkgs ∧ t.tiles = s.tiles ∧ SameMem s t) ∧
    ((s.pkg pkg).isFenced e = false → e < 1024 → (∀ l ∈ s.launches, l.pkg = pkg → l.test ≠ some e) →
      ∃ t l, exec (.fieldTest pkg e pass) s = .next t ∧ t.launches = s.launches ++ [l] ∧ l.pkg = pkg ∧ l.test = some e ∧
        l.qid = 60 ∧ l.queued = true ∧ l.heldPlanes = [] ∧ t.Due (.placementDecision pkg (e / 256)) ∧ t.tiles = s.tiles ∧
        SameMem s t) ∧
    ((s.pkg pkg).isFenced e = false → (1024 ≤ e → unitIdle s pkg e = true) →
      (e < 1024 → ∃ l ∈ s.launches, l.pkg = pkg ∧ l.test = some e ∧ l.heldPlanes ≠ []) → ∃ t, exec (.fieldTest pkg e pass) s = .next t ∧
      (pass = true → ngetD (t.pkg pkg).lastPass e 0 = s.podTime ∧ (t.pkg pkg).health = (s.pkg pkg).health ∧ t.tiles = s.tiles ∧
        (e < 1024 → ∀ l ∈ t.launches, l.pkg = pkg → l.test ≠ some e) ∧ SameMem s t) ∧
      (pass = false → (t.pkg pkg).isFenced e = true))) ∧
  (∀ (s : State) (pkg e : Nat), (Instr.spareRepair pkg e).wf = true →
    (1024 ≤ e ∨ (s.pkg pkg).powered = false ∨ (s.pkg pkg).isFenced e = false ∨ spareFree s (pkg * 4096 + e) = false →
      exec (.spareRepair pkg e) s = .next s) ∧
    (e < 1024 → (s.pkg pkg).powered = true → (s.pkg pkg).isFenced e = true → spareFree s (pkg * 4096 + e) = true →
      (columnFree s pkg e = false ∨ s.Due (.fenceNotice (pkg * 4096 + e) (pkg * 4096 + e)) →
        ∃ t, exec (.spareRepair pkg e) s = .next t ∧ t.Due (.spareRepair pkg e) ∧ t.pkgs = s.pkgs) ∧
      (columnFree s pkg e = true → ¬ s.Due (.fenceNotice (pkg * 4096 + e) (pkg * 4096 + e)) →
        ∃ t, exec (.spareRepair pkg e) s = .next t ∧
        ((t.tile (pkg * 4096 + e)).fenced = false ∧ (t.pkg pkg).isFenced e = false ∧ (t.pkg pkg).isSpared (spareOf e) = true ∨
          (t.pkg pkg).isFenced (spareOf e) = true)))) ∧
  (∀ (s : State) (pkg k : Nat), (Instr.refreshTakeover pkg k).wf = true → ∃ t, exec (.refreshTakeover pkg k) s = .next t ∧
    (t.pkg pkg).smcDown k = true ∧ t.tiles = s.tiles ∧
    ((s.pkg pkg).smcDown k = false → (s.pkg pkg).isFenced (2368 + k) = false → bitsHL ((t.pkg pkg).healthOf (2368 + k)) 61 56 = 7) ∧
    ((s.pkg pkg).smcDown k = true → nget (t.pkg pkg).beats k = none ∧ SameMem s t)) ∧
  (∀ (s : State) (pkg k n : Nat) (ok : Bool), (Instr.smcRestart pkg k ok).wf = true → n = ngetD (s.pkg pkg).smcFails k 0 →
    ((s.pkg pkg).smcDown k = false ∨ 3 ≤ n ∨ ngetD (s.pkg pkg).beats k 0 ≠ 0 → exec (.smcRestart pkg k ok) s = .next s) ∧
    ((s.pkg pkg).smcDown k = true → n < 3 → ngetD (s.pkg pkg).beats k 0 = 0 → ∃ t, exec (.smcRestart pkg k ok) s = .next t ∧
      t.tiles = s.tiles ∧ (ok = true → ngetD (t.pkg pkg).beats k 0 = 16 ∧ SameMem s t) ∧
      (ok = false → ngetD (t.pkg pkg).smcFails k 0 = n + 1 ∧ (n = 2 → (t.pkg pkg).degradedSmc = true)))) ∧
  (∀ (s : State) (pkg k : Nat), (Instr.smcup pkg k).wf = true →
    ((s.pkg pkg).smcDown k = false ∨ ngetD (s.pkg pkg).beats k 0 < 16 → exec (.smcup pkg k) s = .next s) ∧
    ((s.pkg pkg).smcDown k = true → 16 ≤ ngetD (s.pkg pkg).beats k 0 → ∃ t, exec (.smcup pkg k) s = .next t ∧
      (t.pkg pkg).smcDown k = false ∧ ngetD (t.pkg pkg).smcFails k 0 = 0 ∧ t.tiles = s.tiles)) ∧
  (∀ (s : State) (v : Nat), (Instr.refreshSplit v).wf = true → ∃ t, exec (.refreshSplit v) s = .next t ∧
    (t.vault v).postponed = (if 7 ≤ (s.vault v).postponed then 0 else (s.vault v).postponed + 1) ∧
    ({ t.vault v with postponed := (s.vault v).postponed } : Vault) = s.vault v ∧ t.tiles = s.tiles ∧ SameMem s t) ∧
  (∀ (s u : State) (pkg hot cold : Nat) (ok : Prop), (Instr.pageMove pkg hot cold).wf = true →
    u = settleSums (settleSums s pkg hot) pkg cold →
    ok = ((s.pkg pkg).stackOf hot ≠ (s.pkg pkg).stackOf cold ∧ (pagePart s pkg hot).isSome = true ∧
      pagePart s pkg hot = pagePart s pkg cold ∧ pageFree s pkg hot = true ∧ pageFree s pkg cold = true) →
    (¬ ok → exec (.pageMove pkg hot cold) s = .next s) ∧
    (ok → pageDirty u pkg hot = true ∨ pageDirty u pkg cold = true → exec (.pageMove pkg hot cold) s = .next u) ∧
    (ok → pageDirty u pkg hot = false → pageDirty u pkg cold = false →
      ∃ t, exec (.pageMove pkg hot cold) s = .next t ∧ (t.pkg pkg).isMoving hot = true ∧ (t.pkg pkg).isMoving cold = true ∧
      t.Due (.pageMoveEnd pkg hot cold) ∧ t.tiles = s.tiles)) ∧
  (∀ (s : State) (pkg hot cold : Nat), (Instr.pageMoveEnd pkg hot cold).wf = true →
    ((hot, cold) ∉ (s.pkg pkg).moving → exec (.pageMoveEnd pkg hot cold) s = .next s) ∧
    ((hot, cold) ∈ (s.pkg pkg).moving → moveFenced s pkg hot cold = true → ∃ t, exec (.pageMoveEnd pkg hot cold) s = .next t ∧
      t.tiles = s.tiles ∧ SameMem s t ∧ (t.pkg pkg).isMoving hot = false ∧ (t.pkg pkg).isMoving cold = false ∧
      (t.pkg pkg).moving = (s.pkg pkg).moving.erase (hot, cold)) ∧
    ((hot, cold) ∈ (s.pkg pkg).moving → moveFenced s pkg hot cold = false → hot ≠ cold →
      s.dpaAddr pkg (hot * 65536) ≠ s.dpaAddr pkg (cold * 65536) →
      ∃ t, exec (.pageMoveEnd pkg hot cold) s = .next t ∧ t.tiles = s.tiles ∧
        t.dpaAddr pkg (hot * 65536) = s.dpaAddr pkg (cold * 65536) ∧ t.dpaAddr pkg (cold * 65536) = s.dpaAddr pkg (hot * 65536) ∧
        (s.Safe → ∀ i < 65536, memGet t.mem (t.dpaAddr pkg (hot * 65536) + i) = memGet s.mem (s.dpaAddr pkg (hot * 65536) + i) ∧
          memGet t.mem (t.dpaAddr pkg (cold * 65536) + i) = memGet s.mem (s.dpaAddr pkg (cold * 65536) + i)) ∧
        (t.pkg pkg).isMoving hot = false ∧ (t.pkg pkg).isMoving cold = false)) ∧
  (∀ (s : State) (pkg trig : Nat) (lower : Bool), (Instr.throttle pkg trig lower).wf = true →
    ∃ t, exec (.throttle pkg trig lower) s = .next t ∧ t.tiles = s.tiles ∧
      (t.pkg pkg).clk = (if lower = true then (if 15 < (s.pkg pkg).clk then (s.pkg pkg).clk - 1 else (s.pkg pkg).clk)
        else if (s.pkg pkg).clk < 25 then (s.pkg pkg).clk + 1 else (s.pkg pkg).clk)) ∧
  (∀ (s : State) (pkg temp : Nat), (Instr.thermtrip pkg temp).wf = true →
    (temp < 115 → exec (.thermtrip pkg temp) s = .next s) ∧
    (115 ≤ temp → ∃ t, exec (.thermtrip pkg temp) s = .next t ∧
      (t.pkg pkg).powered = false ∧ (∀ e < 1024, (t.tile (pkg * 4096 + e)).fenced = true ∧
        (t.plane (pkg * 4096 + e) 0).state = 0 ∧ (t.plane (pkg * 4096 + e) 1).state = 0) ∧
      (∀ u ∈ t.suspended, pkgOf u.rank ≠ pkg) ∧ ∀ r, pkgOf r ≠ pkg → t.tile r = s.tile r)) ∧
  (∀ (s : State) (pkg k code : Nat), (Instr.powerOn pkg k code).wf = true →
    ((s.pkg pkg).ready = true ∨ (s.pkg pkg).failed = true → exec (.powerOn pkg k code) s = .next s) ∧
    ((s.pkg pkg).ready = false → (s.pkg pkg).failed = false → ∃ t, exec (.powerOn pkg k code) s = .next t ∧
      (k = 0 → (t.pkg pkg).ready = true ∧ (t.pkg pkg).stage = 6) ∧
      (1 ≤ k → (t.pkg pkg).failed = true ∧ (t.pkg pkg).stage = k))) ∧
  (∀ (s : State) (pkg : Nat), (Instr.powerLoss pkg).wf = true → ∃ t, exec (.powerLoss pkg) s = .next t ∧
    (t.pkg pkg).powered = false ∧ (t.pkg pkg).ready = false ∧ (t.pkg pkg).bb = (s.pkg pkg).bb ∧
    (t.pkg pkg).bbSeq = (s.pkg pkg).bbSeq ∧ (t.pkg pkg).boot = (s.pkg pkg).boot ∧ (∀ r, pkgOf r = pkg → t.tile r = {}) ∧
    ∀ j ∈ t.jobs, j.pkg ≠ pkg) ∧
  (∀ (s : State) (pkg : Nat), (((checkReplace s pkg).pkg pkg).replaceReq = true ↔ (s.pkg pkg).replaceReq = true ∨
      ∃ k < 5, (s.pkg pkg).replaceCond k = true ∧ k ∉ (s.pkg pkg).replaceOn) ∧ (checkReplace s pkg).tiles = s.tiles ∧
    ∀ k, k ∈ ((checkReplace s pkg).pkg pkg).replaceOn ↔ k < 5 ∧ (s.pkg pkg).replaceCond k = true)

/-- R6, R7, R63, R118, R290, R307, R313, R316, R317, R329, R330, R333, R344, Table 17.5: what a write of a register does that has a
behaviour of its own, and of any other: its RW fields take the value, and no other register changes. -/
def Obligations.RegisterWriteSteps : Prop :=
  (∀ (s : State) (pkg v : Nat), (Instr.plimitWrite pkg v).wf = true → ∃ t, exec (.plimitWrite pkg v) s = .next t ∧
    RegisterTakes s t pkg 0x10 (min 2300 (max 1200 (v % 4096)))) ∧
  (∀ (s : State) (pkg die v : Nat), (Instr.lseedWrite pkg die v).wf = true → ∃ t, exec (.lseedWrite pkg die v) s = .next t ∧
    RegisterTakes s t pkg (0x10208 + 0x1000 * die) (if v % 2 ^ 32 = 0 then 1 else v % 2 ^ 32)) ∧
  (∀ (s : State) (pkg : Nat), (Instr.replaceClear pkg).wf = true →
    ((s.pkg pkg).spareOrVault = true → exec (.replaceClear pkg) s = .next s) ∧
    ((s.pkg pkg).spareOrVault = false → ∃ t, exec (.replaceClear pkg) s = .next t ∧ OnlyPackage s t pkg ∧
      t.pkg pkg = { s.pkg pkg with replaceReq := false })) ∧
  (∀ (s : State) (pkg p v : Nat), (Instr.ptrootWrite pkg p v).wf = true →
    (s.busyPart pkg p = true → exec (.ptrootWrite pkg p v) s = .next s) ∧
    (s.busyPart pkg p = false → ∃ t, exec (.ptrootWrite pkg p v) s = .next t ∧
      RegisterTakes s t pkg (0x30800 + 8 * p) (v % 2 + bitsHL v 41 13 * 2 ^ 13))) ∧
  (∀ (s : State) (r p v : Nat), (Instr.srseedWrite r p v).wf = true → ∃ t, exec (.srseedWrite r p v) s = .next t ∧
    t.plane r p = { s.plane r p with regs := { (s.plane r p).regs with
      srseed := if v % 2 ^ 64 = 0 then 1 else BitVec.ofNat 64 v } } ∧
    (∀ x q, q < 2 → ¬ (x = r ∧ q = p) → t.plane x q = s.plane x q) ∧ t.pkgs = s.pkgs ∧ t.vaults = s.vaults ∧ SameMem s t) ∧
  (∀ (s : State) (r v p i : Nat) (a b : Bank), (Instr.txvalWrite r v).wf = true → p = (s.tile r).ctxPlane → p < 2 →
    i = (s.tile r).txidx → a = (s.plane r p).regs.bank →
    ∃ t, exec (.txvalWrite r v) s = .next t ∧ (b = (t.plane r p).regs.bank →
      t.plane r p = { s.plane r p with regs := { (s.plane r p).regs with bank := b } } ∧
      (∀ x q, q < 2 → ¬ (x = r ∧ q = p) → t.plane x q = s.plane x q) ∧ t.pkgs = s.pkgs ∧ t.vaults = s.vaults ∧ SameMem s t ∧
      (i = 0 ∨ 34 ≤ i → b = a) ∧
      (1 ≤ i → i < 32 → b.x[i]? = some (BitVec.ofNat 64 v) ∧ b.dead.getLsbD i = false ∧
        ({ b with x := a.x, dead := a.dead } : Bank) = a ∧
        ∀ k, k ≠ i → b.x[k]? = a.x[k]? ∧ b.dead.getLsbD k = a.dead.getLsbD k) ∧
      (i = 32 → ({ b with p := a.p } : Bank) = a ∧ (∀ k < 2, b.p[k]? = a.p[k]?) ∧
        ∀ k, 2 ≤ k → k < 8 → b.p[k]? = some (v.testBit k)) ∧
      (i = 33 → ({ b with ix := a.ix } : Bank) = a ∧ ∀ k < 4, b.ix[k]? = some (BitVec.ofNat 8 (v / 2 ^ (8 * k)))))) ∧
  (∀ (s : State) (r n v : Nat), v < 2 ^ 64 → (Instr.scancelWrite r (n * 2 ^ 64 + v)).wf = true →
    (ownLevel s n (pkgOf r) v = true →
      exec (.scancelWrite r (n * 2 ^ 64 + v)) s = .next (cancelLevel s (pkgOf r) (v / 2 ^ 62) (v % 2 ^ 32))) ∧
    (ownLevel s n (pkgOf r) v = false →
      exec (.scancelWrite r (n * 2 ^ 64 + v)) s = .next (blackBox s (pkgOf r) 0x0021 r v))) ∧
  (∀ (s : State) (n pkg v : Nat), ownLevel s n pkg v = true ↔ ∃ l, s.launchOf n = some l ∧
    (v / 2 ^ 62 = 0 ∧ v % 2 ^ 32 = n ∨ v / 2 ^ 62 = 1 ∧ l.graph.map (·.1) = some (v % 2 ^ 32) ∨
      v / 2 ^ 62 = 2 ∧ (s.jobAt l.job pkg).map (·.phaseNum) = some (v % 2 ^ 32) ∨ 3 ≤ v / 2 ^ 62 ∧ l.job = v % 2 ^ 32)) ∧
  (∀ (s : State) (pkg p n v low e old : Nat), (Instr.rangeEntryWrite pkg p n v).wf = true →
    low = v % 2 ^ 64 - bitsHL v 37 5 * 2 ^ 5 → e = low + (s.pkg pkg).reg (0x30008 + 0x100 * p + 16 * n) * 2 ^ 64 →
    old = ngetD (s.pkg pkg).rng (p * 16 + n) 0 →
    ∃ t, exec (.rangeEntryWrite pkg p n v) s = .next t ∧ SameMem s t ∧ ngetD (t.pkg pkg).rng (p * 16 + n) 0 = e ∧
      (∀ k, k ≠ p * 16 + n → ngetD (t.pkg pkg).rng k 0 = ngetD (s.pkg pkg).rng k 0) ∧
      (t.pkg pkg).reg (0x30000 + 0x100 * p + 16 * n) = low ∧
      (∀ b, b ≠ 0x30000 + 0x100 * p + 16 * n → (t.pkg pkg).reg b = (s.pkg pkg).reg b) ∧
      ∀ lo hi, (rangeTr p 0 e).map (fun x => (x.lo, x.hi)) = some (lo, hi) ∨
        (rangeTr p 0 old).map (fun x => (x.lo, x.hi)) = some (lo, hi) →
        (∀ r u, pkgOf r = pkg → u ∈ (t.tile r).tr → u.meets p lo hi = false) ∧
        ∀ die l u, (die, l) ∈ (t.pkg pkg).tlb → u ∈ l → u.meets p lo hi = false) ∧
  (∀ (s : State) (pkg k w v r : Nat), k < 256 → r = pkg * 4096 + 0x400 + k → (Instr.routineEntryWrite pkg r w v).wf = true →
    (routineBusy s pkg k = true → exec (.routineEntryWrite pkg r w v) s = .next s) ∧
    (routineBusy s pkg k = false → w % 16 ≠ 0 → ∃ t, exec (.routineEntryWrite pkg r w v) s = .next t ∧
      RegisterTakes s t pkg (routineAddr k w) (v % 2 ^ 32)) ∧
    (∀ ok : Prop, routineBusy s pkg k = false → w % 16 = 0 →
      ok = (v % 2 ^ 28 = 0 ∧ ∀ i < 15, stepOk ((s.pkg pkg).reg (routineAddr k (w + i + 1))) = true) →
      ∃ t h, exec (.routineEntryWrite pkg r w v) s = .next t ∧ (ok → h = v % 2 ^ 32) ∧ (¬ ok → h = bitsHL v 30 28 * 2 ^ 28) ∧
        t.tiles = s.tiles ∧ SameMem s t ∧ (t.pkg pkg).reg (routineAddr k w) = h ∧
        (∀ b, b ≠ routineAddr k w → (t.pkg pkg).reg b = (s.pkg pkg).reg b) ∧ (∀ x, x ≠ r → t.vault x = s.vault x) ∧
        ngetD (t.vault r).routine w 0 = h ∧ (∀ i < 15, ngetD (t.vault r).routine (w + i + 1) 0 =
          (s.pkg pkg).reg (routineAddr k (w + i + 1))) ∧
        ({ t.vault r with routine := (s.vault r).routine } : Vault) = s.vault r)) ∧
  (∀ (s : State) (pkg a v : Nat), (Instr.registerWrite pkg a v).wf = true →
    (cfgReg a = none ∨ a = 0 ∨ a = 0x10 ∨ 0x100 ≤ a ∧ a < 0x140 ∨ (∃ d < 4, a = 0x10208 + 0x1000 * d) ∨ a = 0x20000 ∨
      0x20100 ≤ a ∧ a < 0x20300 ∨ (∃ p n, p < 8 ∧ n < 16 ∧ a = 0x30000 + 0x100 * p + 16 * n) ∨ 0x30800 ≤ a ∧ a < 0x30840 ∨
      (∃ k w, k < 256 ∧ w < 64 ∧ a = routineAddr k (16 * w)) → exec (.registerWrite pkg a v) s = .next s) ∧
    (a = 8 → ∃ t, exec (.registerWrite pkg a v) s = .next t ∧ (t.pkg pkg).reg a = v % 2 ^ 64 - bitsHL v 15 8 * 2 ^ 8 ∧
      (∀ b, b ≠ a → (t.pkg pkg).reg b = (s.pkg pkg).reg b) ∧ (∀ k, k ≠ pkg → t.pkg k = s.pkg k) ∧ t.tiles = s.tiles ∧
      t.vaults = s.vaults ∧ t.jobs = s.jobs ∧ t.launches = s.launches ∧ t.graphs = s.graphs ∧ t.suspended = s.suspended ∧
      ((∀ k < 5, ((s.pkg pkg).setReg a (v % 2 ^ 64 - bitsHL v 15 8 * 2 ^ 8)).replaceCond k = true → k ∈ (s.pkg pkg).replaceOn) →
        (t.pkg pkg).replaceReq = (s.pkg pkg).replaceReq ∧ SameMem s t)) ∧
    (∀ die < 4, a = 0x10200 + 0x1000 * die → ∃ t, exec (.registerWrite pkg a v) s = .next t ∧
      RegisterTakes s t pkg a (v % 16)) ∧
    (a = 0x20008 ∨ (∃ p n, p < 8 ∧ n < 16 ∧ a = 0x30008 + 0x100 * p + 16 * n) →
      ∃ t, exec (.registerWrite pkg a v) s = .next t ∧ RegisterTakes s t pkg a (v % 2 ^ 64)) ∧
    (∀ die q, die < 4 → q < 64 → a = 0x10000 + 0x1000 * die + 8 * q → ∃ t, exec (.registerWrite pkg a v) s = .next t ∧
      t.Due (.placementDecision pkg die) ∧
      (q < 60 → RegisterTakes s t pkg a (putBits (putBits ((s.pkg pkg).reg a) 31 31 (v / 2 ^ 31)) 3 0 v)) ∧
      (60 ≤ q → RegisterTakes s t pkg a (putBits (putBits ((s.pkg pkg).reg a) 31 31 (v / 2 ^ 31)) 23 16 (v / 2 ^ 16)))) ∧
    (∀ k w, k < 256 → w < 1024 → w % 16 ≠ 0 → a = routineAddr k w →
      (routineBusy s pkg k = true → exec (.registerWrite pkg a v) s = .next s) ∧
      (routineBusy s pkg k = false → ∃ t, exec (.registerWrite pkg a v) s = .next t ∧
        RegisterTakes s t pkg a (v % 2 ^ 32))))

/-- R303, R312, R313, R327 to R331, R333, R335 to R339, Table 19.2, Table 19.3: the command channel. A doorbell brings the commands
up to its index; a command runs when the package is ready, or early where its row allows, behind a RESYNC in progress, and
writes its completion with its status and results. Where a completion's fields stand is the model's (log entry 22). -/
def Obligations.CommandSteps : Prop :=
  (∀ (i : Instr) (c : Cmd) (op : Nat) (s : State), (i, op) ∈ [(Instr.jobrun c, 1), (.countq c, 2), (.cancel c, 3),
      (.tlbinvCommand c, 5), (.partset c, 6), (.cfgwr c, 8), (.testnow c, 11), (.fence c, 12)] → i.wf = true →
    resyncDue s c.pkg = false → (s.pkg c.pkg).ready = false → ∃ t, exec i s = .next t ∧ Completed s t c op 5 [] ∧
      t.tiles = s.tiles) ∧
  (∀ (i : Instr) (c : Cmd) (s : State), i ∈ [Instr.jobrun c, .countq c, .cancel c, .tlbinvCommand c, .partset c, .cfgrd c, .cfgwr c,
      .healthrd c, .bbread c, .testnow c, .fence c, .reset c] → i.wf = true → resyncDue s c.pkg = true →
    ∃ t, exec i s = .next t ∧ t.Due i ∧ t.pkgs = s.pkgs ∧ t.tiles = s.tiles ∧ SameMem s t) ∧
  (∀ (c : Cmd) (s : State), c.wf = true → resyncDue s c.pkg = false → (s.pkg c.pkg).ready = true →
    (partNamed (s.pkg c.pkg) c.b = none → ∃ t, exec (.jobrun c) s = .next t ∧ Completed s t c 1 3 [] ∧ t.jobs = s.jobs) ∧
    (∀ n, partNamed (s.pkg c.pkg) c.b = some n →
      (16 ≤ (s.jobs.filter (fun j => !j.fin && decide (j.pkg = c.pkg ∧ j.part = n))).length →
        ∃ t, exec (.jobrun c) s = .next t ∧ Completed s t c 1 2 [] ∧ t.jobs = s.jobs) ∧
      ((s.jobs.filter (fun j => !j.fin && decide (j.pkg = c.pkg ∧ j.part = n))).length < 16 →
        (∀ u, jobOf s c.pkg n c.a c.b = .error u → exec (.jobrun c) s = .next (complete u c 1 4 [])) ∧
        (∀ j u l w, jobOf s c.pkg n c.a c.b = .ok (j, u) → readGroups u c.pkg n j.groupva = (l, w) → exec (.jobrun c) s =
          .next (advance (startPhase (complete { w with jobs := w.jobs ++ [{ j with groups := l }] } c 1 0 []) j.num j.pkg))))) ∧
    (levelCount s c.pkg c.a c.b = none → (∃ t, exec (.countq c) s = .next t ∧ Completed s t c 2 1 [] ∧ t.tiles = s.tiles) ∧
      ∃ t, exec (.cancel c) s = .next t ∧ Completed s t c 3 1 [] ∧ t.tiles = s.tiles) ∧
    (∀ n st, levelCount s c.pkg c.a c.b = some (n, st) →
      (∃ t, exec (.countq c) s = .next t ∧ Completed s t c 2 0 (leBytes 8 n ++ leBytes 8 st) ∧ t.tiles = s.tiles) ∧
      exec (.cancel c) s = .next (cancelLevel (complete s c 3 0 (leBytes 8 st)) c.pkg c.a c.b)) ∧
    (8 ≤ c.a → (∃ t, exec (.tlbinvCommand c) s = .next t ∧ Completed s t c 5 1 [] ∧ t.tiles = s.tiles) ∧
      ∃ t, exec (.partset c) s = .next t ∧ Completed s t c 6 1 [] ∧ t.tiles = s.tiles) ∧
    (c.a < 8 → (s.pkg c.pkg).partValid c.a = false → ∃ t, exec (.tlbinvCommand c) s = .next t ∧ Completed s t c 5 3 [] ∧
      t.tiles = s.tiles) ∧
    (c.a < 8 → (s.pkg c.pkg).partValid c.a = true → invSpan c.b c.c = none → ∃ t, exec (.tlbinvCommand c) s = .next t ∧
      Completed s t c 5 1 [] ∧ t.tiles = s.tiles) ∧
    (∀ lo hi l, c.a < 8 → (s.pkg c.pkg).partValid c.a = true → invSpan c.b c.c = some (lo, hi) →
      nget (s.pkg c.pkg).invWait c.d = none → l = translatedIn s c.pkg c.a lo hi → ∃ t, exec (.tlbinvCommand c) s = .next t ∧
        (∀ r u, pkgOf r = c.pkg → u ∈ (t.tile r).tr → u.meets c.a lo hi = false) ∧
        (∀ die k u, (die, k) ∈ (t.pkg c.pkg).tlb → u ∈ k → u.meets c.a lo hi = false) ∧
        (l = [] → Completed s t c 5 0 []) ∧
        (l ≠ [] → t.Due (.tlbinvCommand { c with d := s.nextId }) ∧ nget (t.pkg c.pkg).invWait s.nextId = some l)) ∧
    (∀ lo hi l, c.a < 8 → (s.pkg c.pkg).partValid c.a = true → invSpan c.b c.c = some (lo, hi) →
      nget (s.pkg c.pkg).invWait c.d = some l → ∃ t, exec (.tlbinvCommand c) s = .next t ∧ t.tiles = s.tiles ∧
        ((∀ i ∈ l, ∀ e ∈ s.tiles, ∀ q ∈ e.2.reqs, q.req.id ≠ i) → Completed s t c 5 0 [] ∧
          nget (t.pkg c.pkg).invWait c.d = none) ∧
        ((∃ i ∈ l, ∃ e ∈ s.tiles, ∃ q ∈ e.2.reqs, q.req.id = i) → t.Due (.tlbinvCommand c) ∧ t.pkgs = s.pkgs ∧ SameMem s t)) ∧
    (∀ st, c.a < 8 → st = partStatus s c.pkg c.a c.b → ∃ t, exec (.partset c) s = .next t ∧ Completed s t c 6 st [] ∧
      t.tiles = s.tiles ∧ (st = 0 → (t.pkg c.pkg).part c.a = partBits c.b) ∧ (st ≠ 0 → (t.pkg c.pkg).cfg = (s.pkg c.pkg).cfg)) ∧
    (∀ st u, cfgWrite s c.pkg c.a c.b = (st, u) → exec (.cfgwr c) s = .next (complete u c 8 st [])) ∧
    (∃ t, exec (.testnow c) s = .next t ∧ t.tiles = s.tiles ∧ Completed s t c 11 (if c.a < 2376 then 0 else 1) [] ∧
      ((s.pkg c.pkg).isFenced c.a = false → c.a < 1024 → ∃ l ∈ t.launches, l.pkg = c.pkg ∧ l.test = some c.a) ∧
      ((s.pkg c.pkg).isFenced c.a = false → 1024 ≤ c.a → c.a < 2376 → t.Due (.fieldTest c.pkg c.a true) ∨ t.Due (.fieldTest c.pkg c.a false))) ∧
    ∃ t, exec (.fence c) s = .next t ∧ Completed s t c 12 (if c.a < 2376 then 0 else 1) [] ∧
      (c.a < 2376 → (t.pkg c.pkg).isFenced c.a = true)) ∧
  (∀ (c : Cmd) (s : State), c.wf = true → resyncDue s c.pkg = false →
    (cfgReg c.a = none → ∃ t, exec (.cfgrd c) s = .next t ∧ Completed s t c 7 1 [] ∧ t.tiles = s.tiles) ∧
    (∀ r, cfgReg c.a = some r → ∃ t, exec (.cfgrd c) s = .next t ∧ t.tiles = s.tiles ∧
      Completed s t c 7 0 (leBytes 8 (cfgRead (s.pkg c.pkg) c.a r))) ∧
    (2376 < c.b + c.c → ∃ t, exec (.healthrd c) s = .next t ∧ Completed s t c 9 1 [] ∧ t.tiles = s.tiles) ∧
    (c.b + c.c ≤ 2376 → ∃ t, exec (.healthrd c) s = .next t ∧ t.tiles = s.tiles ∧
      (Completed s t c 9 7 [] ∨ Completed s t c 9 0 (leBytes 8 c.c))) ∧
    (c.c = 0 ∨ 4096 < c.c → ∃ t, exec (.bbread c) s = .next t ∧ Completed s t c 10 1 [] ∧ t.tiles = s.tiles) ∧
    (∀ l, 1 ≤ c.c → c.c ≤ 4096 → l = heldRecords (s.pkg c.pkg) c.b c.c → ∃ t, exec (.bbread c) s = .next t ∧
      t.tiles = s.tiles ∧ (Completed s t c 10 7 [] ∨ Completed s t c 10 0
        (leBytes 8 l.length ++ leBytes 8 (((s.pkg c.pkg).bbSeq - min 4096 (s.pkg c.pkg).bbSeq) % 2 ^ 32)))) ∧
    ∃ t, exec (.reset c) s = .next t ∧ t = resetPkg s c.pkg ∧ (t.pkg c.pkg).ready = false ∧ (t.pkg c.pkg).stage = 1 ∧
      (t.pkg c.pkg).bb = (s.pkg c.pkg).bb ∧ (∀ r, pkgOf r = c.pkg → t.tile r = {}) ∧ ∀ j ∈ t.jobs, j.pkg ≠ c.pkg) ∧
  (∀ (c : Cmd) (s : State), c.wf = true →
    (c.a % 4096 ≠ 0 → ∃ t, exec (.resync c) s = .next t ∧ Completed s t c 4 1 [] ∧ t.tiles = s.tiles) ∧
    (c.a % 4096 = 0 → ∃ t u, exec (.resync c) s = .next t ∧ u = bbCommit s c.pkg ∧ t.tiles = s.tiles ∧
      t = blackBox (completeMem u c 4 c.a (summary u c.pkg) []) c.pkg 0x0040 (Config.noUnit 0x0040 c.pkg)
        ((s.pkg c.pkg).bbSeq % 2 ^ 32))) ∧
  (∀ (s : State) (pkg tail : Nat), (Instr.doorbell pkg tail).wf = true →
    ((s.pkg pkg).linkOpen = false ∨ (s.pkg pkg).cmdSize ≤ tail ∨ (s.pkg pkg).cmdHead = tail →
      exec (.doorbell pkg tail) s = .next s) ∧
    (∀ b c, (s.pkg pkg).linkOpen = true → tail < (s.pkg pkg).cmdSize → (s.pkg pkg).cmdHead ≠ tail →
      ((s.pkg pkg).cmdHead + 1) % (s.pkg pkg).cmdSize = tail →
      b = memRead s.mem (hostAddr pkg ((s.pkg pkg).cmdAddr + 64 * (s.pkg pkg).cmdHead)) 64 →
      c = { pkg := pkg, tag := leNat ((b.drop 2).take 2), a := leNat ((b.drop 8).take 8), b := leNat ((b.drop 16).take 8),
            c := leNat ((b.drop 24).take 8), d := leNat ((b.drop 32).take 8), old := false } →
      ∃ t, exec (.doorbell pkg tail) s = .next t ∧ (t.pkg pkg).cmdHead = tail ∧ t.tiles = s.tiles ∧
        (∀ i, cmdStep (leNat (b.take 1)) c = some i → (b.drop 1).take 1 = [0] → (b.drop 4).take 4 = [0, 0, 0, 0] →
          (b.drop 40).take 24 = List.replicate 24 0 → t.Due i ∧ SameMem s t) ∧
        (cmdStep (leNat (b.take 1)) c = none ∨ (b.drop 1).take 1 ≠ [0] → Completed s t c (leNat (b.take 1)) 1 []))) ∧
  (∀ (s : State) (pkg a n ca cn : Nat), (Instr.ringReinit pkg a n ca cn).wf = true →
    (ringSize n = false ∨ ringSize cn = false → exec (.ringReinit pkg a n ca cn) s = .next s) ∧
    (ringSize n = true → ringSize cn = true → ∃ t, exec (.ringReinit pkg a n ca cn) s = .next t ∧ t.tiles = s.tiles ∧ SameMem s t ∧
      (t.pkg pkg).cmdAddr = a % 2 ^ 64 ∧ (t.pkg pkg).cmdSize = n ∧ (t.pkg pkg).cmdHead = 0 ∧
      (t.pkg pkg).compAddr = ca % 2 ^ 64 ∧ (t.pkg pkg).compSize = cn ∧ (t.pkg pkg).compTail = 0 ∧
      t.agenda.map (·.ev) = s.agenda.map (fun d => setOld pkg d.ev)))
end

