-- ==== Sys2Proof/Laws/Table.lean ====
section
/-! SUPPORT. What the sparse tables give back: reading after setting and after deleting an entry. -/

namespace Sys2Proof

/-- Setting an entry changes what is under its own key alone. -/
theorem nget_nset {α : Type} (m : NMap α) (k j : Nat) (v : α) :
    nget (nset m k v) j = if j = k then some v else nget m j := by
  induction m with
  | nil => simp [nset, nget, eq_comm]
  | cons x r ih =>
    obtain ⟨a, w⟩ := x
    simp only [nset]
    split
    · subst a
      by_cases h : j = k
      · simp [nget, h]
      · simp [nget, h, Ne.symm h]
    · split
      · by_cases h : j = k
        · simp [nget, h]
        · simp [nget, h, Ne.symm h]
      · simp only [nget, ih]
        by_cases h : j = k
        · subst h; simp_all
        · simp [h]

/-- Reading back the entry just set. -/
@[simp] theorem nget_nset_self {α : Type} (m : NMap α) (k : Nat) (v : α) : nget (nset m k v) k = some v := by
  simp [nget_nset]

/-- Another entry is as before. -/
theorem nget_nset_ne {α : Type} (m : NMap α) {k j : Nat} (v : α) (h : j ≠ k) : nget (nset m k v) j = nget m j := by
  simp [nget_nset, h]

/-- Reading back the entry just set, with a default. -/
@[simp] theorem ngetD_nset_self {α : Type} (m : NMap α) (k : Nat) (v d : α) : ngetD (nset m k v) k d = v := by
  simp [ngetD]

/-- Another entry is as before, with a default. -/
theorem ngetD_nset_ne {α : Type} (m : NMap α) {k j : Nat} (v d : α) (h : j ≠ k) :
    ngetD (nset m k v) j d = ngetD m j d := by
  simp [ngetD, nget_nset_ne m v h]

/-- Deleting an entry leaves none under its key and every other as it was. -/
theorem nget_ndel {α : Type} (m : NMap α) (k j : Nat) : nget (ndel m k) j = if j = k then none else nget m j := by
  induction m with
  | nil => simp [ndel, nget]
  | cons x r ih =>
    obtain ⟨a, w⟩ := x
    simp only [ndel]
    split
    · subst a
      rw [ih]
      by_cases h : j = k
      · simp [h]
      · simp [nget, h, Ne.symm h]
    · simp only [nget, ih]
      by_cases h : j = k
      · subst h; simp_all
      · simp [h]

end Sys2Proof
end

