-- ==== Sys2Proof/Laws/State.lean ====
section
/-! SUPPORT. The field lemmas of State: what each named update leaves as it was, and what the units read as after it. -/

namespace Sys2Proof.Machine

/-! ## setTile changes tiles alone -/

@[simp] theorem State.setTile_vaults (s : State) (r : Nat) (t : Tile) : (s.setTile r t).vaults = s.vaults := rfl

@[simp] theorem State.setTile_pkgs (s : State) (r : Nat) (t : Tile) : (s.setTile r t).pkgs = s.pkgs := rfl

@[simp] theorem State.setTile_jobs (s : State) (r : Nat) (t : Tile) : (s.setTile r t).jobs = s.jobs := rfl

@[simp] theorem State.setTile_launches (s : State) (r : Nat) (t : Tile) : (s.setTile r t).launches = s.launches := rfl

@[simp] theorem State.setTile_graphs (s : State) (r : Nat) (t : Tile) : (s.setTile r t).graphs = s.graphs := rfl

@[simp] theorem State.setTile_streams (s : State) (r : Nat) (t : Tile) : (s.setTile r t).streams = s.streams := rfl

@[simp] theorem State.setTile_suspended (s : State) (r : Nat) (t : Tile) : (s.setTile r t).suspended = s.suspended := rfl

@[simp] theorem State.setTile_mem (s : State) (r : Nat) (t : Tile) : (s.setTile r t).mem = s.mem := rfl

@[simp] theorem State.setTile_podTime (s : State) (r : Nat) (t : Tile) : (s.setTile r t).podTime = s.podTime := rfl

@[simp] theorem State.setTile_nextId (s : State) (r : Nat) (t : Tile) : (s.setTile r t).nextId = s.nextId := rfl

@[simp] theorem State.setTile_nextNum (s : State) (r : Nat) (t : Tile) : (s.setTile r t).nextNum = s.nextNum := rfl

@[simp] theorem State.setTile_cur (s : State) (r : Nat) (t : Tile) : (s.setTile r t).cur = s.cur := rfl

@[simp] theorem State.setTile_bundle (s : State) (r : Nat) (t : Tile) : (s.setTile r t).bundle = s.bundle := rfl

@[simp] theorem State.setTile_turn (s : State) (r : Nat) (t : Tile) : (s.setTile r t).turn = s.turn := rfl

@[simp] theorem State.setTile_tick (s : State) (r : Nat) (t : Tile) : (s.setTile r t).tick = s.tick := rfl

@[simp] theorem State.setTile_agenda (s : State) (r : Nat) (t : Tile) : (s.setTile r t).agenda = s.agenda := rfl

/-! ## modTile changes tiles alone -/

@[simp] theorem State.modTile_vaults (s : State) (r : Nat) (f : Tile → Tile) : (s.modTile r f).vaults = s.vaults := rfl

@[simp] theorem State.modTile_pkgs (s : State) (r : Nat) (f : Tile → Tile) : (s.modTile r f).pkgs = s.pkgs := rfl

@[simp] theorem State.modTile_jobs (s : State) (r : Nat) (f : Tile → Tile) : (s.modTile r f).jobs = s.jobs := rfl

@[simp] theorem State.modTile_launches (s : State) (r : Nat) (f : Tile → Tile) : (s.modTile r f).launches = s.launches := rfl

@[simp] theorem State.modTile_graphs (s : State) (r : Nat) (f : Tile → Tile) : (s.modTile r f).graphs = s.graphs := rfl

@[simp] theorem State.modTile_streams (s : State) (r : Nat) (f : Tile → Tile) : (s.modTile r f).streams = s.streams := rfl

@[simp] theorem State.modTile_suspended (s : State) (r : Nat) (f : Tile → Tile) : (s.modTile r f).suspended = s.suspended := rfl

@[simp] theorem State.modTile_mem (s : State) (r : Nat) (f : Tile → Tile) : (s.modTile r f).mem = s.mem := rfl

@[simp] theorem State.modTile_podTime (s : State) (r : Nat) (f : Tile → Tile) : (s.modTile r f).podTime = s.podTime := rfl

@[simp] theorem State.modTile_nextId (s : State) (r : Nat) (f : Tile → Tile) : (s.modTile r f).nextId = s.nextId := rfl

@[simp] theorem State.modTile_nextNum (s : State) (r : Nat) (f : Tile → Tile) : (s.modTile r f).nextNum = s.nextNum := rfl

@[simp] theorem State.modTile_cur (s : State) (r : Nat) (f : Tile → Tile) : (s.modTile r f).cur = s.cur := rfl

@[simp] theorem State.modTile_bundle (s : State) (r : Nat) (f : Tile → Tile) : (s.modTile r f).bundle = s.bundle := rfl

@[simp] theorem State.modTile_turn (s : State) (r : Nat) (f : Tile → Tile) : (s.modTile r f).turn = s.turn := rfl

@[simp] theorem State.modTile_tick (s : State) (r : Nat) (f : Tile → Tile) : (s.modTile r f).tick = s.tick := rfl

@[simp] theorem State.modTile_agenda (s : State) (r : Nat) (f : Tile → Tile) : (s.modTile r f).agenda = s.agenda := rfl

/-! ## modPlane changes tiles alone -/

@[simp] theorem State.modPlane_vaults (s : State) (r p : Nat) (f : Plane → Plane) : (s.modPlane r p f).vaults = s.vaults := rfl

@[simp] theorem State.modPlane_pkgs (s : State) (r p : Nat) (f : Plane → Plane) : (s.modPlane r p f).pkgs = s.pkgs := rfl

@[simp] theorem State.modPlane_jobs (s : State) (r p : Nat) (f : Plane → Plane) : (s.modPlane r p f).jobs = s.jobs := rfl

@[simp] theorem State.modPlane_launches (s : State) (r p : Nat) (f : Plane → Plane) : (s.modPlane r p f).launches = s.launches := rfl

@[simp] theorem State.modPlane_graphs (s : State) (r p : Nat) (f : Plane → Plane) : (s.modPlane r p f).graphs = s.graphs := rfl

@[simp] theorem State.modPlane_streams (s : State) (r p : Nat) (f : Plane → Plane) : (s.modPlane r p f).streams = s.streams := rfl

@[simp] theorem State.modPlane_suspended (s : State) (r p : Nat) (f : Plane → Plane) : (s.modPlane r p f).suspended = s.suspended := rfl

@[simp] theorem State.modPlane_mem (s : State) (r p : Nat) (f : Plane → Plane) : (s.modPlane r p f).mem = s.mem := rfl

@[simp] theorem State.modPlane_podTime (s : State) (r p : Nat) (f : Plane → Plane) : (s.modPlane r p f).podTime = s.podTime := rfl

@[simp] theorem State.modPlane_nextId (s : State) (r p : Nat) (f : Plane → Plane) : (s.modPlane r p f).nextId = s.nextId := rfl

@[simp] theorem State.modPlane_nextNum (s : State) (r p : Nat) (f : Plane → Plane) : (s.modPlane r p f).nextNum = s.nextNum := rfl

@[simp] theorem State.modPlane_cur (s : State) (r p : Nat) (f : Plane → Plane) : (s.modPlane r p f).cur = s.cur := rfl

@[simp] theorem State.modPlane_bundle (s : State) (r p : Nat) (f : Plane → Plane) : (s.modPlane r p f).bundle = s.bundle := rfl

@[simp] theorem State.modPlane_turn (s : State) (r p : Nat) (f : Plane → Plane) : (s.modPlane r p f).turn = s.turn := rfl

@[simp] theorem State.modPlane_tick (s : State) (r p : Nat) (f : Plane → Plane) : (s.modPlane r p f).tick = s.tick := rfl

@[simp] theorem State.modPlane_agenda (s : State) (r p : Nat) (f : Plane → Plane) : (s.modPlane r p f).agenda = s.agenda := rfl

/-! ## modCtx changes tiles alone -/

@[simp] theorem State.modCtx_vaults (s : State) (f : Plane → Plane) : (s.modCtx f).vaults = s.vaults := rfl

@[simp] theorem State.modCtx_pkgs (s : State) (f : Plane → Plane) : (s.modCtx f).pkgs = s.pkgs := rfl

@[simp] theorem State.modCtx_jobs (s : State) (f : Plane → Plane) : (s.modCtx f).jobs = s.jobs := rfl

@[simp] theorem State.modCtx_launches (s : State) (f : Plane → Plane) : (s.modCtx f).launches = s.launches := rfl

@[simp] theorem State.modCtx_graphs (s : State) (f : Plane → Plane) : (s.modCtx f).graphs = s.graphs := rfl

@[simp] theorem State.modCtx_streams (s : State) (f : Plane → Plane) : (s.modCtx f).streams = s.streams := rfl

@[simp] theorem State.modCtx_suspended (s : State) (f : Plane → Plane) : (s.modCtx f).suspended = s.suspended := rfl

@[simp] theorem State.modCtx_mem (s : State) (f : Plane → Plane) : (s.modCtx f).mem = s.mem := rfl

@[simp] theorem State.modCtx_podTime (s : State) (f : Plane → Plane) : (s.modCtx f).podTime = s.podTime := rfl

@[simp] theorem State.modCtx_nextId (s : State) (f : Plane → Plane) : (s.modCtx f).nextId = s.nextId := rfl

@[simp] theorem State.modCtx_nextNum (s : State) (f : Plane → Plane) : (s.modCtx f).nextNum = s.nextNum := rfl

@[simp] theorem State.modCtx_cur (s : State) (f : Plane → Plane) : (s.modCtx f).cur = s.cur := rfl

@[simp] theorem State.modCtx_bundle (s : State) (f : Plane → Plane) : (s.modCtx f).bundle = s.bundle := rfl

@[simp] theorem State.modCtx_turn (s : State) (f : Plane → Plane) : (s.modCtx f).turn = s.turn := rfl

@[simp] theorem State.modCtx_tick (s : State) (f : Plane → Plane) : (s.modCtx f).tick = s.tick := rfl

@[simp] theorem State.modCtx_agenda (s : State) (f : Plane → Plane) : (s.modCtx f).agenda = s.agenda := rfl

/-! ## modRegs changes tiles alone -/

@[simp] theorem State.modRegs_vaults (s : State) (f : Regs → Regs) : (s.modRegs f).vaults = s.vaults := rfl

@[simp] theorem State.modRegs_pkgs (s : State) (f : Regs → Regs) : (s.modRegs f).pkgs = s.pkgs := rfl

@[simp] theorem State.modRegs_jobs (s : State) (f : Regs → Regs) : (s.modRegs f).jobs = s.jobs := rfl

@[simp] theorem State.modRegs_launches (s : State) (f : Regs → Regs) : (s.modRegs f).launches = s.launches := rfl

@[simp] theorem State.modRegs_graphs (s : State) (f : Regs → Regs) : (s.modRegs f).graphs = s.graphs := rfl

@[simp] theorem State.modRegs_streams (s : State) (f : Regs → Regs) : (s.modRegs f).streams = s.streams := rfl

@[simp] theorem State.modRegs_suspended (s : State) (f : Regs → Regs) : (s.modRegs f).suspended = s.suspended := rfl

@[simp] theorem State.modRegs_mem (s : State) (f : Regs → Regs) : (s.modRegs f).mem = s.mem := rfl

@[simp] theorem State.modRegs_podTime (s : State) (f : Regs → Regs) : (s.modRegs f).podTime = s.podTime := rfl

@[simp] theorem State.modRegs_nextId (s : State) (f : Regs → Regs) : (s.modRegs f).nextId = s.nextId := rfl

@[simp] theorem State.modRegs_nextNum (s : State) (f : Regs → Regs) : (s.modRegs f).nextNum = s.nextNum := rfl

@[simp] theorem State.modRegs_cur (s : State) (f : Regs → Regs) : (s.modRegs f).cur = s.cur := rfl

@[simp] theorem State.modRegs_bundle (s : State) (f : Regs → Regs) : (s.modRegs f).bundle = s.bundle := rfl

@[simp] theorem State.modRegs_turn (s : State) (f : Regs → Regs) : (s.modRegs f).turn = s.turn := rfl

@[simp] theorem State.modRegs_tick (s : State) (f : Regs → Regs) : (s.modRegs f).tick = s.tick := rfl

@[simp] theorem State.modRegs_agenda (s : State) (f : Regs → Regs) : (s.modRegs f).agenda = s.agenda := rfl

/-! ## modVault changes vaults alone -/

@[simp] theorem State.modVault_tiles (s : State) (r : Nat) (f : Vault → Vault) : (s.modVault r f).tiles = s.tiles := rfl

@[simp] theorem State.modVault_pkgs (s : State) (r : Nat) (f : Vault → Vault) : (s.modVault r f).pkgs = s.pkgs := rfl

@[simp] theorem State.modVault_jobs (s : State) (r : Nat) (f : Vault → Vault) : (s.modVault r f).jobs = s.jobs := rfl

@[simp] theorem State.modVault_launches (s : State) (r : Nat) (f : Vault → Vault) : (s.modVault r f).launches = s.launches := rfl

@[simp] theorem State.modVault_graphs (s : State) (r : Nat) (f : Vault → Vault) : (s.modVault r f).graphs = s.graphs := rfl

@[simp] theorem State.modVault_streams (s : State) (r : Nat) (f : Vault → Vault) : (s.modVault r f).streams = s.streams := rfl

@[simp] theorem State.modVault_suspended (s : State) (r : Nat) (f : Vault → Vault) : (s.modVault r f).suspended = s.suspended := rfl

@[simp] theorem State.modVault_mem (s : State) (r : Nat) (f : Vault → Vault) : (s.modVault r f).mem = s.mem := rfl

@[simp] theorem State.modVault_podTime (s : State) (r : Nat) (f : Vault → Vault) : (s.modVault r f).podTime = s.podTime := rfl

@[simp] theorem State.modVault_nextId (s : State) (r : Nat) (f : Vault → Vault) : (s.modVault r f).nextId = s.nextId := rfl

@[simp] theorem State.modVault_nextNum (s : State) (r : Nat) (f : Vault → Vault) : (s.modVault r f).nextNum = s.nextNum := rfl

@[simp] theorem State.modVault_cur (s : State) (r : Nat) (f : Vault → Vault) : (s.modVault r f).cur = s.cur := rfl

@[simp] theorem State.modVault_bundle (s : State) (r : Nat) (f : Vault → Vault) : (s.modVault r f).bundle = s.bundle := rfl

@[simp] theorem State.modVault_turn (s : State) (r : Nat) (f : Vault → Vault) : (s.modVault r f).turn = s.turn := rfl

@[simp] theorem State.modVault_tick (s : State) (r : Nat) (f : Vault → Vault) : (s.modVault r f).tick = s.tick := rfl

@[simp] theorem State.modVault_agenda (s : State) (r : Nat) (f : Vault → Vault) : (s.modVault r f).agenda = s.agenda := rfl

/-! ## modPkg changes pkgs alone -/

@[simp] theorem State.modPkg_tiles (s : State) (k : Nat) (f : Package → Package) : (s.modPkg k f).tiles = s.tiles := rfl

@[simp] theorem State.modPkg_vaults (s : State) (k : Nat) (f : Package → Package) : (s.modPkg k f).vaults = s.vaults := rfl

@[simp] theorem State.modPkg_jobs (s : State) (k : Nat) (f : Package → Package) : (s.modPkg k f).jobs = s.jobs := rfl

@[simp] theorem State.modPkg_launches (s : State) (k : Nat) (f : Package → Package) : (s.modPkg k f).launches = s.launches := rfl

@[simp] theorem State.modPkg_graphs (s : State) (k : Nat) (f : Package → Package) : (s.modPkg k f).graphs = s.graphs := rfl

@[simp] theorem State.modPkg_streams (s : State) (k : Nat) (f : Package → Package) : (s.modPkg k f).streams = s.streams := rfl

@[simp] theorem State.modPkg_suspended (s : State) (k : Nat) (f : Package → Package) : (s.modPkg k f).suspended = s.suspended := rfl

@[simp] theorem State.modPkg_mem (s : State) (k : Nat) (f : Package → Package) : (s.modPkg k f).mem = s.mem := rfl

@[simp] theorem State.modPkg_podTime (s : State) (k : Nat) (f : Package → Package) : (s.modPkg k f).podTime = s.podTime := rfl

@[simp] theorem State.modPkg_nextId (s : State) (k : Nat) (f : Package → Package) : (s.modPkg k f).nextId = s.nextId := rfl

@[simp] theorem State.modPkg_nextNum (s : State) (k : Nat) (f : Package → Package) : (s.modPkg k f).nextNum = s.nextNum := rfl

@[simp] theorem State.modPkg_cur (s : State) (k : Nat) (f : Package → Package) : (s.modPkg k f).cur = s.cur := rfl

@[simp] theorem State.modPkg_bundle (s : State) (k : Nat) (f : Package → Package) : (s.modPkg k f).bundle = s.bundle := rfl

@[simp] theorem State.modPkg_turn (s : State) (k : Nat) (f : Package → Package) : (s.modPkg k f).turn = s.turn := rfl

@[simp] theorem State.modPkg_tick (s : State) (k : Nat) (f : Package → Package) : (s.modPkg k f).tick = s.tick := rfl

@[simp] theorem State.modPkg_agenda (s : State) (k : Nat) (f : Package → Package) : (s.modPkg k f).agenda = s.agenda := rfl

/-! ## emit changes agenda alone -/

@[simp] theorem emit_tiles (s : State) (ev : Instr) : (emit s ev).tiles = s.tiles := rfl

@[simp] theorem emit_vaults (s : State) (ev : Instr) : (emit s ev).vaults = s.vaults := rfl

@[simp] theorem emit_pkgs (s : State) (ev : Instr) : (emit s ev).pkgs = s.pkgs := rfl

@[simp] theorem emit_jobs (s : State) (ev : Instr) : (emit s ev).jobs = s.jobs := rfl

@[simp] theorem emit_launches (s : State) (ev : Instr) : (emit s ev).launches = s.launches := rfl

@[simp] theorem emit_graphs (s : State) (ev : Instr) : (emit s ev).graphs = s.graphs := rfl

@[simp] theorem emit_streams (s : State) (ev : Instr) : (emit s ev).streams = s.streams := rfl

@[simp] theorem emit_suspended (s : State) (ev : Instr) : (emit s ev).suspended = s.suspended := rfl

@[simp] theorem emit_mem (s : State) (ev : Instr) : (emit s ev).mem = s.mem := rfl

@[simp] theorem emit_podTime (s : State) (ev : Instr) : (emit s ev).podTime = s.podTime := rfl

@[simp] theorem emit_nextId (s : State) (ev : Instr) : (emit s ev).nextId = s.nextId := rfl

@[simp] theorem emit_nextNum (s : State) (ev : Instr) : (emit s ev).nextNum = s.nextNum := rfl

@[simp] theorem emit_cur (s : State) (ev : Instr) : (emit s ev).cur = s.cur := rfl

@[simp] theorem emit_bundle (s : State) (ev : Instr) : (emit s ev).bundle = s.bundle := rfl

@[simp] theorem emit_turn (s : State) (ev : Instr) : (emit s ev).turn = s.turn := rfl

@[simp] theorem emit_tick (s : State) (ev : Instr) : (emit s ev).tick = s.tick := rfl

/-! ## Units after an update -/

/-- A tile that was replaced. -/
@[simp] theorem State.setTile_tile (s : State) (r : Nat) (t : Tile) : (s.setTile r t).tile r = t := by
  simp [State.tile, State.setTile]

/-- Another tile is as before. -/
theorem State.setTile_tile_ne (s : State) {r q : Nat} (t : Tile) (h : q ≠ r) : (s.setTile r t).tile q = s.tile q := by
  simp [State.tile, State.setTile, ngetD_nset_ne _ _ _ h]

/-- A tile that was changed. -/
@[simp] theorem State.modTile_tile (s : State) (r : Nat) (f : Tile → Tile) : (s.modTile r f).tile r = f (s.tile r) := by
  simp [State.modTile]

/-- Another tile is as before. -/
theorem State.modTile_tile_ne (s : State) {r q : Nat} (f : Tile → Tile) (h : q ≠ r) : (s.modTile r f).tile q = s.tile q := by
  simp [State.modTile, State.setTile_tile_ne _ _ h]

/-- The tile of a plane that was changed. -/
@[simp] theorem State.modPlane_tile (s : State) (r p : Nat) (f : Plane → Plane) :
    (s.modPlane r p f).tile r = (s.tile r).setPl p (f ((s.tile r).pl p)) := by
  simp [State.modPlane]

/-- Another tile is as before. -/
theorem State.modPlane_tile_ne (s : State) {r q : Nat} (p : Nat) (f : Plane → Plane) (h : q ≠ r) :
    (s.modPlane r p f).tile q = s.tile q := by
  simp [State.modPlane, State.modTile_tile_ne _ _ h]

/-- A plane that was replaced. -/
@[simp] theorem Tile.setPl_pl (t : Tile) (p : Nat) (x : Plane) : (t.setPl p x).pl p = x := by
  by_cases h : p = 0 <;> simp [Tile.setPl, Tile.pl, h]

/-- Replacing plane 0 leaves plane 1, and the other way round. -/
theorem Tile.setPl_pl_ne (t : Tile) {p q : Nat} (x : Plane) (h : p = 0 ↔ q ≠ 0) : (t.setPl p x).pl q = t.pl q := by
  by_cases hp : p = 0 <;> simp_all [Tile.setPl, Tile.pl]

/-- Replacing a plane by itself. -/
@[simp] theorem Tile.setPl_self (t : Tile) (p : Nat) : t.setPl p (t.pl p) = t := by
  by_cases h : p = 0 <;> simp [Tile.setPl, Tile.pl, h]

/-- The last of two replacements stands. -/
@[simp] theorem Tile.setPl_setPl (t : Tile) (p : Nat) (x y : Plane) : (t.setPl p x).setPl p y = t.setPl p y := by
  by_cases h : p = 0 <;> simp [Tile.setPl, h]

@[simp] theorem Tile.setPl_monitor (t : Tile) (p : Nat) (x : Plane) : (t.setPl p x).monitor = t.monitor := by
  by_cases h : p = 0 <;> simp [Tile.setPl, h]

@[simp] theorem Tile.setPl_running (t : Tile) (p : Nat) (x : Plane) : (t.setPl p x).running = t.running := by
  by_cases h : p = 0 <;> simp [Tile.setPl, h]

@[simp] theorem Tile.setPl_mtpcPlane (t : Tile) (p : Nat) (x : Plane) : (t.setPl p x).mtpcPlane = t.mtpcPlane := by
  by_cases h : p = 0 <;> simp [Tile.setPl, h]

@[simp] theorem Tile.setPl_ctxPlane (t : Tile) (p : Nat) (x : Plane) : (t.setPl p x).ctxPlane = t.ctxPlane := by
  simp [Tile.ctxPlane]

/-- A plane that was changed. -/
@[simp] theorem State.modPlane_plane (s : State) (r p : Nat) (f : Plane → Plane) :
    (s.modPlane r p f).plane r p = f (s.plane r p) := by
  simp [State.plane]

/-- A vault that was changed. -/
@[simp] theorem State.modVault_vault (s : State) (r : Nat) (f : Vault → Vault) : (s.modVault r f).vault r = f (s.vault r) := by
  simp [State.modVault, State.vault]

/-- Another vault is as before. -/
theorem State.modVault_vault_ne (s : State) {r q : Nat} (f : Vault → Vault) (h : q ≠ r) :
    (s.modVault r f).vault q = s.vault q := by
  simp [State.modVault, State.vault, ngetD_nset_ne _ _ _ h]

/-- A package that was changed. -/
@[simp] theorem State.modPkg_pkg (s : State) (k : Nat) (f : Package → Package) : (s.modPkg k f).pkg k = f (s.pkg k) := by
  simp [State.modPkg, State.pkg]

/-- Another package is as before. -/
theorem State.modPkg_pkg_ne (s : State) {k j : Nat} (f : Package → Package) (h : j ≠ k) : (s.modPkg k f).pkg j = s.pkg j := by
  simp [State.modPkg, State.pkg, ngetD_nset_ne _ _ _ h]

@[simp] theorem State.modPkg_tile (s : State) (k r : Nat) (f : Package → Package) : (s.modPkg k f).tile r = s.tile r := rfl

@[simp] theorem State.modVault_tile (s : State) (k r : Nat) (f : Vault → Vault) : (s.modVault k f).tile r = s.tile r := rfl

@[simp] theorem emit_tile (s : State) (ev : Instr) (r : Nat) : (emit s ev).tile r = s.tile r := rfl

@[simp] theorem State.modTile_vault (s : State) (r k : Nat) (f : Tile → Tile) : (s.modTile r f).vault k = s.vault k := rfl

@[simp] theorem State.modTile_pkg (s : State) (r k : Nat) (f : Tile → Tile) : (s.modTile r f).pkg k = s.pkg k := rfl

/-! ## The context of the current tile -/

@[simp] theorem State.modCtx_curTile (s : State) (f : Plane → Plane) :
    (s.modCtx f).curTile = s.curTile.setPl s.ctxP (f s.ctx) := by
  simp [State.modCtx, State.curTile, State.ctx]

@[simp] theorem State.modCtx_mon (s : State) (f : Plane → Plane) : (s.modCtx f).mon = s.mon := by
  simp [State.mon]

@[simp] theorem State.modCtx_ctxP (s : State) (f : Plane → Plane) : (s.modCtx f).ctxP = s.ctxP := by
  simp [State.ctxP]

@[simp] theorem State.modCtx_ctx (s : State) (f : Plane → Plane) : (s.modCtx f).ctx = f s.ctx := by
  simp [State.ctx]

@[simp] theorem State.modRegs_mon (s : State) (f : Regs → Regs) : (s.modRegs f).mon = s.mon := by
  simp [State.modRegs]

@[simp] theorem State.modRegs_ctxP (s : State) (f : Regs → Regs) : (s.modRegs f).ctxP = s.ctxP := by
  simp [State.modRegs]

@[simp] theorem State.modRegs_ctx (s : State) (f : Regs → Regs) : (s.modRegs f).ctx = { s.ctx with regs := f s.regs } := by
  simp [State.modRegs, State.regs]

@[simp] theorem State.modRegs_regs (s : State) (f : Regs → Regs) : (s.modRegs f).regs = f s.regs := by
  simp [State.regs, State.modRegs]

/-- The bank after a change of it, at either level. -/
@[simp] theorem State.modBank_bank (s : State) (f : Bank → Bank) : (s.modBank f).bank = f s.bank := by
  unfold State.modBank State.bank
  by_cases h : s.mon = true
  · simp [h, State.mon, State.curTile, State.modTile_cur] at *
    simp [h]
  · simp [h]

@[simp] theorem State.modBank_mon (s : State) (f : Bank → Bank) : (s.modBank f).mon = s.mon := by
  unfold State.modBank
  by_cases h : s.mon = true
  · simp [h, State.mon, State.curTile] at *
    simp [h]
  · simp [h]

end Sys2Proof.Machine
end

