-- ==== Sys2Proof/Laws/Agenda.lean ====
section
/-! SUPPORT. What making a step due does: it changes the agenda alone, every step that was due stays so, and the new one is. -/

namespace Sys2Proof.Machine

/-! ## emitOnce changes agenda alone -/

/-- Making a step due once adds it, or leaves the state as it was. -/
theorem emitOnce_eq (s : State) (ev : Instr) : emitOnce s ev = s ∨ emitOnce s ev = emit s ev := by
  unfold emitOnce; split
  · exact .inl rfl
  · exact .inr rfl

@[simp] theorem emitOnce_tiles (s : State) (ev : Instr) : (emitOnce s ev).tiles = s.tiles := by
  rcases emitOnce_eq s ev with h | h <;> rw [h]
  rfl

@[simp] theorem emitOnce_vaults (s : State) (ev : Instr) : (emitOnce s ev).vaults = s.vaults := by
  rcases emitOnce_eq s ev with h | h <;> rw [h]
  rfl

@[simp] theorem emitOnce_pkgs (s : State) (ev : Instr) : (emitOnce s ev).pkgs = s.pkgs := by
  rcases emitOnce_eq s ev with h | h <;> rw [h]
  rfl

@[simp] theorem emitOnce_jobs (s : State) (ev : Instr) : (emitOnce s ev).jobs = s.jobs := by
  rcases emitOnce_eq s ev with h | h <;> rw [h]
  rfl

@[simp] theorem emitOnce_launches (s : State) (ev : Instr) : (emitOnce s ev).launches = s.launches := by
  rcases emitOnce_eq s ev with h | h <;> rw [h]
  rfl

@[simp] theorem emitOnce_suspended (s : State) (ev : Instr) : (emitOnce s ev).suspended = s.suspended := by
  rcases emitOnce_eq s ev with h | h <;> rw [h]
  rfl

@[simp] theorem emitOnce_mem (s : State) (ev : Instr) : (emitOnce s ev).mem = s.mem := by
  rcases emitOnce_eq s ev with h | h <;> rw [h]
  rfl

@[simp] theorem emitOnce_cur (s : State) (ev : Instr) : (emitOnce s ev).cur = s.cur := by
  rcases emitOnce_eq s ev with h | h <;> rw [h]
  rfl

@[simp] theorem emitOnce_tile (s : State) (ev : Instr) (r : Nat) : (emitOnce s ev).tile r = s.tile r := by
  simp [State.tile]

@[simp] theorem emitOnce_pkg (s : State) (ev : Instr) (k : Nat) : (emitOnce s ev).pkg k = s.pkg k := by
  simp [State.pkg]

/-! ## emitNet changes agenda alone -/

@[simp] theorem emitNet_tiles (s : State) (a b n : Nat) (ev : Instr) : (emitNet s a b n ev).tiles = s.tiles := rfl

@[simp] theorem emitNet_vaults (s : State) (a b n : Nat) (ev : Instr) : (emitNet s a b n ev).vaults = s.vaults := rfl

@[simp] theorem emitNet_pkgs (s : State) (a b n : Nat) (ev : Instr) : (emitNet s a b n ev).pkgs = s.pkgs := rfl

@[simp] theorem emitNet_launches (s : State) (a b n : Nat) (ev : Instr) : (emitNet s a b n ev).launches = s.launches := rfl

@[simp] theorem emitNet_suspended (s : State) (a b n : Nat) (ev : Instr) : (emitNet s a b n ev).suspended = s.suspended := rfl

@[simp] theorem emitNet_mem (s : State) (a b n : Nat) (ev : Instr) : (emitNet s a b n ev).mem = s.mem := rfl

@[simp] theorem emitNet_tile (s : State) (a b n : Nat) (ev : Instr) (r : Nat) : (emitNet s a b n ev).tile r = s.tile r := rfl

@[simp] theorem emitNet_pkg (s : State) (a b n : Nat) (ev : Instr) (k : Nat) : (emitNet s a b n ev).pkg k = s.pkg k := rfl

/-! ## What is due -/

/-- A step that was made due is due. -/
theorem emit_due (s : State) (ev : Instr) : (emit s ev).Due ev := by simp [State.Due, emit]

/-- A step that was due stays so. -/
theorem emit_keeps (s : State) (ev : Instr) {i : Instr} (h : s.Due i) : (emit s ev).Due i := by
  obtain ⟨d, hd, rfl⟩ := h
  exact ⟨d, by simp [emit, hd], rfl⟩

theorem emitOnce_due (s : State) (ev : Instr) : (emitOnce s ev).Due ev := by
  unfold emitOnce; split
  · rename_i h
    simpa [State.Due] using h
  · exact emit_due s ev

theorem emitOnce_keeps (s : State) (ev : Instr) {i : Instr} (h : s.Due i) : (emitOnce s ev).Due i := by
  rcases emitOnce_eq s ev with e | e <;> rw [e]
  · exact h
  · exact emit_keeps s ev h

theorem emitNet_due (s : State) (a b n : Nat) (ev : Instr) : (emitNet s a b n ev).Due ev := by
  exact ⟨{ ev := ev, via := netVia s a b ((n + 63) / 64) }, by simp [emitNet], rfl⟩

theorem emitNet_keeps (s : State) (a b n : Nat) (ev : Instr) {i : Instr} (h : s.Due i) : (emitNet s a b n ev).Due i := by
  obtain ⟨d, hd, rfl⟩ := h
  exact ⟨d, by simp [emitNet, hd], rfl⟩

/-! ## Tiles without a speculation -/

/-- A rollback where no speculation is open changes nothing. -/
theorem rollbackOne_of_none (s : State) (r p : Nat) (c : Bool) (h : (s.plane r p).spec = none) : rollbackOne s r p c = s := by
  simp [rollbackOne, h]

theorem rollback_of_none (s : State) (r p : Nat) (c : Bool) (h : (s.plane r p).spec = none)
    (h2 : ∀ x, partnerOf s r p = some x → (s.plane x.1 x.2).spec = none) : rollback s r p c = s := by
  unfold rollback
  rw [rollbackOne_of_none s r p c h]
  simp only
  split
  · rename_i q hx
    exact rollbackOne_of_none s _ _ c (h2 _ hx)
  · rfl

/-- A tile where no speculation is open has none to give up. -/
theorem rollPlanes_of_noSpecAt {s : State} {r : Nat} (h : NoSpecAt s r) : rollPlanes s r = s := by
  unfold rollPlanes
  rw [rollback_of_none s r 0 true (h 0 (by omega)).1 (h 0 (by omega)).2]
  exact rollback_of_none s r 1 true (h 1 (by omega)).1 (h 1 (by omega)).2

/-- The cause stands in the low byte of MTCAUSE. -/
theorem mtcauseBits_cause (npc detail p slot cause : Nat) :
    (mtcauseBits npc detail p slot cause).extractLsb' 0 8 = BitVec.ofNat 8 cause := by
  have h : ∀ x : Nat, x % 2 ^ 64 % 2 ^ 8 = x % 2 ^ 8 := fun x => Nat.mod_mod_of_dvd x ⟨2 ^ 56, by norm_num⟩
  have h2 : ∀ a b c d e : Nat, (a * 2 ^ 48 + b * 2 ^ 40 + c * 2 ^ 32 + d * 2 ^ 8 + e) % 2 ^ 8 = e % 2 ^ 8 := by
    intro a b c d e
    norm_num
    omega
  unfold mtcauseBits
  apply BitVec.eq_of_toNat_eq
  rw [BitVec.extractLsb'_toNat, BitVec.toNat_ofNat, BitVec.toNat_ofNat, Nat.shiftRight_zero, h, h2]

/-- The monitor's entry is the one that the statements speak of. -/
theorem monitorEntry_entered (s : State) (r p : Nat) (t : TrapInfo) (start npc : Nat) :
    MonitorEntered (monitorEntry s r p t start npc) r p t.cause t.info start := by
  simp [MonitorEntered, monitorEntry, mtcauseBits_cause]

end Sys2Proof.Machine
end

