-- ==== Sys2Proof/Laws/Memory.lean ====
section
/-! SUPPORT. The laws of memory: a byte written is the byte read, every other byte stays, and every operation keeps the
canonical form. -/

namespace Sys2Proof.Machine

/-- The canonical form from a lower bound is that of any smaller one. -/
theorem wfFrom_none {m : List Host.Cell} {o : Option Nat} (h : Memory.wfFrom o m = true) : Memory.wf m = true := by
  cases m with
  | nil => rfl
  | cons x r =>
    obtain ⟨a, b⟩ := x
    simp only [Memory.wf, Memory.wfFrom, Bool.and_eq_true, decide_eq_true_eq] at h ⊢
    exact ⟨⟨by simp, h.1.2⟩, h.2⟩

/-- A lower bound may be lowered. -/
theorem wfFrom_mono {m : List Host.Cell} {a b : Nat} (hab : b ≤ a) (h : Memory.wfFrom (some a) m = true) :
    Memory.wfFrom (some b) m = true := by
  cases m with
  | nil => rfl
  | cons x r =>
    obtain ⟨c, v⟩ := x
    simp only [Memory.wfFrom, Bool.and_eq_true, decide_eq_true_eq, Option.mem_def, Option.some.injEq, forall_eq'] at h ⊢
    exact ⟨⟨lt_of_le_of_lt hab h.1.1, h.1.2⟩, h.2⟩

/-- Below its lower bound a memory in canonical form reads zero. -/
theorem memGet_below {m : List Host.Cell} {a k : Nat} (h : Memory.wfFrom (some a) m = true) (hk : k ≤ a) :
    memGet m k = 0 := by
  induction m generalizing a with
  | nil => rfl
  | cons x r ih =>
    obtain ⟨c, v⟩ := x
    simp only [Memory.wfFrom, Bool.and_eq_true, decide_eq_true_eq, Option.mem_def, Option.some.injEq, forall_eq'] at h
    have hc : c ≠ k := by omega
    simp only [memGet, hc, if_false]
    exact ih h.2 (by omega)

/-- Another byte is as before. -/
theorem memGet_memPut_ne (m : List Host.Cell) {k j : Nat} (b : Byte) (h : j ≠ k) :
    memGet (memPut m k b) j = memGet m j := by
  induction m with
  | nil =>
    simp only [memPut]
    split <;> simp [memGet, Ne.symm h]
  | cons x r ih =>
    obtain ⟨a, c⟩ := x
    simp only [memPut]
    split
    · split <;> simp [memGet, Ne.symm h]
    · split
      · subst_vars
        split <;> simp [memGet, Ne.symm h]
      · simp [memGet, ih]

/-- Writing a byte keeps a lower bound that lies below it. -/
theorem wfFrom_memPut {m : List Host.Cell} {o : Option Nat} {k : Nat} {b : Byte} (h : Memory.wfFrom o m = true)
    (hk : ∀ l ∈ o, l < k) : Memory.wfFrom o (memPut m k b) = true := by
  induction m generalizing o with
  | nil =>
    simp only [memPut]
    split
    · rfl
    · rename_i hb
      simp only [Memory.wfFrom, Bool.and_eq_true, decide_eq_true_eq]
      exact ⟨⟨hk, hb⟩, trivial⟩
  | cons x r ih =>
    obtain ⟨a, c⟩ := x
    simp only [Memory.wfFrom, Bool.and_eq_true, decide_eq_true_eq] at h
    simp only [memPut]
    split
    · rename_i hlt
      split
      · simp only [Memory.wfFrom, Bool.and_eq_true, decide_eq_true_eq]; exact h
      · rename_i hb
        simp only [Memory.wfFrom, Bool.and_eq_true, decide_eq_true_eq]
        refine ⟨⟨hk, hb⟩, ⟨?_, h.1.2⟩, h.2⟩
        simpa using hlt
    · split
      · subst_vars
        split
        · cases r with
          | nil => rfl
          | cons y r =>
            obtain ⟨d, e⟩ := y
            have h2 := h.2
            simp only [Memory.wfFrom, Bool.and_eq_true, decide_eq_true_eq, Option.mem_def, Option.some.injEq, forall_eq'] at h2 ⊢
            refine ⟨⟨?_, h2.1.2⟩, h2.2⟩
            intro l hl
            exact lt_trans (hk l hl) h2.1.1
        · rename_i hb
          simp only [Memory.wfFrom, Bool.and_eq_true, decide_eq_true_eq]
          exact ⟨⟨hk, hb⟩, h.2⟩
      · rename_i h1 h2
        simp only [Memory.wfFrom, Bool.and_eq_true, decide_eq_true_eq]
        refine ⟨h.1, ih h.2 ?_⟩
        simp only [Option.mem_def, Option.some.injEq, forall_eq']
        omega

/-- Writing a byte keeps the canonical form. -/
theorem wf_memPut {m : List Host.Cell} {k : Nat} {b : Byte} (h : Memory.wf m = true) : Memory.wf (memPut m k b) = true :=
  wfFrom_memPut h (by simp)

/-- The byte written is the byte read. -/
theorem memGet_memPut_self {m : List Host.Cell} {k : Nat} {b : Byte} (h : Memory.wf m = true) :
    memGet (memPut m k b) k = b := by
  suffices H : ∀ o, Memory.wfFrom o m = true → memGet (memPut m k b) k = b from H none h
  clear h
  induction m with
  | nil =>
    intro o _
    simp only [memPut]
    split
    · simp_all [memGet]
    · simp [memGet]
  | cons x r ih =>
    intro o h
    obtain ⟨a, c⟩ := x
    simp only [Memory.wfFrom, Bool.and_eq_true, decide_eq_true_eq] at h
    simp only [memPut]
    split
    · rename_i hlt
      split
      · rename_i hb
        simp only [memGet, hb, show a ≠ k by omega, if_false]
        exact memGet_below h.2 (by omega)
      · simp [memGet]
    · split
      · subst_vars
        split
        · rename_i hb; rw [hb]; exact memGet_below h.2 (le_refl _)
        · simp [memGet]
      · rename_i h1 h2
        simp only [memGet, show a ≠ k from fun e => h2 e.symm, if_false]
        exact ih _ h.2

/-- Writing a byte list keeps the canonical form. -/
theorem wf_memWrite {m : List Host.Cell} {a : Nat} {bs : List Byte} (h : Memory.wf m = true) :
    Memory.wf (memWrite m a bs) = true := by
  induction bs generalizing m a with
  | nil => exact h
  | cons b r ih => exact ih (wf_memPut h)

/-- A byte outside a write is as before. -/
theorem memGet_memWrite_out (m : List Host.Cell) {a j : Nat} (bs : List Byte) (h : j < a ∨ a + bs.length ≤ j) :
    memGet (memWrite m a bs) j = memGet m j := by
  induction bs generalizing m a with
  | nil => rfl
  | cons b r ih =>
    simp only [List.length_cons] at h
    simp only [memWrite]
    rw [ih _ (by omega), memGet_memPut_ne _ _ (by omega)]

/-- A byte inside a write is the byte written. -/
theorem memGet_memWrite_in {m : List Host.Cell} {a j : Nat} {bs : List Byte} (hw : Memory.wf m = true) (h1 : a ≤ j)
    (h2 : j < a + bs.length) : memGet (memWrite m a bs) j = (bs[j - a]?).getD 0 := by
  induction bs generalizing m a with
  | nil => simp at h2; omega
  | cons b r ih =>
    simp only [List.length_cons] at h2
    simp only [memWrite]
    by_cases hj : j = a
    · subst hj
      rw [memGet_memWrite_out _ _ (by omega), memGet_memPut_self hw]
      simp
    · rw [ih (wf_memPut hw) (by omega) (by omega)]
      rw [show j - a = j - (a + 1) + 1 by omega, List.getElem?_cons_succ]

/-- As many bytes are read as asked for. -/
@[simp] theorem memRead_length (m : List Host.Cell) (a n : Nat) : (memRead m a n).length = n := by
  induction n generalizing a with
  | zero => rfl
  | succ n ih => simp [memRead, ih]

/-- The bytes read are those of their addresses. -/
theorem memRead_getElem? (m : List Host.Cell) (a n i : Nat) (h : i < n) : (memRead m a n)[i]? = some (memGet m (a + i)) := by
  induction n generalizing a i with
  | zero => omega
  | succ n ih =>
    cases i with
    | zero => simp [memRead]
    | succ i =>
      simp only [memRead, List.getElem?_cons_succ]
      rw [ih (a + 1) i (by omega)]
      congr 2; omega

/-- What was written is read back. -/
theorem memRead_memWrite {m : List Host.Cell} {a : Nat} {bs : List Byte} (h : Memory.wf m = true) :
    memRead (memWrite m a bs) a bs.length = bs := by
  apply List.ext_getElem?
  intro i
  by_cases hi : i < bs.length
  · rw [memRead_getElem? _ _ _ _ hi, memGet_memWrite_in h (by omega) (by omega)]
    simp [hi]
  · rw [List.getElem?_eq_none (by simpa using hi), List.getElem?_eq_none (by omega)]

/-- A fold of byte writes keeps the canonical form. -/
theorem wf_foldl_memPut {α : Type} (l : List α) (f : α → Nat) (g : α → Byte) {m : List Host.Cell} (h : Memory.wf m = true) :
    Memory.wf (l.foldl (fun m x => memPut m (f x) (g x)) m) = true := by
  induction l generalizing m with
  | nil => exact h
  | cons x r ih => exact ih (wf_memPut h)

/-- A lower bound under which a memory stands holds for what is left of it. -/
theorem wfFrom_filter {m : List Host.Cell} {o : Option Nat} (f : Host.Cell → Bool) (h : Memory.wfFrom o m = true) :
    Memory.wfFrom o (m.filter f) = true := by
  induction m generalizing o with
  | nil => rfl
  | cons x r ih =>
    obtain ⟨a, b⟩ := x
    simp only [Memory.wfFrom, Bool.and_eq_true, decide_eq_true_eq] at h
    rw [List.filter_cons]
    split
    · simp only [Memory.wfFrom, Bool.and_eq_true, decide_eq_true_eq]
      exact ⟨h.1, ih h.2⟩
    · cases o with
      | none => exact wfFrom_none (ih h.2)
      | some l =>
        have hl : l < a := by simpa using h.1.1
        exact wfFrom_mono (Nat.le_of_lt hl) (ih h.2)

/-- Clearing bytes keeps the canonical form. -/
theorem wf_memClear {m : List Host.Cell} (a n : Nat) (h : Memory.wf m = true) : Memory.wf (memClear m a n) = true :=
  wfFrom_filter _ h

/-- A cleared byte reads zero. -/
theorem memGet_memClear_in (m : List Host.Cell) {a n j : Nat} (h1 : a ≤ j) (h2 : j < a + n) :
    memGet (memClear m a n) j = 0 := by
  induction m with
  | nil => rfl
  | cons x r ih =>
    obtain ⟨c, b⟩ := x
    simp only [memClear, List.filter_cons] at ih ⊢
    split
    · rename_i hc
      have hcj : c ≠ j := by simp only [decide_eq_true_eq] at hc; omega
      simp only [memGet, hcj, if_false]; exact ih
    · exact ih

/-- A byte outside those that are cleared is as before. -/
theorem memGet_memClear_out (m : List Host.Cell) {a n j : Nat} (h : j < a ∨ a + n ≤ j) :
    memGet (memClear m a n) j = memGet m j := by
  induction m with
  | nil => rfl
  | cons x r ih =>
    obtain ⟨c, b⟩ := x
    simp only [memClear, List.filter_cons] at ih ⊢
    split
    · simp only [memGet, ih]
    · rename_i hc
      have hcj : c ≠ j := by simp only [decide_eq_true_eq] at hc; omega
      simp only [memGet, hcj, if_false]; exact ih

end Sys2Proof.Machine
end

