-- ==== Sys2Proof/Laws/PerInstr.lean ====
section
/-! SUPPORT. The encodings, instruction by instruction: a well-formed instruction's word has 32 bits and its class in
[31:30] (R151), and a step that has no word has the word 0. -/

set_option Elab.async false

namespace Sys2Proof.Laws

/-- A truth value as a number is 0 or 1. -/
theorem toNat_le_one (b : Bool) : b.toNat ≤ 1 := by cases b <;> decide

/-! ## The fields of each layout stand below its opcode, and the guard in [29:27] -/


/-- The word fields of layout CR. -/
theorem CR_place {f : CR} (h : f.wf = true) : f.g < 8 ∧ ∃ k, k < 2 ^ 21 ∧ f.place = f.g * 2 ^ 27 + k := by
  simp only [CR.wf, decide_eq_true_eq] at h
  refine ⟨by omega, f.place - f.g * 2 ^ 27, ?_, ?_⟩ <;> simp only [CR.place] <;> omega

/-- The word fields of layout CW. -/
theorem CW_place {f : CW} (h : f.wf = true) : f.g < 8 ∧ ∃ k, k < 2 ^ 21 ∧ f.place = f.g * 2 ^ 27 + k := by
  have := toNat_le_one f.la
  simp only [CW.wf, decide_eq_true_eq] at h
  refine ⟨by omega, f.place - f.g * 2 ^ 27, ?_, ?_⟩ <;> simp only [CW.place] <;> omega

/-- The word fields of layout G0. -/
theorem G0_place {f : G0} (h : f.wf = true) : f.g < 8 ∧ ∃ k, k < 2 ^ 21 ∧ f.place = f.g * 2 ^ 27 + k := by
  simp only [G0.wf, decide_eq_true_eq] at h
  refine ⟨by omega, f.place - f.g * 2 ^ 27, ?_, ?_⟩ <;> simp only [G0.place] <;> omega

/-- The word fields of layout GB. -/
theorem GB_place {f : GB} (h : f.wf = true) : f.g < 8 ∧ ∃ k, k < 2 ^ 21 ∧ f.place = f.g * 2 ^ 27 + k := by
  simp only [GB.wf, decide_eq_true_eq] at h
  refine ⟨by omega, f.place - f.g * 2 ^ 27, ?_, ?_⟩ <;> simp only [GB.place] <;> omega

/-- The word fields of layout GF. -/
theorem GF_place {f : GF} (h : f.wf = true) : f.g < 8 ∧ ∃ k, k < 2 ^ 21 ∧ f.place = f.g * 2 ^ 27 + k := by
  simp only [GF.wf, decide_eq_true_eq] at h
  refine ⟨by omega, f.place - f.g * 2 ^ 27, ?_, ?_⟩ <;> simp only [GF.place] <;> omega

/-- The word fields of layout I3. -/
theorem I3_place {f : I3} (h : f.wf = true) : f.g < 8 ∧ ∃ k, k < 2 ^ 21 ∧ f.place = f.g * 2 ^ 27 + k := by
  have := toNat_le_one f.la
  simp only [I3.wf, Bool.and_eq_true, decide_eq_true_eq] at h
  refine ⟨by omega, f.place - f.g * 2 ^ 27, ?_, ?_⟩ <;> simp only [I3.place, Imm.low] <;> omega

/-- The word fields of layout ID. -/
theorem ID_place {f : ID} (h : f.wf = true) : f.g < 8 ∧ ∃ k, k < 2 ^ 21 ∧ f.place = f.g * 2 ^ 27 + k := by
  simp only [ID.wf, Bool.and_eq_true, decide_eq_true_eq] at h
  refine ⟨by omega, f.place - f.g * 2 ^ 27, ?_, ?_⟩ <;> simp only [ID.place, Imm.low] <;> omega

/-- The word fields of layout IU. -/
theorem IU_place {f : IU} (h : f.wf = true) : f.g < 8 ∧ ∃ k, k < 2 ^ 21 ∧ f.place = f.g * 2 ^ 27 + k := by
  simp only [IU.wf, Bool.and_eq_true, decide_eq_true_eq] at h
  refine ⟨by omega, f.place - f.g * 2 ^ 27, ?_, ?_⟩ <;> simp only [IU.place, Imm.low] <;> omega

/-- The word fields of layout IX. -/
theorem IX_place {f : IX} (h : f.wf = true) : f.g < 8 ∧ ∃ k, k < 2 ^ 21 ∧ f.place = f.g * 2 ^ 27 + k := by
  simp only [IX.wf, Bool.and_eq_true, decide_eq_true_eq] at h
  refine ⟨by omega, f.place - f.g * 2 ^ 27, ?_, ?_⟩ <;> simp only [IX.place, Imm.low] <;> omega

/-- The word fields of layout IXG. -/
theorem IXG_place {f : IXG} (h : f.wf = true) : f.g < 8 ∧ ∃ k, k < 2 ^ 21 ∧ f.place = f.g * 2 ^ 27 + k := by
  simp only [IXG.wf, decide_eq_true_eq] at h
  refine ⟨by omega, f.place - f.g * 2 ^ 27, ?_, ?_⟩ <;> simp only [IXG.place] <;> omega

/-- The word fields of layout MA. -/
theorem MA_place {f : MA} (h : f.wf = true) : f.g < 8 ∧ ∃ k, k < 2 ^ 21 ∧ f.place = f.g * 2 ^ 27 + k := by
  have := toNat_le_one f.w
  simp only [MA.wf, decide_eq_true_eq] at h
  refine ⟨by omega, f.place - f.g * 2 ^ 27, ?_, ?_⟩ <;> simp only [MA.place] <;> omega

/-- The word fields of layout MAF. -/
theorem MAF_place {f : MAF} (h : f.wf = true) : f.g < 8 ∧ ∃ k, k < 2 ^ 21 ∧ f.place = f.g * 2 ^ 27 + k := by
  simp only [MAF.wf, decide_eq_true_eq] at h
  refine ⟨by omega, f.place - f.g * 2 ^ 27, ?_, ?_⟩ <;> simp only [MAF.place] <;> omega

/-- The word fields of layout MC. -/
theorem MC_place {f : MC} (h : f.wf = true) : f.g < 8 ∧ ∃ k, k < 2 ^ 21 ∧ f.place = f.g * 2 ^ 27 + k := by
  simp only [MC.wf, Bool.and_eq_true, decide_eq_true_eq] at h
  refine ⟨by omega, f.place - f.g * 2 ^ 27, ?_, ?_⟩ <;> simp only [MC.place, Imm.low] <;> omega

/-- The word fields of layout MF. -/
theorem MF_place {f : MF} (h : f.wf = true) : f.g < 8 ∧ ∃ k, k < 2 ^ 21 ∧ f.place = f.g * 2 ^ 27 + k := by
  simp only [MF.wf, decide_eq_true_eq] at h
  refine ⟨by omega, f.place - f.g * 2 ^ 27, ?_, ?_⟩ <;> simp only [MF.place] <;> omega

/-- The word fields of layout MFp. -/
theorem MFp_place {f : MFp} (h : f.wf = true) : f.g < 8 ∧ ∃ k, k < 2 ^ 21 ∧ f.place = f.g * 2 ^ 27 + k := by
  simp only [MFp.wf, decide_eq_true_eq] at h
  refine ⟨by omega, f.place - f.g * 2 ^ 27, ?_, ?_⟩ <;> simp only [MFp.place] <;> omega

/-- The word fields of layout MFs. -/
theorem MFs_place {f : MFs} (h : f.wf = true) : f.g < 8 ∧ ∃ k, k < 2 ^ 21 ∧ f.place = f.g * 2 ^ 27 + k := by
  simp only [MFs.wf, decide_eq_true_eq] at h
  refine ⟨by omega, f.place - f.g * 2 ^ 27, ?_, ?_⟩ <;> simp only [MFs.place] <;> omega

/-- The word fields of layout MFs2. -/
theorem MFs2_place {f : MFs2} (h : f.wf = true) : f.g < 8 ∧ ∃ k, k < 2 ^ 21 ∧ f.place = f.g * 2 ^ 27 + k := by
  simp only [MFs2.wf, decide_eq_true_eq] at h
  refine ⟨by omega, f.place - f.g * 2 ^ 27, ?_, ?_⟩ <;> simp only [MFs2.place] <;> omega

/-- The word fields of layout ML. -/
theorem ML_place {f : ML} (h : f.wf = true) : f.g < 8 ∧ ∃ k, k < 2 ^ 21 ∧ f.place = f.g * 2 ^ 27 + k := by
  simp only [ML.wf, Bool.and_eq_true, decide_eq_true_eq] at h
  refine ⟨by omega, f.place - f.g * 2 ^ 27, ?_, ?_⟩ <;> simp only [ML.place, Imm.low] <;> omega

/-- The word fields of layout MMm. -/
theorem MMm_place {f : MMm} (h : f.wf = true) : f.g < 8 ∧ ∃ k, k < 2 ^ 21 ∧ f.place = f.g * 2 ^ 27 + k := by
  simp only [MMm.wf, decide_eq_true_eq] at h
  refine ⟨by omega, f.place - f.g * 2 ^ 27, ?_, ?_⟩ <;> simp only [MMm.place] <;> omega

/-- The word fields of layout MMs. -/
theorem MMs_place {f : MMs} (h : f.wf = true) : f.g < 8 ∧ ∃ k, k < 2 ^ 21 ∧ f.place = f.g * 2 ^ 27 + k := by
  have := toNat_le_one f.sat
  simp only [MMs.wf, decide_eq_true_eq] at h
  refine ⟨by omega, f.place - f.g * 2 ^ 27, ?_, ?_⟩ <;> simp only [MMs.place] <;> omega

/-- The word fields of layout MS. -/
theorem MS_place {f : MS} (h : f.wf = true) : f.g < 8 ∧ ∃ k, k < 2 ^ 21 ∧ f.place = f.g * 2 ^ 27 + k := by
  simp only [MS.wf, decide_eq_true_eq] at h
  refine ⟨by omega, f.place - f.g * 2 ^ 27, ?_, ?_⟩ <;> simp only [MS.place] <;> omega

/-- The word fields of layout MSt. -/
theorem MSt_place {f : MSt} (h : f.wf = true) : f.g < 8 ∧ ∃ k, k < 2 ^ 21 ∧ f.place = f.g * 2 ^ 27 + k := by
  have := toNat_le_one f.h
  simp only [MSt.wf, decide_eq_true_eq] at h
  refine ⟨by omega, f.place - f.g * 2 ^ 27, ?_, ?_⟩ <;> simp only [MSt.place] <;> omega

/-- The word fields of layout MTa. -/
theorem MTa_place {f : MTa} (h : f.wf = true) : f.g < 8 ∧ ∃ k, k < 2 ^ 21 ∧ f.place = f.g * 2 ^ 27 + k := by
  have := toNat_le_one f.sat
  simp only [MTa.wf, decide_eq_true_eq] at h
  refine ⟨by omega, f.place - f.g * 2 ^ 27, ?_, ?_⟩ <;> simp only [MTa.place] <;> omega

/-- The word fields of layout MTd. -/
theorem MTd_place {f : MTd} (h : f.wf = true) : f.g < 8 ∧ ∃ k, k < 2 ^ 21 ∧ f.place = f.g * 2 ^ 27 + k := by
  have := toNat_le_one f.er
  have := toNat_le_one f.ec
  simp only [MTd.wf, Bool.and_eq_true, decide_eq_true_eq] at h
  refine ⟨by omega, f.place - f.g * 2 ^ 27, ?_, ?_⟩ <;> simp only [MTd.place, Imm.low] <;> omega

/-- The word fields of layout MV. -/
theorem MV_place {f : MV} (h : f.wf = true) : f.g < 8 ∧ ∃ k, k < 2 ^ 21 ∧ f.place = f.g * 2 ^ 27 + k := by
  simp only [MV.wf, Bool.and_eq_true, decide_eq_true_eq] at h
  refine ⟨by omega, f.place - f.g * 2 ^ 27, ?_, ?_⟩ <;> simp only [MV.place, Imm.low] <;> omega

/-- The word fields of layout MX. -/
theorem MX_place {f : MX} (h : f.wf = true) : f.g < 8 ∧ ∃ k, k < 2 ^ 21 ∧ f.place = f.g * 2 ^ 27 + k := by
  simp only [MX.wf, decide_eq_true_eq] at h
  refine ⟨by omega, f.place - f.g * 2 ^ 27, ?_, ?_⟩ <;> simp only [MX.place] <;> omega

/-- The word fields of layout MXF. -/
theorem MXF_place {f : MXF} (h : f.wf = true) : f.g < 8 ∧ ∃ k, k < 2 ^ 21 ∧ f.place = f.g * 2 ^ 27 + k := by
  simp only [MXF.wf, decide_eq_true_eq] at h
  refine ⟨by omega, f.place - f.g * 2 ^ 27, ?_, ?_⟩ <;> simp only [MXF.place] <;> omega

/-- The word fields of layout MZ. -/
theorem MZ_place {f : MZ} (h : f.wf = true) : f.g < 8 ∧ ∃ k, k < 2 ^ 21 ∧ f.place = f.g * 2 ^ 27 + k := by
  have := toNat_le_one f.mode
  simp only [MZ.wf, decide_eq_true_eq] at h
  refine ⟨by omega, f.place - f.g * 2 ^ 27, ?_, ?_⟩ <;> simp only [MZ.place] <;> omega

/-- The word fields of layout P2. -/
theorem P2_place {f : P2} (h : f.wf = true) : f.g < 8 ∧ ∃ k, k < 2 ^ 21 ∧ f.place = f.g * 2 ^ 27 + k := by
  simp only [P2.wf, decide_eq_true_eq] at h
  refine ⟨by omega, f.place - f.g * 2 ^ 27, ?_, ?_⟩ <;> simp only [P2.place] <;> omega

/-- The word fields of layout P3. -/
theorem P3_place {f : P3} (h : f.wf = true) : f.g < 8 ∧ ∃ k, k < 2 ^ 21 ∧ f.place = f.g * 2 ^ 27 + k := by
  simp only [P3.wf, decide_eq_true_eq] at h
  refine ⟨by omega, f.place - f.g * 2 ^ 27, ?_, ?_⟩ <;> simp only [P3.place] <;> omega

/-- The word fields of layout R2. -/
theorem R2_place {f : R2} (h : f.wf = true) : f.g < 8 ∧ ∃ k, k < 2 ^ 21 ∧ f.place = f.g * 2 ^ 27 + k := by
  have := toNat_le_one f.la
  simp only [R2.wf, decide_eq_true_eq] at h
  refine ⟨by omega, f.place - f.g * 2 ^ 27, ?_, ?_⟩ <;> simp only [R2.place] <;> omega

/-- The word fields of layout R3. -/
theorem R3_place {f : R3} (h : f.wf = true) : f.g < 8 ∧ ∃ k, k < 2 ^ 21 ∧ f.place = f.g * 2 ^ 27 + k := by
  have := toNat_le_one f.la
  have := toNat_le_one f.lb
  simp only [R3.wf, decide_eq_true_eq] at h
  refine ⟨by omega, f.place - f.g * 2 ^ 27, ?_, ?_⟩ <;> simp only [R3.place] <;> omega

/-- The word fields of layout RA. -/
theorem RA_place {f : RA} (h : f.wf = true) : f.g < 8 ∧ ∃ k, k < 2 ^ 21 ∧ f.place = f.g * 2 ^ 27 + k := by
  have := toNat_le_one f.la
  simp only [RA.wf, decide_eq_true_eq] at h
  refine ⟨by omega, f.place - f.g * 2 ^ 27, ?_, ?_⟩ <;> simp only [RA.place] <;> omega

/-- The word fields of layout RAB. -/
theorem RAB_place {f : RAB} (h : f.wf = true) : f.g < 8 ∧ ∃ k, k < 2 ^ 21 ∧ f.place = f.g * 2 ^ 27 + k := by
  have := toNat_le_one f.la
  have := toNat_le_one f.lb
  simp only [RAB.wf, decide_eq_true_eq] at h
  refine ⟨by omega, f.place - f.g * 2 ^ 27, ?_, ?_⟩ <;> simp only [RAB.place] <;> omega

/-- The word fields of layout RSel. -/
theorem RSel_place {f : RSel} (h : f.wf = true) : f.g < 8 ∧ ∃ k, k < 2 ^ 21 ∧ f.place = f.g * 2 ^ 27 + k := by
  have := toNat_le_one f.la
  have := toNat_le_one f.lb
  simp only [RSel.wf, decide_eq_true_eq] at h
  refine ⟨by omega, f.place - f.g * 2 ^ 27, ?_, ?_⟩ <;> simp only [RSel.place] <;> omega

/-- The word fields of layout SB. -/
theorem SB_place {f : SB} (h : f.wf = true) : f.g < 8 ∧ ∃ k, k < 2 ^ 21 ∧ f.place = f.g * 2 ^ 27 + k := by
  simp only [SB.wf, Bool.and_eq_true, decide_eq_true_eq] at h
  refine ⟨by omega, f.place - f.g * 2 ^ 27, ?_, ?_⟩ <;> simp only [SB.place, Imm.low] <;> omega

/-- The word fields of layout V2. -/
theorem V2_place {f : V2} (h : f.wf = true) : f.g < 8 ∧ ∃ k, k < 2 ^ 20 ∧ f.place = f.g * 2 ^ 27 + k := by
  have := toNat_le_one f.la
  simp only [V2.wf, Bool.and_eq_true, decide_eq_true_eq] at h
  refine ⟨by omega, f.place - f.g * 2 ^ 27, ?_, ?_⟩ <;> simp only [V2.place] <;> omega

/-- The word fields of layout V3. -/
theorem V3_place {f : V3} (h : f.wf = true) : f.g < 8 ∧ ∃ k, k < 2 ^ 20 ∧ f.place = f.g * 2 ^ 27 + k := by
  have := toNat_le_one f.la
  have := toNat_le_one f.lb
  simp only [V3.wf, Bool.and_eq_true, decide_eq_true_eq] at h
  refine ⟨by omega, f.place - f.g * 2 ^ 27, ?_, ?_⟩ <;> simp only [V3.place] <;> omega

/-- The word fields of layout VAX. -/
theorem VAX_place {f : VAX} (h : f.wf = true) : f.g < 8 ∧ ∃ k, k < 2 ^ 20 ∧ f.place = f.g * 2 ^ 27 + k := by
  have := toNat_le_one f.la
  simp only [VAX.wf, Bool.and_eq_true, decide_eq_true_eq] at h
  refine ⟨by omega, f.place - f.g * 2 ^ 27, ?_, ?_⟩ <;> simp only [VAX.place] <;> omega

/-- The word fields of layout VC. -/
theorem VC_place {f : VC} (h : f.wf = true) : f.g < 8 ∧ ∃ k, k < 2 ^ 20 ∧ f.place = f.g * 2 ^ 27 + k := by
  have := toNat_le_one f.la
  have := toNat_le_one f.lb
  simp only [VC.wf, Bool.and_eq_true, decide_eq_true_eq] at h
  refine ⟨by omega, f.place - f.g * 2 ^ 27, ?_, ?_⟩ <;> simp only [VC.place] <;> omega

/-- The word fields of layout VCv. -/
theorem VCv_place {f : VCv} (h : f.wf = true) : f.g < 8 ∧ ∃ k, k < 2 ^ 20 ∧ f.place = f.g * 2 ^ 27 + k := by
  have := toNat_le_one f.sat
  have := toNat_le_one f.alt
  have := toNat_le_one f.la
  simp only [VCv.wf, Bool.and_eq_true, decide_eq_true_eq] at h
  refine ⟨by omega, f.place - f.g * 2 ^ 27, ?_, ?_⟩ <;> simp only [VCv.place] <;> omega

/-- The word fields of layout VE. -/
theorem VE_place {f : VE} (h : f.wf = true) : f.g < 8 ∧ ∃ k, k < 2 ^ 20 ∧ f.place = f.g * 2 ^ 27 + k := by
  have := toNat_le_one f.la
  simp only [VE.wf, Bool.and_eq_true, decide_eq_true_eq] at h
  refine ⟨by omega, f.place - f.g * 2 ^ 27, ?_, ?_⟩ <;> simp only [VE.place] <;> omega

/-- The word fields of layout VL. -/
theorem VL_place {f : VL} (h : f.wf = true) : f.g < 8 ∧ ∃ k, k < 2 ^ 20 ∧ f.place = f.g * 2 ^ 27 + k := by
  simp only [VL.wf, Bool.and_eq_true, decide_eq_true_eq] at h
  refine ⟨by omega, f.place - f.g * 2 ^ 27, ?_, ?_⟩ <;> simp only [VL.place] <;> omega

/-- The word fields of layout VX. -/
theorem VX_place {f : VX} (h : f.wf = true) : f.g < 8 ∧ ∃ k, k < 2 ^ 20 ∧ f.place = f.g * 2 ^ 27 + k := by
  simp only [VX.wf, Bool.and_eq_true, decide_eq_true_eq] at h
  refine ⟨by omega, f.place - f.g * 2 ^ 27, ?_, ?_⟩ <;> simp only [VX.place] <;> omega

/-- The word fields of layout VXX. -/
theorem VXX_place {f : VXX} (h : f.wf = true) : f.g < 8 ∧ ∃ k, k < 2 ^ 20 ∧ f.place = f.g * 2 ^ 27 + k := by
  simp only [VXX.wf, Bool.and_eq_true, decide_eq_true_eq] at h
  refine ⟨by omega, f.place - f.g * 2 ^ 27, ?_, ?_⟩ <;> simp only [VXX.place] <;> omega

/-! ## Words by class -/

/-- The facts of an S word. -/
theorem sWord_facts {op g k : Nat} (ho : op < 64) (hg : g < 8) (hk : k < 2 ^ 21) :
    sWord op (g * 2 ^ 27 + k) < 2 ^ 32 ∧ sWord op (g * 2 ^ 27 + k) / 2 ^ 30 = 0 := by
  unfold sWord; omega

/-- The facts of a V word. -/
theorem vWord_facts {op g k : Nat} (ho : op < 128) (hg : g < 8) (hk : k < 2 ^ 20) :
    vWord op (g * 2 ^ 27 + k) < 2 ^ 32 ∧ vWord op (g * 2 ^ 27 + k) / 2 ^ 30 = 1 := by
  unfold vWord; omega

/-- The facts of an M word. -/
theorem mWord_facts {op g k : Nat} (ho : op < 64) (hg : g < 8) (hk : k < 2 ^ 21) :
    mWord op (g * 2 ^ 27 + k) < 2 ^ 32 ∧ mWord op (g * 2 ^ 27 + k) / 2 ^ 30 = 2 := by
  unfold mWord; omega

namespace Encoding

/-- What the family says of an instruction: its word has 32 bits, with its class in [31:30], or it is a step without a
word, and its word is 0. -/
def Statement (i : Instr) : Prop :=
  i.wf = true → match i.cls with
    | some c => i.word < 2 ^ 32 ∧ i.word / 2 ^ 30 = c
    | none => i.word = 0


theorem add (f : R3) : Statement (.add f) := by
  intro h
  obtain ⟨hg, k, hk, e⟩ := R3_place (f := f) h
  simp only [Instr.cls, Instr.word, e]
  exact sWord_facts (by decide) hg hk

theorem sub (f : R3) : Statement (.sub f) := by
  intro h
  obtain ⟨hg, k, hk, e⟩ := R3_place (f := f) h
  simp only [Instr.cls, Instr.word, e]
  exact sWord_facts (by decide) hg hk

theorem and (f : R3) : Statement (.and f) := by
  intro h
  obtain ⟨hg, k, hk, e⟩ := R3_place (f := f) h
  simp only [Instr.cls, Instr.word, e]
  exact sWord_facts (by decide) hg hk

theorem or (f : R3) : Statement (.or f) := by
  intro h
  obtain ⟨hg, k, hk, e⟩ := R3_place (f := f) h
  simp only [Instr.cls, Instr.word, e]
  exact sWord_facts (by decide) hg hk

theorem xor (f : R3) : Statement (.xor f) := by
  intro h
  obtain ⟨hg, k, hk, e⟩ := R3_place (f := f) h
  simp only [Instr.cls, Instr.word, e]
  exact sWord_facts (by decide) hg hk

theorem shl (f : R3) : Statement (.shl f) := by
  intro h
  obtain ⟨hg, k, hk, e⟩ := R3_place (f := f) h
  simp only [Instr.cls, Instr.word, e]
  exact sWord_facts (by decide) hg hk

theorem shr (f : R3) : Statement (.shr f) := by
  intro h
  obtain ⟨hg, k, hk, e⟩ := R3_place (f := f) h
  simp only [Instr.cls, Instr.word, e]
  exact sWord_facts (by decide) hg hk

theorem sra (f : R3) : Statement (.sra f) := by
  intro h
  obtain ⟨hg, k, hk, e⟩ := R3_place (f := f) h
  simp only [Instr.cls, Instr.word, e]
  exact sWord_facts (by decide) hg hk

theorem mul (f : R3) : Statement (.mul f) := by
  intro h
  obtain ⟨hg, k, hk, e⟩ := R3_place (f := f) h
  simp only [Instr.cls, Instr.word, e]
  exact sWord_facts (by decide) hg hk

theorem mulh (f : R3) : Statement (.mulh f) := by
  intro h
  obtain ⟨hg, k, hk, e⟩ := R3_place (f := f) h
  simp only [Instr.cls, Instr.word, e]
  exact sWord_facts (by decide) hg hk

theorem mulhn (f : R3) : Statement (.mulhn f) := by
  intro h
  obtain ⟨hg, k, hk, e⟩ := R3_place (f := f) h
  simp only [Instr.cls, Instr.word, e]
  exact sWord_facts (by decide) hg hk

theorem div (f : R3) : Statement (.div f) := by
  intro h
  obtain ⟨hg, k, hk, e⟩ := R3_place (f := f) h
  simp only [Instr.cls, Instr.word, e]
  exact sWord_facts (by decide) hg hk

theorem divn (f : R3) : Statement (.divn f) := by
  intro h
  obtain ⟨hg, k, hk, e⟩ := R3_place (f := f) h
  simp only [Instr.cls, Instr.word, e]
  exact sWord_facts (by decide) hg hk

theorem rem (f : R3) : Statement (.rem f) := by
  intro h
  obtain ⟨hg, k, hk, e⟩ := R3_place (f := f) h
  simp only [Instr.cls, Instr.word, e]
  exact sWord_facts (by decide) hg hk

theorem remn (f : R3) : Statement (.remn f) := by
  intro h
  obtain ⟨hg, k, hk, e⟩ := R3_place (f := f) h
  simp only [Instr.cls, Instr.word, e]
  exact sWord_facts (by decide) hg hk

theorem min (f : R3) : Statement (.min f) := by
  intro h
  obtain ⟨hg, k, hk, e⟩ := R3_place (f := f) h
  simp only [Instr.cls, Instr.word, e]
  exact sWord_facts (by decide) hg hk

theorem max (f : R3) : Statement (.max f) := by
  intro h
  obtain ⟨hg, k, hk, e⟩ := R3_place (f := f) h
  simp only [Instr.cls, Instr.word, e]
  exact sWord_facts (by decide) hg hk

theorem minn (f : R3) : Statement (.minn f) := by
  intro h
  obtain ⟨hg, k, hk, e⟩ := R3_place (f := f) h
  simp only [Instr.cls, Instr.word, e]
  exact sWord_facts (by decide) hg hk

theorem maxn (f : R3) : Statement (.maxn f) := by
  intro h
  obtain ⟨hg, k, hk, e⟩ := R3_place (f := f) h
  simp only [Instr.cls, Instr.word, e]
  exact sWord_facts (by decide) hg hk

theorem clz (f : R2) : Statement (.clz f) := by
  intro h
  obtain ⟨hg, k, hk, e⟩ := R2_place (f := f) h
  simp only [Instr.cls, Instr.word, e]
  exact sWord_facts (by decide) hg hk

theorem popc (f : R2) : Statement (.popc f) := by
  intro h
  obtain ⟨hg, k, hk, e⟩ := R2_place (f := f) h
  simp only [Instr.cls, Instr.word, e]
  exact sWord_facts (by decide) hg hk

theorem sel (f : RSel) : Statement (.sel f) := by
  intro h
  obtain ⟨hg, k, hk, e⟩ := RSel_place (f := f) h
  simp only [Instr.cls, Instr.word, e]
  exact sWord_facts (by decide) hg hk

theorem yield (f : IU) : Statement (.yield f) := by
  intro h
  obtain ⟨hg, k, hk, e⟩ := IU_place (f := f) (by simp only [Instr.wf, Bool.and_eq_true] at h; exact h.1)
  simp only [Instr.cls, Instr.word, e]
  exact sWord_facts (by decide) hg hk

theorem addi (f : I3) : Statement (.addi f) := by
  intro h
  obtain ⟨hg, k, hk, e⟩ := I3_place (f := f) h
  simp only [Instr.cls, Instr.word, e]
  exact sWord_facts (by decide) hg hk

theorem andi (f : I3) : Statement (.andi f) := by
  intro h
  obtain ⟨hg, k, hk, e⟩ := I3_place (f := f) h
  simp only [Instr.cls, Instr.word, e]
  exact sWord_facts (by decide) hg hk

theorem ori (f : I3) : Statement (.ori f) := by
  intro h
  obtain ⟨hg, k, hk, e⟩ := I3_place (f := f) h
  simp only [Instr.cls, Instr.word, e]
  exact sWord_facts (by decide) hg hk

theorem xori (f : I3) : Statement (.xori f) := by
  intro h
  obtain ⟨hg, k, hk, e⟩ := I3_place (f := f) h
  simp only [Instr.cls, Instr.word, e]
  exact sWord_facts (by decide) hg hk

theorem shli (f : I3) : Statement (.shli f) := by
  intro h
  obtain ⟨hg, k, hk, e⟩ := I3_place (f := f) (by simp only [Instr.wf, Bool.and_eq_true] at h; exact h.1)
  simp only [Instr.cls, Instr.word, e]
  exact sWord_facts (by decide) hg hk

theorem shri (f : I3) : Statement (.shri f) := by
  intro h
  obtain ⟨hg, k, hk, e⟩ := I3_place (f := f) (by simp only [Instr.wf, Bool.and_eq_true] at h; exact h.1)
  simp only [Instr.cls, Instr.word, e]
  exact sWord_facts (by decide) hg hk

theorem srai (f : I3) : Statement (.srai f) := by
  intro h
  obtain ⟨hg, k, hk, e⟩ := I3_place (f := f) (by simp only [Instr.wf, Bool.and_eq_true] at h; exact h.1)
  simp only [Instr.cls, Instr.word, e]
  exact sWord_facts (by decide) hg hk

theorem limm (f : ID) : Statement (.limm f) := by
  intro h
  obtain ⟨hg, k, hk, e⟩ := ID_place (f := f) h
  simp only [Instr.cls, Instr.word, e]
  exact sWord_facts (by decide) hg hk

theorem limms (f : I3) : Statement (.limms f) := by
  intro h
  obtain ⟨hg, k, hk, e⟩ := I3_place (f := f) (by simp only [Instr.wf, Bool.and_eq_true] at h; exact h.1)
  simp only [Instr.cls, Instr.word, e]
  exact sWord_facts (by decide) hg hk

theorem cmpEq (f : R3) : Statement (.cmpEq f) := by
  intro h
  obtain ⟨hg, k, hk, e⟩ := R3_place (f := f) (by simp only [Instr.wf, Bool.and_eq_true] at h; exact h.1)
  simp only [Instr.cls, Instr.word, e]
  exact sWord_facts (by decide) hg hk

theorem cmpLt (f : R3) : Statement (.cmpLt f) := by
  intro h
  obtain ⟨hg, k, hk, e⟩ := R3_place (f := f) (by simp only [Instr.wf, Bool.and_eq_true] at h; exact h.1)
  simp only [Instr.cls, Instr.word, e]
  exact sWord_facts (by decide) hg hk

theorem cmpLtn (f : R3) : Statement (.cmpLtn f) := by
  intro h
  obtain ⟨hg, k, hk, e⟩ := R3_place (f := f) (by simp only [Instr.wf, Bool.and_eq_true] at h; exact h.1)
  simp only [Instr.cls, Instr.word, e]
  exact sWord_facts (by decide) hg hk

theorem cmpLe (f : R3) : Statement (.cmpLe f) := by
  intro h
  obtain ⟨hg, k, hk, e⟩ := R3_place (f := f) (by simp only [Instr.wf, Bool.and_eq_true] at h; exact h.1)
  simp only [Instr.cls, Instr.word, e]
  exact sWord_facts (by decide) hg hk

theorem cmpLen (f : R3) : Statement (.cmpLen f) := by
  intro h
  obtain ⟨hg, k, hk, e⟩ := R3_place (f := f) (by simp only [Instr.wf, Bool.and_eq_true] at h; exact h.1)
  simp only [Instr.cls, Instr.word, e]
  exact sWord_facts (by decide) hg hk

theorem cmpiEq (f : I3) : Statement (.cmpiEq f) := by
  intro h
  obtain ⟨hg, k, hk, e⟩ := I3_place (f := f) (by simp only [Instr.wf, Bool.and_eq_true] at h; exact h.1)
  simp only [Instr.cls, Instr.word, e]
  exact sWord_facts (by decide) hg hk

theorem cmpiLt (f : I3) : Statement (.cmpiLt f) := by
  intro h
  obtain ⟨hg, k, hk, e⟩ := I3_place (f := f) (by simp only [Instr.wf, Bool.and_eq_true] at h; exact h.1)
  simp only [Instr.cls, Instr.word, e]
  exact sWord_facts (by decide) hg hk

theorem cmpiLe (f : I3) : Statement (.cmpiLe f) := by
  intro h
  obtain ⟨hg, k, hk, e⟩ := I3_place (f := f) (by simp only [Instr.wf, Bool.and_eq_true] at h; exact h.1)
  simp only [Instr.cls, Instr.word, e]
  exact sWord_facts (by decide) hg hk

theorem pand (f : P3) : Statement (.pand f) := by
  intro h
  obtain ⟨hg, k, hk, e⟩ := P3_place (f := f) h
  simp only [Instr.cls, Instr.word, e]
  exact sWord_facts (by decide) hg hk

theorem por (f : P3) : Statement (.por f) := by
  intro h
  obtain ⟨hg, k, hk, e⟩ := P3_place (f := f) h
  simp only [Instr.cls, Instr.word, e]
  exact sWord_facts (by decide) hg hk

theorem pxor (f : P3) : Statement (.pxor f) := by
  intro h
  obtain ⟨hg, k, hk, e⟩ := P3_place (f := f) h
  simp only [Instr.cls, Instr.word, e]
  exact sWord_facts (by decide) hg hk

theorem pmov (f : P2) : Statement (.pmov f) := by
  intro h
  obtain ⟨hg, k, hk, e⟩ := P2_place (f := f) h
  simp only [Instr.cls, Instr.word, e]
  exact sWord_facts (by decide) hg hk

theorem ixset (f : IX) : Statement (.ixset f) := by
  intro h
  obtain ⟨hg, k, hk, e⟩ := IX_place (f := f) h
  simp only [Instr.cls, Instr.word, e]
  exact sWord_facts (by decide) hg hk

theorem ixadd (f : IX) : Statement (.ixadd f) := by
  intro h
  obtain ⟨hg, k, hk, e⟩ := IX_place (f := f) h
  simp only [Instr.cls, Instr.word, e]
  exact sWord_facts (by decide) hg hk

theorem ixget (f : IXG) : Statement (.ixget f) := by
  intro h
  obtain ⟨hg, k, hk, e⟩ := IXG_place (f := f) h
  simp only [Instr.cls, Instr.word, e]
  exact sWord_facts (by decide) hg hk

theorem br (f : SB) : Statement (.br f) := by
  intro h
  obtain ⟨hg, k, hk, e⟩ := SB_place (f := f) h
  simp only [Instr.cls, Instr.word, e]
  exact sWord_facts (by decide) hg hk

theorem bri (f : RA) : Statement (.bri f) := by
  intro h
  obtain ⟨hg, k, hk, e⟩ := RA_place (f := f) h
  simp only [Instr.cls, Instr.word, e]
  exact sWord_facts (by decide) hg hk

theorem call (f : SB) : Statement (.call f) := by
  intro h
  obtain ⟨hg, k, hk, e⟩ := SB_place (f := f) h
  simp only [Instr.cls, Instr.word, e]
  exact sWord_facts (by decide) hg hk

theorem ret (f : G0) : Statement (.ret f) := by
  intro h
  obtain ⟨hg, k, hk, e⟩ := G0_place (f := f) h
  simp only [Instr.cls, Instr.word, e]
  exact sWord_facts (by decide) hg hk

theorem loop (f : ID) : Statement (.loop f) := by
  intro h
  obtain ⟨hg, k, hk, e⟩ := ID_place (f := f) (by simp only [Instr.wf, Bool.and_eq_true] at h; exact h.1)
  simp only [Instr.cls, Instr.word, e]
  exact sWord_facts (by decide) hg hk

theorem exit (f : G0) : Statement (.exit f) := by
  intro h
  obtain ⟨hg, k, hk, e⟩ := G0_place (f := f) h
  simp only [Instr.cls, Instr.word, e]
  exact sWord_facts (by decide) hg hk

theorem arrive (f : GB) : Statement (.arrive f) := by
  intro h
  obtain ⟨hg, k, hk, e⟩ := GB_place (f := f) h
  simp only [Instr.cls, Instr.word, e]
  exact sWord_facts (by decide) hg hk

theorem wait (f : GB) : Statement (.wait f) := by
  intro h
  obtain ⟨hg, k, hk, e⟩ := GB_place (f := f) h
  simp only [Instr.cls, Instr.word, e]
  exact sWord_facts (by decide) hg hk

theorem waitf (f : GF) : Statement (.waitf f) := by
  intro h
  obtain ⟨hg, k, hk, e⟩ := GF_place (f := f) h
  simp only [Instr.cls, Instr.word, e]
  exact sWord_facts (by decide) hg hk

theorem hbeat (f : G0) : Statement (.hbeat f) := by
  intro h
  obtain ⟨hg, k, hk, e⟩ := G0_place (f := f) h
  simp only [Instr.cls, Instr.word, e]
  exact sWord_facts (by decide) hg hk

theorem csrr (f : CR) : Statement (.csrr f) := by
  intro h
  obtain ⟨hg, k, hk, e⟩ := CR_place (f := f) h
  simp only [Instr.cls, Instr.word, e]
  exact sWord_facts (by decide) hg hk

theorem csrw (f : CW) : Statement (.csrw f) := by
  intro h
  obtain ⟨hg, k, hk, e⟩ := CW_place (f := f) h
  simp only [Instr.cls, Instr.word, e]
  exact sWord_facts (by decide) hg hk

theorem trap (f : IU) : Statement (.trap f) := by
  intro h
  obtain ⟨hg, k, hk, e⟩ := IU_place (f := f) h
  simp only [Instr.cls, Instr.word, e]
  exact sWord_facts (by decide) hg hk

theorem moncall (f : IU) : Statement (.moncall f) := by
  intro h
  obtain ⟨hg, k, hk, e⟩ := IU_place (f := f) h
  simp only [Instr.cls, Instr.word, e]
  exact sWord_facts (by decide) hg hk

theorem tret (f : G0) : Statement (.tret f) := by
  intro h
  simp only [Instr.wf, G0.wf, decide_eq_true_eq] at h
  simp only [Instr.cls, Instr.word, sysWord, G0.place]
  omega

theorem planesw (f : G0) : Statement (.planesw f) := by
  intro h
  simp only [Instr.wf, G0.wf, decide_eq_true_eq] at h
  simp only [Instr.cls, Instr.word, sysWord, G0.place]
  omega

theorem ctxsave (f : RA) : Statement (.ctxsave f) := by
  intro h
  simp only [Instr.wf, RA.wf, decide_eq_true_eq] at h
  have := toNat_le_one f.la
  simp only [Instr.cls, Instr.word, sysWord, RA.place]
  omega

theorem ctxload (f : RA) : Statement (.ctxload f) := by
  intro h
  simp only [Instr.wf, RA.wf, decide_eq_true_eq] at h
  have := toNat_le_one f.la
  simp only [Instr.cls, Instr.word, sysWord, RA.place]
  omega

theorem tlbinv (f : RAB) : Statement (.tlbinv f) := by
  intro h
  simp only [Instr.wf, RAB.wf, decide_eq_true_eq] at h
  have := toNat_le_one f.la
  have := toNat_le_one f.lb
  simp only [Instr.cls, Instr.word, sysWord, RAB.place]
  omega

theorem fenceall (f : G0) : Statement (.fenceall f) := by
  intro h
  simp only [Instr.wf, G0.wf, decide_eq_true_eq] at h
  simp only [Instr.cls, Instr.word, sysWord, G0.place]
  omega

theorem divert (f : RA) : Statement (.divert f) := by
  intro h
  simp only [Instr.wf, RA.wf, decide_eq_true_eq] at h
  have := toNat_le_one f.la
  simp only [Instr.cls, Instr.word, sysWord, RA.place]
  omega

theorem resume (f : RA) : Statement (.resume f) := by
  intro h
  simp only [Instr.wf, RA.wf, decide_eq_true_eq] at h
  have := toNat_le_one f.la
  simp only [Instr.cls, Instr.word, sysWord, RA.place]
  omega

theorem lendHeader (h : Lend) : Statement (.lendHeader h) := by
  intro w
  simp only [Instr.wf, Lend.wf, decide_eq_true_eq] at w
  have := toNat_le_one h.hs
  have := toNat_le_one h.hv
  have := toNat_le_one h.hm
  have := toNat_le_one h.y
  simp only [Instr.cls, Instr.word, Lend.word]
  omega

theorem idleHeader (y : Bool) (n : Nat) : Statement (.idleHeader y n) := by
  intro h
  simp only [Instr.wf, decide_eq_true_eq] at h
  have := toNat_le_one y
  simp only [Instr.cls, Instr.word]
  omega

theorem vadd (f : V3) : Statement (.vadd f) := by
  intro h
  obtain ⟨hg, k, hk, e⟩ := V3_place (f := f) (by simp only [Instr.wf, Bool.and_eq_true] at h; exact h.1)
  simp only [Instr.cls, Instr.word, e]
  exact vWord_facts (by decide) hg hk

theorem vsub (f : V3) : Statement (.vsub f) := by
  intro h
  obtain ⟨hg, k, hk, e⟩ := V3_place (f := f) (by simp only [Instr.wf, Bool.and_eq_true] at h; exact h.1)
  simp only [Instr.cls, Instr.word, e]
  exact vWord_facts (by decide) hg hk

theorem vmul (f : V3) : Statement (.vmul f) := by
  intro h
  obtain ⟨hg, k, hk, e⟩ := V3_place (f := f) (by simp only [Instr.wf, Bool.and_eq_true] at h; exact h.1)
  simp only [Instr.cls, Instr.word, e]
  exact vWord_facts (by decide) hg hk

theorem vfma (f : V3) : Statement (.vfma f) := by
  intro h
  obtain ⟨hg, k, hk, e⟩ := V3_place (f := f) (by simp only [Instr.wf, Bool.and_eq_true] at h; exact h.1)
  simp only [Instr.cls, Instr.word, e]
  exact vWord_facts (by decide) hg hk

theorem vfms (f : V3) : Statement (.vfms f) := by
  intro h
  obtain ⟨hg, k, hk, e⟩ := V3_place (f := f) (by simp only [Instr.wf, Bool.and_eq_true] at h; exact h.1)
  simp only [Instr.cls, Instr.word, e]
  exact vWord_facts (by decide) hg hk

theorem vmin (f : V3) : Statement (.vmin f) := by
  intro h
  obtain ⟨hg, k, hk, e⟩ := V3_place (f := f) (by simp only [Instr.wf, Bool.and_eq_true] at h; exact h.1)
  simp only [Instr.cls, Instr.word, e]
  exact vWord_facts (by decide) hg hk

theorem vmax (f : V3) : Statement (.vmax f) := by
  intro h
  obtain ⟨hg, k, hk, e⟩ := V3_place (f := f) (by simp only [Instr.wf, Bool.and_eq_true] at h; exact h.1)
  simp only [Instr.cls, Instr.word, e]
  exact vWord_facts (by decide) hg hk

theorem vminn (f : V3) : Statement (.vminn f) := by
  intro h
  obtain ⟨hg, k, hk, e⟩ := V3_place (f := f) (by simp only [Instr.wf, Bool.and_eq_true] at h; exact h.1)
  simp only [Instr.cls, Instr.word, e]
  exact vWord_facts (by decide) hg hk

theorem vmaxn (f : V3) : Statement (.vmaxn f) := by
  intro h
  obtain ⟨hg, k, hk, e⟩ := V3_place (f := f) (by simp only [Instr.wf, Bool.and_eq_true] at h; exact h.1)
  simp only [Instr.cls, Instr.word, e]
  exact vWord_facts (by decide) hg hk

theorem vabs (f : V2) : Statement (.vabs f) := by
  intro h
  obtain ⟨hg, k, hk, e⟩ := V2_place (f := f) h
  simp only [Instr.cls, Instr.word, e]
  exact vWord_facts (by decide) hg hk

theorem vneg (f : V2) : Statement (.vneg f) := by
  intro h
  obtain ⟨hg, k, hk, e⟩ := V2_place (f := f) h
  simp only [Instr.cls, Instr.word, e]
  exact vWord_facts (by decide) hg hk

theorem vdiv (f : V3) : Statement (.vdiv f) := by
  intro h
  obtain ⟨hg, k, hk, e⟩ := V3_place (f := f) (by simp only [Instr.wf, Bool.and_eq_true] at h; exact h.1)
  simp only [Instr.cls, Instr.word, e]
  exact vWord_facts (by decide) hg hk

theorem vsqrt (f : V2) : Statement (.vsqrt f) := by
  intro h
  obtain ⟨hg, k, hk, e⟩ := V2_place (f := f) (by simp only [Instr.wf, Bool.and_eq_true] at h; exact h.1)
  simp only [Instr.cls, Instr.word, e]
  exact vWord_facts (by decide) hg hk

theorem vrcp (f : V2) : Statement (.vrcp f) := by
  intro h
  obtain ⟨hg, k, hk, e⟩ := V2_place (f := f) (by simp only [Instr.wf, Bool.and_eq_true] at h; exact h.1)
  simp only [Instr.cls, Instr.word, e]
  exact vWord_facts (by decide) hg hk

theorem vrsq (f : V2) : Statement (.vrsq f) := by
  intro h
  obtain ⟨hg, k, hk, e⟩ := V2_place (f := f) (by simp only [Instr.wf, Bool.and_eq_true] at h; exact h.1)
  simp only [Instr.cls, Instr.word, e]
  exact vWord_facts (by decide) hg hk

theorem vexp2 (f : V2) : Statement (.vexp2 f) := by
  intro h
  obtain ⟨hg, k, hk, e⟩ := V2_place (f := f) (by simp only [Instr.wf, Bool.and_eq_true] at h; exact h.1)
  simp only [Instr.cls, Instr.word, e]
  exact vWord_facts (by decide) hg hk

theorem vand (f : V3) : Statement (.vand f) := by
  intro h
  obtain ⟨hg, k, hk, e⟩ := V3_place (f := f) h
  simp only [Instr.cls, Instr.word, e]
  exact vWord_facts (by decide) hg hk

theorem vor (f : V3) : Statement (.vor f) := by
  intro h
  obtain ⟨hg, k, hk, e⟩ := V3_place (f := f) h
  simp only [Instr.cls, Instr.word, e]
  exact vWord_facts (by decide) hg hk

theorem vxor (f : V3) : Statement (.vxor f) := by
  intro h
  obtain ⟨hg, k, hk, e⟩ := V3_place (f := f) h
  simp only [Instr.cls, Instr.word, e]
  exact vWord_facts (by decide) hg hk

theorem vshl (f : V3) : Statement (.vshl f) := by
  intro h
  obtain ⟨hg, k, hk, e⟩ := V3_place (f := f) (by simp only [Instr.wf, Bool.and_eq_true] at h; exact h.1)
  simp only [Instr.cls, Instr.word, e]
  exact vWord_facts (by decide) hg hk

theorem vshr (f : V3) : Statement (.vshr f) := by
  intro h
  obtain ⟨hg, k, hk, e⟩ := V3_place (f := f) (by simp only [Instr.wf, Bool.and_eq_true] at h; exact h.1)
  simp only [Instr.cls, Instr.word, e]
  exact vWord_facts (by decide) hg hk

theorem vsra (f : V3) : Statement (.vsra f) := by
  intro h
  obtain ⟨hg, k, hk, e⟩ := V3_place (f := f) (by simp only [Instr.wf, Bool.and_eq_true] at h; exact h.1)
  simp only [Instr.cls, Instr.word, e]
  exact vWord_facts (by decide) hg hk

theorem vcmpEq (f : VC) : Statement (.vcmpEq f) := by
  intro h
  obtain ⟨hg, k, hk, e⟩ := VC_place (f := f) (by simp only [Instr.wf, Bool.and_eq_true] at h; exact h.1)
  simp only [Instr.cls, Instr.word, e]
  exact vWord_facts (by decide) hg hk

theorem vcmpLt (f : VC) : Statement (.vcmpLt f) := by
  intro h
  obtain ⟨hg, k, hk, e⟩ := VC_place (f := f) (by simp only [Instr.wf, Bool.and_eq_true] at h; exact h.1)
  simp only [Instr.cls, Instr.word, e]
  exact vWord_facts (by decide) hg hk

theorem vcmpLe (f : VC) : Statement (.vcmpLe f) := by
  intro h
  obtain ⟨hg, k, hk, e⟩ := VC_place (f := f) (by simp only [Instr.wf, Bool.and_eq_true] at h; exact h.1)
  simp only [Instr.cls, Instr.word, e]
  exact vWord_facts (by decide) hg hk

theorem vcmpLtn (f : VC) : Statement (.vcmpLtn f) := by
  intro h
  obtain ⟨hg, k, hk, e⟩ := VC_place (f := f) (by simp only [Instr.wf, Bool.and_eq_true] at h; exact h.1)
  simp only [Instr.cls, Instr.word, e]
  exact vWord_facts (by decide) hg hk

theorem vcmpUn (f : VC) : Statement (.vcmpUn f) := by
  intro h
  obtain ⟨hg, k, hk, e⟩ := VC_place (f := f) (by simp only [Instr.wf, Bool.and_eq_true] at h; exact h.1)
  simp only [Instr.cls, Instr.word, e]
  exact vWord_facts (by decide) hg hk

theorem vsel (f : V3) : Statement (.vsel f) := by
  intro h
  obtain ⟨hg, k, hk, e⟩ := V3_place (f := f) h
  simp only [Instr.cls, Instr.word, e]
  exact vWord_facts (by decide) hg hk

theorem vcvt (f : VCv) : Statement (.vcvt f) := by
  intro h
  obtain ⟨hg, k, hk, e⟩ := VCv_place (f := f) h
  simp only [Instr.cls, Instr.word, e]
  exact vWord_facts (by decide) hg hk

theorem vmov (f : V2) : Statement (.vmov f) := by
  intro h
  obtain ⟨hg, k, hk, e⟩ := V2_place (f := f) h
  simp only [Instr.cls, Instr.word, e]
  exact vWord_facts (by decide) hg hk

theorem vbcast (f : VX) : Statement (.vbcast f) := by
  intro h
  obtain ⟨hg, k, hk, e⟩ := VX_place (f := f) h
  simp only [Instr.cls, Instr.word, e]
  exact vWord_facts (by decide) hg hk

theorem vins (f : VXX) : Statement (.vins f) := by
  intro h
  obtain ⟨hg, k, hk, e⟩ := VXX_place (f := f) h
  simp only [Instr.cls, Instr.word, e]
  exact vWord_facts (by decide) hg hk

theorem vext (f : VE) : Statement (.vext f) := by
  intro h
  obtain ⟨hg, k, hk, e⟩ := VE_place (f := f) h
  simp only [Instr.cls, Instr.word, e]
  exact vWord_facts (by decide) hg hk

theorem vperm (f : V3) : Statement (.vperm f) := by
  intro h
  obtain ⟨hg, k, hk, e⟩ := V3_place (f := f) h
  simp only [Instr.cls, Instr.word, e]
  exact vWord_facts (by decide) hg hk

theorem vshuf2 (f : V3) : Statement (.vshuf2 f) := by
  intro h
  obtain ⟨hg, k, hk, e⟩ := V3_place (f := f) h
  simp only [Instr.cls, Instr.word, e]
  exact vWord_facts (by decide) hg hk

theorem vrot (f : VAX) : Statement (.vrot f) := by
  intro h
  obtain ⟨hg, k, hk, e⟩ := VAX_place (f := f) h
  simp only [Instr.cls, Instr.word, e]
  exact vWord_facts (by decide) hg hk

theorem vslide (f : VAX) : Statement (.vslide f) := by
  intro h
  obtain ⟨hg, k, hk, e⟩ := VAX_place (f := f) h
  simp only [Instr.cls, Instr.word, e]
  exact vWord_facts (by decide) hg hk

theorem vredadd (f : V2) : Statement (.vredadd f) := by
  intro h
  obtain ⟨hg, k, hk, e⟩ := V2_place (f := f) (by simp only [Instr.wf, Bool.and_eq_true] at h; exact h.1)
  simp only [Instr.cls, Instr.word, e]
  exact vWord_facts (by decide) hg hk

theorem vredmax (f : V2) : Statement (.vredmax f) := by
  intro h
  obtain ⟨hg, k, hk, e⟩ := V2_place (f := f) (by simp only [Instr.wf, Bool.and_eq_true] at h; exact h.1)
  simp only [Instr.cls, Instr.word, e]
  exact vWord_facts (by decide) hg hk

theorem vredmin (f : V2) : Statement (.vredmin f) := by
  intro h
  obtain ⟨hg, k, hk, e⟩ := V2_place (f := f) (by simp only [Instr.wf, Bool.and_eq_true] at h; exact h.1)
  simp only [Instr.cls, Instr.word, e]
  exact vWord_facts (by decide) hg hk

theorem vdot4 (f : V3) : Statement (.vdot4 f) := by
  intro h
  obtain ⟨hg, k, hk, e⟩ := V3_place (f := f) (by simp only [Instr.wf, Bool.and_eq_true] at h; exact h.1)
  simp only [Instr.cls, Instr.word, e]
  exact vWord_facts (by decide) hg hk

theorem vidx (f : VX) : Statement (.vidx f) := by
  intro h
  obtain ⟨hg, k, hk, e⟩ := VX_place (f := f) (by simp only [Instr.wf, Bool.and_eq_true] at h; exact h.1)
  simp only [Instr.cls, Instr.word, e]
  exact vWord_facts (by decide) hg hk

theorem vclass (f : V2) : Statement (.vclass f) := by
  intro h
  obtain ⟨hg, k, hk, e⟩ := V2_place (f := f) (by simp only [Instr.wf, Bool.and_eq_true] at h; exact h.1)
  simp only [Instr.cls, Instr.word, e]
  exact vWord_facts (by decide) hg hk

theorem vpopc (f : V2) : Statement (.vpopc f) := by
  intro h
  obtain ⟨hg, k, hk, e⟩ := V2_place (f := f) h
  simp only [Instr.cls, Instr.word, e]
  exact vWord_facts (by decide) hg hk

theorem vlimm (f : VL) : Statement (.vlimm f) := by
  intro h
  obtain ⟨hg, k, hk, e⟩ := VL_place (f := f) (by simp only [Instr.wf, Bool.and_eq_true] at h; exact h.1)
  simp only [Instr.cls, Instr.word, e]
  exact vWord_facts (by decide) hg hk

theorem ld (f : ML) : Statement (.ld f) := by
  intro h
  obtain ⟨hg, k, hk, e⟩ := ML_place (f := f) (by simp only [Instr.wf, Bool.and_eq_true] at h; exact h.1)
  simp only [Instr.cls, Instr.word, e]
  exact mWord_facts (by decide) hg hk

theorem st (f : ML) : Statement (.st f) := by
  intro h
  obtain ⟨hg, k, hk, e⟩ := ML_place (f := f) (by simp only [Instr.wf, Bool.and_eq_true] at h; exact h.1)
  simp only [Instr.cls, Instr.word, e]
  exact mWord_facts (by decide) hg hk

theorem vld (f : MV) : Statement (.vld f) := by
  intro h
  obtain ⟨hg, k, hk, e⟩ := MV_place (f := f) h
  simp only [Instr.cls, Instr.word, e]
  exact mWord_facts (by decide) hg hk

theorem vst (f : MV) : Statement (.vst f) := by
  intro h
  obtain ⟨hg, k, hk, e⟩ := MV_place (f := f) h
  simp only [Instr.cls, Instr.word, e]
  exact mWord_facts (by decide) hg hk

theorem vlds (f : MV) : Statement (.vlds f) := by
  intro h
  obtain ⟨hg, k, hk, e⟩ := MV_place (f := f) h
  simp only [Instr.cls, Instr.word, e]
  exact mWord_facts (by decide) hg hk

theorem vsts (f : MV) : Statement (.vsts f) := by
  intro h
  obtain ⟨hg, k, hk, e⟩ := MV_place (f := f) h
  simp only [Instr.cls, Instr.word, e]
  exact mWord_facts (by decide) hg hk

theorem vgath (f : MV) : Statement (.vgath f) := by
  intro h
  obtain ⟨hg, k, hk, e⟩ := MV_place (f := f) (by simp only [Instr.wf, Bool.and_eq_true] at h; exact h.1)
  simp only [Instr.cls, Instr.word, e]
  exact mWord_facts (by decide) hg hk

theorem vscat (f : MV) : Statement (.vscat f) := by
  intro h
  obtain ⟨hg, k, hk, e⟩ := MV_place (f := f) (by simp only [Instr.wf, Bool.and_eq_true] at h; exact h.1)
  simp only [Instr.cls, Instr.word, e]
  exact mWord_facts (by decide) hg hk

theorem copy (f : MC) : Statement (.copy f) := by
  intro h
  obtain ⟨hg, k, hk, e⟩ := MC_place (f := f) (by simp only [Instr.wf, Bool.and_eq_true] at h; exact h.1)
  simp only [Instr.cls, Instr.word, e]
  exact mWord_facts (by decide) hg hk

theorem copym (f : MC) : Statement (.copym f) := by
  intro h
  obtain ⟨hg, k, hk, e⟩ := MC_place (f := f) h
  simp only [Instr.cls, Instr.word, e]
  exact mWord_facts (by decide) hg hk

theorem copyq (f : MC) : Statement (.copyq f) := by
  intro h
  obtain ⟨hg, k, hk, e⟩ := MC_place (f := f) (by simp only [Instr.wf, Bool.and_eq_true] at h; exact h.1)
  simp only [Instr.cls, Instr.word, e]
  exact mWord_facts (by decide) hg hk

theorem copyx (f : MC) : Statement (.copyx f) := by
  intro h
  obtain ⟨hg, k, hk, e⟩ := MC_place (f := f) (by simp only [Instr.wf, Bool.and_eq_true] at h; exact h.1)
  simp only [Instr.cls, Instr.word, e]
  exact mWord_facts (by decide) hg hk

theorem send (f : MS) : Statement (.send f) := by
  intro h
  obtain ⟨hg, k, hk, e⟩ := MS_place (f := f) (by simp only [Instr.wf, Bool.and_eq_true] at h; exact h.1)
  simp only [Instr.cls, Instr.word, e]
  exact mWord_facts (by decide) hg hk

theorem sendr (f : MS) : Statement (.sendr f) := by
  intro h
  obtain ⟨hg, k, hk, e⟩ := MS_place (f := f) h
  simp only [Instr.cls, Instr.word, e]
  exact mWord_facts (by decide) hg hk

theorem sendm (f : MS) : Statement (.sendm f) := by
  intro h
  obtain ⟨hg, k, hk, e⟩ := MS_place (f := f) (by simp only [Instr.wf, Bool.and_eq_true] at h; exact h.1)
  simp only [Instr.cls, Instr.word, e]
  exact mWord_facts (by decide) hg hk

theorem recv (f : MS) : Statement (.recv f) := by
  intro h
  obtain ⟨hg, k, hk, e⟩ := MS_place (f := f) (by simp only [Instr.wf, Bool.and_eq_true] at h; exact h.1)
  simp only [Instr.cls, Instr.word, e]
  exact mWord_facts (by decide) hg hk

theorem recvf (f : MS) : Statement (.recvf f) := by
  intro h
  obtain ⟨hg, k, hk, e⟩ := MS_place (f := f) h
  simp only [Instr.cls, Instr.word, e]
  exact mWord_facts (by decide) hg hk

theorem rcancel (f : MF) : Statement (.rcancel f) := by
  intro h
  obtain ⟨hg, k, hk, e⟩ := MF_place (f := f) h
  simp only [Instr.cls, Instr.word, e]
  exact mWord_facts (by decide) hg hk

theorem probe (f : MXF) : Statement (.probe f) := by
  intro h
  obtain ⟨hg, k, hk, e⟩ := MXF_place (f := f) h
  simp only [Instr.cls, Instr.word, e]
  exact mWord_facts (by decide) hg hk

theorem mstat (f : MSt) : Statement (.mstat f) := by
  intro h
  obtain ⟨hg, k, hk, e⟩ := MSt_place (f := f) h
  simp only [Instr.cls, Instr.word, e]
  exact mWord_facts (by decide) hg hk

theorem get (f : MS) : Statement (.get f) := by
  intro h
  obtain ⟨hg, k, hk, e⟩ := MS_place (f := f) (by simp only [Instr.wf, Bool.and_eq_true] at h; exact h.1)
  simp only [Instr.cls, Instr.word, e]
  exact mWord_facts (by decide) hg hk

theorem put (f : MS) : Statement (.put f) := by
  intro h
  obtain ⟨hg, k, hk, e⟩ := MS_place (f := f) (by simp only [Instr.wf, Bool.and_eq_true] at h; exact h.1)
  simp only [Instr.cls, Instr.word, e]
  exact mWord_facts (by decide) hg hk

theorem atom (f : MA) : Statement (.atom f) := by
  intro h
  obtain ⟨hg, k, hk, e⟩ := MA_place (f := f) h
  simp only [Instr.cls, Instr.word, e]
  exact mWord_facts (by decide) hg hk

theorem red (f : MA) : Statement (.red f) := by
  intro h
  obtain ⟨hg, k, hk, e⟩ := MA_place (f := f) h
  simp only [Instr.cls, Instr.word, e]
  exact mWord_facts (by decide) hg hk

theorem redf (f : MS) : Statement (.redf f) := by
  intro h
  obtain ⟨hg, k, hk, e⟩ := MS_place (f := f) (by simp only [Instr.wf, Bool.and_eq_true] at h; exact h.1)
  simp only [Instr.cls, Instr.word, e]
  exact mWord_facts (by decide) hg hk

theorem fship (f : MFs) : Statement (.fship f) := by
  intro h
  obtain ⟨hg, k, hk, e⟩ := MFs_place (f := f) h
  simp only [Instr.cls, Instr.word, e]
  exact mWord_facts (by decide) hg hk

theorem query (f : MAF) : Statement (.query f) := by
  intro h
  obtain ⟨hg, k, hk, e⟩ := MAF_place (f := f) h
  simp only [Instr.cls, Instr.word, e]
  exact mWord_facts (by decide) hg hk

theorem tdset (f : MTd) : Statement (.tdset f) := by
  intro h
  obtain ⟨hg, k, hk, e⟩ := MTd_place (f := f) h
  simp only [Instr.cls, Instr.word, e]
  exact mWord_facts (by decide) hg hk

theorem mma (f : MMm) : Statement (.mma f) := by
  intro h
  obtain ⟨hg, k, hk, e⟩ := MMm_place (f := f) h
  simp only [Instr.cls, Instr.word, e]
  exact mWord_facts (by decide) hg hk

theorem mzero (f : MZ) : Statement (.mzero f) := by
  intro h
  obtain ⟨hg, k, hk, e⟩ := MZ_place (f := f) h
  simp only [Instr.cls, Instr.word, e]
  exact mWord_facts (by decide) hg hk

theorem mldacc (f : MTa) : Statement (.mldacc f) := by
  intro h
  obtain ⟨hg, k, hk, e⟩ := MTa_place (f := f) (by simp only [Instr.wf, Bool.and_eq_true] at h; exact h.1)
  simp only [Instr.cls, Instr.word, e]
  exact mWord_facts (by decide) hg hk

theorem mstacc (f : MTa) : Statement (.mstacc f) := by
  intro h
  obtain ⟨hg, k, hk, e⟩ := MTa_place (f := f) h
  simp only [Instr.cls, Instr.word, e]
  exact mWord_facts (by decide) hg hk

theorem msend (f : MMs) : Statement (.msend f) := by
  intro h
  obtain ⟨hg, k, hk, e⟩ := MMs_place (f := f) h
  simp only [Instr.cls, Instr.word, e]
  exact mWord_facts (by decide) hg hk

theorem fenceP (f : MFp) : Statement (.fenceP f) := by
  intro h
  obtain ⟨hg, k, hk, e⟩ := MFp_place (f := f) h
  simp only [Instr.cls, Instr.word, e]
  exact mWord_facts (by decide) hg hk

theorem fenceS (f : MFs2) : Statement (.fenceS f) := by
  intro h
  obtain ⟨hg, k, hk, e⟩ := MFs2_place (f := f) h
  simp only [Instr.cls, Instr.word, e]
  exact mWord_facts (by decide) hg hk

theorem lease (f : MXF) : Statement (.lease f) := by
  intro h
  obtain ⟨hg, k, hk, e⟩ := MXF_place (f := f) h
  simp only [Instr.cls, Instr.word, e]
  exact mWord_facts (by decide) hg hk

theorem unlease (f : MX) : Statement (.unlease f) := by
  intro h
  obtain ⟨hg, k, hk, e⟩ := MX_place (f := f) h
  simp only [Instr.cls, Instr.word, e]
  exact mWord_facts (by decide) hg hk

theorem leaseq (f : MXF) : Statement (.leaseq f) := by
  intro h
  obtain ⟨hg, k, hk, e⟩ := MXF_place (f := f) h
  simp only [Instr.cls, Instr.word, e]
  exact mWord_facts (by decide) hg hk

theorem slotq (f : MXF) : Statement (.slotq f) := by
  intro h
  obtain ⟨hg, k, hk, e⟩ := MXF_place (f := f) h
  simp only [Instr.cls, Instr.word, e]
  exact mWord_facts (by decide) hg hk

theorem flclr (f : MF) : Statement (.flclr f) := by
  intro h
  obtain ⟨hg, k, hk, e⟩ := MF_place (f := f) h
  simp only [Instr.cls, Instr.word, e]
  exact mWord_facts (by decide) hg hk

theorem flset (f : MF) : Statement (.flset f) := by
  intro h
  obtain ⟨hg, k, hk, e⟩ := MF_place (f := f) h
  simp only [Instr.cls, Instr.word, e]
  exact mWord_facts (by decide) hg hk

theorem monitorWatchdogExpiry (rank : Nat) : Statement (.monitorWatchdogExpiry rank) := fun _ => rfl

theorem hbmiss (rank : Nat) : Statement (.hbmiss rank) := fun _ => rfl

theorem dualTimeout (rank plane : Nat) : Statement (.dualTimeout rank plane) := fun _ => rfl

theorem messageArrival (m : Msg) : Statement (.messageArrival m) := fun _ => rfl

theorem refusalArrival (a : Ack) : Statement (.refusalArrival a) := fun _ => rfl

theorem sendRetry (a : Ack) : Statement (.sendRetry a) := fun _ => rfl

theorem abandon (m : Msg) : Statement (.abandon m) := fun _ => rfl

theorem pullRequest (p : Pull) : Statement (.pullRequest p) := fun _ => rfl

theorem deliveryComplete (rank plane did : Nat) : Statement (.deliveryComplete rank plane did) := fun _ => rfl

theorem sendAcknowledgement (a : Ack) : Statement (.sendAcknowledgement a) := fun _ => rfl

theorem discardNotice (a : Ack) : Statement (.discardNotice a) := fun _ => rfl

theorem fenceNotice (fenced tile : Nat) : Statement (.fenceNotice fenced tile) := fun _ => rfl

theorem arriveSignalRelease (rank plane : Nat) : Statement (.arriveSignalRelease rank plane) := fun _ => rfl

theorem barrierPhaseComplete (launch group : Nat) : Statement (.barrierPhaseComplete launch group) := fun _ => rfl

theorem conflictNotice (rank plane number : Nat) : Statement (.conflictNotice rank plane number) := fun _ => rfl

theorem escrowDrainEnd (rank plane : Nat) : Statement (.escrowDrainEnd rank plane) := fun _ => rfl

theorem releaseFlit (f : Flit) : Statement (.releaseFlit f) := fun _ => rfl

theorem releaseFlitAck (f : Flit) : Statement (.releaseFlitAck f) := fun _ => rfl

theorem vaultGet (r : Req) : Statement (.vaultGet r) := fun _ => rfl

theorem vaultPut (r : Req) : Statement (.vaultPut r) := fun _ => rfl

theorem vaultAtom (r : Req) : Statement (.vaultAtom r) := fun _ => rfl

theorem vaultRed (r : Req) : Statement (.vaultRed r) := fun _ => rfl

theorem vaultRedf (r : Req) : Statement (.vaultRedf r) := fun _ => rfl

theorem vaultFship (r : Req) : Statement (.vaultFship r) := fun _ => rfl

theorem vaultQuery (r : Req) : Statement (.vaultQuery r) := fun _ => rfl

theorem hopRequest (q : QStep) : Statement (.hopRequest q) := fun _ => rfl

theorem distanceRequest (q : QStep) : Statement (.distanceRequest q) := fun _ => rfl

theorem querySearchEnd (home qid : Nat) : Statement (.querySearchEnd home qid) := fun _ => rfl

theorem vaultReply (p : Reply) : Statement (.vaultReply p) := fun _ => rfl

theorem rnrRetry (r : Req) : Statement (.rnrRetry r) := fun _ => rfl

theorem hostAtomic (h : HostAtom) : Statement (.hostAtomic h) := fun _ => rfl

theorem hostCompletionTimeout (r : Req) : Statement (.hostCompletionTimeout r) := fun _ => rfl

theorem pageWalkEnd (r : Req) : Statement (.pageWalkEnd r) := fun _ => rfl

theorem copyStart (rank plane ch : Nat) : Statement (.copyStart rank plane ch) := fun _ => rfl

theorem copyComplete (rank plane ch : Nat) : Statement (.copyComplete rank plane ch) := fun _ => rfl

theorem mmaStep (rank plane bad : Nat) : Statement (.mmaStep rank plane bad) := fun _ => rfl

theorem matrixOpComplete (rank plane : Nat) : Statement (.matrixOpComplete rank plane) := fun _ => rfl

theorem msendSnapshot (rank plane : Nat) : Statement (.msendSnapshot rank plane) := fun _ => rfl

theorem preemptInterrupt (rank plane : Nat) : Statement (.preemptInterrupt rank plane) := fun _ => rfl

theorem preempt (rank : Nat) : Statement (.preempt rank) := fun _ => rfl

theorem cancelInterrupt (rank plane launch : Nat) : Statement (.cancelInterrupt rank plane launch) := fun _ => rfl

theorem spillHeadReadmit (rank plane : Nat) : Statement (.spillHeadReadmit rank plane) := fun _ => rfl

theorem taskEnd (rank plane : Nat) : Statement (.taskEnd rank plane) := fun _ => rfl

theorem planeFree (rank plane : Nat) : Statement (.planeFree rank plane) := fun _ => rfl

theorem placementDecision (pkg die : Nat) : Statement (.placementDecision pkg die) := fun _ => rfl

theorem loadComplete (rank plane : Nat) : Statement (.loadComplete rank plane) := fun _ => rfl

theorem windowStart (rank : Nat) : Statement (.windowStart rank) := fun _ => rfl

theorem graphNodeEval (pkg graph : Nat) : Statement (.graphNodeEval pkg graph) := fun _ => rfl

theorem leaseServe (pkg : Nat) : Statement (.leaseServe pkg) := fun _ => rfl

theorem leaseRetuneEnd (pkg lease : Nat) : Statement (.leaseRetuneEnd pkg lease) := fun _ => rfl

theorem leaseExpiry (pkg lease : Nat) : Statement (.leaseExpiry pkg lease) := fun _ => rfl

theorem leaseRevocation (pkg donor : Nat) : Statement (.leaseRevocation pkg donor) := fun _ => rfl

theorem slotStart (pkg slot : Nat) : Statement (.slotStart pkg slot) := fun _ => rfl

theorem modeSwitch (pkg : Nat) : Statement (.modeSwitch pkg) := fun _ => rfl

theorem podTimeBeacon (pkg ns : Nat) : Statement (.podTimeBeacon pkg ns) := fun _ => rfl

theorem crcReplay (pkg lane : Nat) : Statement (.crcReplay pkg lane) := fun _ => rfl

theorem transportAbandon (a : Ack) : Statement (.transportAbandon a) := fun _ => rfl

theorem refreshTakeover (pkg stack : Nat) : Statement (.refreshTakeover pkg stack) := fun _ => rfl

theorem smcRestart (pkg stack : Nat) (ok : Bool) : Statement (.smcRestart pkg stack ok) := fun _ => rfl

theorem smcup (pkg stack : Nat) : Statement (.smcup pkg stack) := fun _ => rfl

theorem refreshSplit (vault : Nat) : Statement (.refreshSplit vault) := fun _ => rfl

theorem pageMove (pkg hot cold : Nat) : Statement (.pageMove pkg hot cold) := fun _ => rfl

theorem pageMoveEnd (pkg hot cold : Nat) : Statement (.pageMoveEnd pkg hot cold) := fun _ => rfl

theorem fieldTest (pkg entry : Nat) (pass : Bool) : Statement (.fieldTest pkg entry pass) := fun _ => rfl

theorem spareRepair (pkg entry : Nat) : Statement (.spareRepair pkg entry) := fun _ => rfl

theorem powerOn (pkg failStep code : Nat) : Statement (.powerOn pkg failStep code) := fun _ => rfl

theorem scancelWrite (rank value : Nat) : Statement (.scancelWrite rank value) := fun _ => rfl

theorem txvalWrite (rank value : Nat) : Statement (.txvalWrite rank value) := fun _ => rfl

theorem watermarkAdvance (rank plane ch : Nat) : Statement (.watermarkAdvance rank plane ch) := fun _ => rfl

theorem payloadLineLands (rank plane did : Nat) : Statement (.payloadLineLands rank plane did) := fun _ => rfl

theorem hostWindowRequest (r : Req) : Statement (.hostWindowRequest r) := fun _ => rfl

theorem pcieCompletion (r : Req) : Statement (.pcieCompletion r) := fun _ => rfl

theorem laneManagerAnswer (l : LmAsk) : Statement (.laneManagerAnswer l) := fun _ => rfl

theorem limitWindowEnd (pkg : Nat) (hour : Bool) : Statement (.limitWindowEnd pkg hour) := fun _ => rfl

theorem jobrun (c : Cmd) : Statement (.jobrun c) := fun _ => rfl

theorem countq (c : Cmd) : Statement (.countq c) := fun _ => rfl

theorem cancel (c : Cmd) : Statement (.cancel c) := fun _ => rfl

theorem resync (c : Cmd) : Statement (.resync c) := fun _ => rfl

theorem tlbinvCommand (c : Cmd) : Statement (.tlbinvCommand c) := fun _ => rfl

theorem partset (c : Cmd) : Statement (.partset c) := fun _ => rfl

theorem cfgrd (c : Cmd) : Statement (.cfgrd c) := fun _ => rfl

theorem cfgwr (c : Cmd) : Statement (.cfgwr c) := fun _ => rfl

theorem healthrd (c : Cmd) : Statement (.healthrd c) := fun _ => rfl

theorem bbread (c : Cmd) : Statement (.bbread c) := fun _ => rfl

theorem testnow (c : Cmd) : Statement (.testnow c) := fun _ => rfl

theorem fence (c : Cmd) : Statement (.fence c) := fun _ => rfl

theorem reset (c : Cmd) : Statement (.reset c) := fun _ => rfl

theorem slottedSet (pkg value : Nat) : Statement (.slottedSet pkg value) := fun _ => rfl

theorem slottedClear (pkg value : Nat) : Statement (.slottedClear pkg value) := fun _ => rfl

theorem slotTableWrite (pkg n value : Nat) : Statement (.slotTableWrite pkg n value) := fun _ => rfl

theorem rangeEntryWrite (pkg p n value : Nat) : Statement (.rangeEntryWrite pkg p n value) := fun _ => rfl

theorem routineEntryWrite (pkg vault word value : Nat) : Statement (.routineEntryWrite pkg vault word value) := fun _ => rfl

theorem ptrootWrite (pkg p value : Nat) : Statement (.ptrootWrite pkg p value) := fun _ => rfl

theorem replaceClear (pkg : Nat) : Statement (.replaceClear pkg) := fun _ => rfl

theorem plimitWrite (pkg value : Nat) : Statement (.plimitWrite pkg value) := fun _ => rfl

theorem lseedWrite (pkg die value : Nat) : Statement (.lseedWrite pkg die value) := fun _ => rfl

theorem srseedWrite (rank plane value : Nat) : Statement (.srseedWrite rank plane value) := fun _ => rfl

theorem registerWrite (pkg addr value : Nat) : Statement (.registerWrite pkg addr value) := fun _ => rfl

theorem doorbell (pkg tail : Nat) : Statement (.doorbell pkg tail) := fun _ => rfl

theorem ringReinit (pkg cmdAddr cmdSize compAddr compSize : Nat) : Statement (.ringReinit pkg cmdAddr cmdSize compAddr compSize) := fun _ => rfl

theorem powerLoss (pkg : Nat) : Statement (.powerLoss pkg) := fun _ => rfl

theorem thermtrip (pkg temp : Nat) : Statement (.thermtrip pkg temp) := fun _ => rfl

theorem throttle (pkg trigger : Nat) (lower : Bool) : Statement (.throttle pkg trigger lower) := fun _ => rfl

end Encoding

end Sys2Proof.Laws
end

