-- ==== Sys2Proof/Laws/Registers.lean ====
section
/-! SUPPORT. What the register operations do: every read depends on the current tile alone, and every write changes the one
register it names. -/

namespace Sys2Proof.Machine

/-! ## The bundle in progress plays no part in reads -/

theorem curTile_withBundle (s : State) (b : Bundle) : ({ s with bundle := b } : State).curTile = s.curTile := rfl

/-- A state's context is a function of its current tile. -/
theorem mon_congr {s t : State} (h : t.curTile = s.curTile) : t.mon = s.mon := by simp [State.mon, h]

theorem ctxP_congr {s t : State} (h : t.curTile = s.curTile) : t.ctxP = s.ctxP := by simp [State.ctxP, h]

theorem ctx_congr {s t : State} (h : t.curTile = s.curTile) : t.ctx = s.ctx := by simp [State.ctx, h, ctxP_congr h]

theorem regs_congr {s t : State} (h : t.curTile = s.curTile) : t.regs = s.regs := by simp [State.regs, ctx_congr h]

theorem bank_congr {s t : State} (h : t.curTile = s.curTile) : t.bank = s.bank := by
  simp [State.bank, h, mon_congr h, regs_congr h]

theorem readX_congr {s t : State} (h : t.curTile = s.curTile) (n : Nat) : readX t n = readX s n := by
  simp [readX, bank_congr h, mon_congr h, regs_congr h]

theorem readP_congr {s t : State} (h : t.curTile = s.curTile) (n : Nat) : readP t n = readP s n := by
  simp [readP, bank_congr h]

theorem readI_congr {s t : State} (h : t.curTile = s.curTile) (n : Nat) : readI t n = readI s n := by
  simp [readI, bank_congr h]

theorem readQ_congr {s t : State} (h : t.curTile = s.curTile) (n : Nat) : readQ t n = readQ s n := by
  simp [readQ, regs_congr h]

theorem readV_congr {s t : State} (h : t.curTile = s.curTile) (n : Nat) : readV t n = readV s n := by
  simp [readV, mon_congr h, regs_congr h]

theorem vallocOf_congr {s t : State} (h : t.curTile = s.curTile) : vallocOf t = vallocOf s := by
  simp [vallocOf, mon_congr h, regs_congr h]

/-! ## Marks of last use touch the bundle alone -/

@[simp] theorem killX_curTile (s : State) (m : Bool) (n : Nat) : (killX s m n).curTile = s.curTile := by
  unfold killX; split <;> rfl

@[simp] theorem killX_mem (s : State) (m : Bool) (n : Nat) : (killX s m n).mem = s.mem := by
  unfold killX; split <;> rfl

/-- A mark touches the bundle alone. -/
theorem killX_eq (s : State) (m : Bool) (n : Nat) : ∃ b, killX s m n = { s with bundle := b } ∧ b.status = s.bundle.status := by
  unfold killX; split
  · exact ⟨_, rfl, rfl⟩
  · exact ⟨s.bundle, rfl, rfl⟩

@[simp] theorem killX_status (s : State) (m : Bool) (n : Nat) : (killX s m n).bundle.status = s.bundle.status := by
  unfold killX; split <;> rfl

@[simp] theorem killX_mon (s : State) (m : Bool) (n : Nat) : (killX s m n).mon = s.mon := mon_congr (by simp)

@[simp] theorem killX_bank (s : State) (m : Bool) (n : Nat) : (killX s m n).bank = s.bank := bank_congr (by simp)

@[simp] theorem killX_regs (s : State) (m : Bool) (n : Nat) : (killX s m n).regs = s.regs := regs_congr (by simp)

@[simp] theorem killX_ctxP (s : State) (m : Bool) (n : Nat) : (killX s m n).ctxP = s.ctxP := ctxP_congr (by simp)

@[simp] theorem killX_ctx (s : State) (m : Bool) (n : Nat) : (killX s m n).ctx = s.ctx := ctx_congr (by simp)

@[simp] theorem killX_cur (s : State) (m : Bool) (n : Nat) : (killX s m n).cur = s.cur := by
  unfold killX; split <;> rfl

/-! ## What a change of the bank leaves -/

/-- A state after a change of its bank differs from it in the tiles alone. -/
theorem modBank_eq (s : State) (f : Bank → Bank) : ∃ ts, s.modBank f = { s with tiles := ts } := by
  unfold State.modBank; split
  · exact ⟨_, rfl⟩
  · exact ⟨_, rfl⟩

/-- A change of the bank touches the current tile alone. -/
theorem modBank_tile_ne (s : State) (f : Bank → Bank) {r : Nat} (h : r ≠ s.cur) : (s.modBank f).tile r = s.tile r := by
  unfold State.modBank; split
  · exact State.modTile_tile_ne _ _ h
  · exact State.modPlane_tile_ne _ _ _ h

/-- Of a change of the bank only its value matters. -/
theorem modBank_const (s : State) (f : Bank → Bank) : s.modBank f = s.modBank (fun _ => f s.bank) := by
  unfold State.modBank State.bank
  split
  · rfl
  · simp [State.modRegs, State.modCtx, State.modPlane, State.modTile, State.regs, State.ctx, State.curTile]

@[simp] theorem modBank_cur (s : State) (f : Bank → Bank) : (s.modBank f).cur = s.cur := by
  unfold State.modBank; split <;> rfl

@[simp] theorem modBank_bundle (s : State) (f : Bank → Bank) : (s.modBank f).bundle = s.bundle := by
  unfold State.modBank; split <;> rfl

@[simp] theorem modBank_mem (s : State) (f : Bank → Bank) : (s.modBank f).mem = s.mem := by
  unfold State.modBank; split <;> rfl

/-- The registers outside the bank are as before. -/
theorem modBank_regs (s : State) (f : Bank → Bank) : ({ (s.modBank f).regs with bank := s.regs.bank } : Regs) = s.regs := by
  unfold State.modBank; split
  · rename_i h
    have h1 : s.curTile.monitor = true := h
    simp [State.regs, State.ctx, State.ctxP, State.curTile, Tile.ctxPlane] at *
    simp [h1, Tile.pl]
  · simp

/-- The current tile after a change of the registers. -/
theorem modRegs_curTile (s : State) (f : Regs → Regs) :
    (s.modRegs f).curTile = s.curTile.setPl s.ctxP { s.ctx with regs := f s.regs } := by
  simp [State.modRegs, State.regs]

/-- The current tile after a change of the bank. -/
theorem modBank_curTile (s : State) (f : Bank → Bank) : (s.modBank f).curTile =
    if s.mon then { s.curTile with mbank := f s.curTile.mbank }
    else s.curTile.setPl s.ctxP { s.ctx with regs := { s.regs with bank := f s.regs.bank } } := by
  unfold State.modBank
  split
  · simp [State.curTile]
  · exact modRegs_curTile _ _

/-- A frame of words that change the bank in force and the bundle alone. -/
theorem bankFrame_of {s t : State} {f : Bank → Bank} {b : Bundle} {xs ps ixs : Nat → Prop}
    (ht : t = { s.modBank f with bundle := b }) (hr : (f s.bank).ret = s.bank.ret)
    (hx : ∀ n, ¬ xs n → (f s.bank).x[n]? = s.bank.x[n]? ∧ (f s.bank).dead.getLsbD n = s.bank.dead.getLsbD n)
    (hp : ∀ n, ¬ ps n → (f s.bank).p[n]? = s.bank.p[n]?) (hi : ∀ n, ¬ ixs n → (f s.bank).ix[n]? = s.bank.ix[n]?) :
    BankFrame s t xs ps ixs := by
  have hc : t.curTile = (s.modBank f).curTile := by rw [ht]; rfl
  have hb : t.bank = f s.bank := by rw [bank_congr hc]; simp
  obtain ⟨ts, e⟩ := modBank_eq s f
  refine ⟨⟨⟨fun r h => ?_, ?_⟩, ?_, ?_⟩, ?_, ?_, ?_, ?_, ?_, ?_⟩
  · rw [ht]; exact modBank_tile_ne s f h
  · rw [ht, e]; simp
  · rw [ht, e]
  · rw [ht, e]
  · intro a; rw [ht, e]
  · rw [hc, hb, modBank_const]
  · rw [hb, hr]
  · rw [hb]; exact hx
  · rw [hb]; exact hp
  · rw [hb]; exact hi

/-- A word that changes nothing but the bundle. -/
theorem bankFrame_self {s t : State} {b : Bundle} {xs ps ixs : Nat → Prop} (ht : t = { s with bundle := b }) :
    BankFrame s t xs ps ixs := by
  subst ht
  refine ⟨⟨⟨fun r h => rfl, rfl, rfl, rfl, rfl, rfl, rfl, rfl, rfl, rfl, rfl, rfl, rfl⟩, rfl, rfl⟩, fun a => rfl, ?_, rfl,
    fun n _ => ⟨rfl, rfl⟩, fun n _ => rfl, fun n _ => rfl⟩
  have e : ({ s with bundle := b } : State).bank = s.bank := bank_congr rfl
  rw [e, modBank_curTile]
  by_cases h : s.mon = true
  · simp only [h, if_true, State.bank]; rfl
  · simp only [h, State.bank]
    exact (Tile.setPl_self _ _).symm

/-! ## Writes -/

/-- The mark of another register is as before. -/
theorem Bank.setX_dead_ne (b : Bank) {n k : Nat} (w : Word) (h : k ≠ n) : (b.setX n w).dead.getLsbD k = b.dead.getLsbD k := by
  by_cases hk : k < 32
  · simp only [Bank.setX, BitVec.getLsbD_and, BitVec.getLsbD_not, hk, BitVec.getLsbD_shiftLeft, BitVec.getLsbD_one]
    by_cases hn : k < n
    · simp [hn]
    · have : k - n ≠ 0 := by omega
      simp [this]
  · rw [BitVec.getLsbD_of_ge _ _ (by omega), BitVec.getLsbD_of_ge _ _ (by omega)]

/-- A written register is live. -/
theorem Bank.setX_dead_self (b : Bank) {n : Nat} (w : Word) (h : n < 32) : (b.setX n w).dead.getLsbD n = false := by
  simp [Bank.setX, h]

/-- A write of x0 is discarded. -/
@[simp] theorem setX_zero (s : State) (w : Word) : setX s 0 w = s := by simp [setX]

/-- A write of another register. -/
theorem setX_eq (s : State) {n : Nat} (w : Word) (h : n ≠ 0) :
    setX s n w = { s.modBank (fun b => b.setX n w) with bundle := { s.bundle with killX := s.bundle.killX.filter (· ≠ n) } } := by
  simp [setX, h]

@[simp] theorem setX_status (s : State) (n : Nat) (w : Word) : (setX s n w).bundle.status = s.bundle.status := by
  by_cases h : n = 0
  · simp [h]
  · rw [setX_eq _ _ h]

@[simp] theorem setX_mem (s : State) (n : Nat) (w : Word) : (setX s n w).mem = s.mem := by
  by_cases h : n = 0
  · simp [h]
  · rw [setX_eq _ _ h]; simp

/-- The current tile after a write of an x register. -/
theorem setX_curTile (s : State) {n : Nat} (w : Word) (h : n ≠ 0) :
    (setX s n w).curTile = (s.modBank (fun b => b.setX n w)).curTile := by
  rw [setX_eq _ _ h]; rfl

theorem setX_bank (s : State) {n : Nat} (w : Word) (h : n ≠ 0) : (setX s n w).bank = s.bank.setX n w := by
  rw [bank_congr (setX_curTile s w h)]; simp

@[simp] theorem setX_mon (s : State) (n : Nat) (w : Word) : (setX s n w).mon = s.mon := by
  by_cases h : n = 0
  · simp [h]
  · rw [mon_congr (setX_curTile s w h)]; simp

/-- The registers outside the bank do not depend on a write of an x register. -/
theorem setX_regs (s : State) (n : Nat) (w : Word) : ({ (setX s n w).regs with bank := s.regs.bank } : Regs) = s.regs := by
  by_cases h : n = 0
  · simp [h]
  · rw [regs_congr (setX_curTile s w h)]
    exact modBank_regs _ _

/-- A write of an x register, with marks before it, changes that register alone. -/
theorem setX_frame (s : State) (n : Nat) (w : Word) : BankFrame s (setX s n w) (fun k => k = n ∧ k ≠ 0) (fun _ => False) (fun _ => False) := by
  by_cases h : n = 0
  · subst h; rw [setX_zero]; exact bankFrame_self (b := s.bundle) rfl
  · refine bankFrame_of (setX_eq _ _ h) rfl ?_ (fun _ _ => rfl) (fun _ _ => rfl)
    intro k hk
    have hkn : k ≠ n := fun e => hk ⟨e, by omega⟩
    exact ⟨by simp [Bank.setX, Ne.symm hkn], Bank.setX_dead_ne _ _ hkn⟩

/-- A frame after marks is a frame. -/
theorem BankFrame.of_killX {s t : State} {m : Bool} {n : Nat} {xs ps ixs : Nat → Prop}
    (h : BankFrame (killX s m n) t xs ps ixs) : BankFrame s t xs ps ixs := by
  obtain ⟨b, e, -⟩ := killX_eq s m n
  have hc : (killX s m n).curTile = s.curTile := by simp
  obtain ⟨⟨⟨h1, h2⟩, h3, h4⟩, h5, h6, h7, h8, h9, h10⟩ := h
  rw [bank_congr hc] at h7 h8 h9 h10
  rw [e] at h1 h2 h3 h4 h5 h6
  refine ⟨⟨⟨h1, h2⟩, h3, h4⟩, h5, ?_, h7, h8, h9, h10⟩
  rw [h6, modBank_curTile, modBank_curTile]
  rfl

@[simp] theorem setP_status (s : State) (n : Nat) (b : Bool) : (setP s n b).bundle.status = s.bundle.status := by
  unfold setP; split <;> simp

@[simp] theorem setP_mem (s : State) (n : Nat) (b : Bool) : (setP s n b).mem = s.mem := by
  unfold setP; split <;> simp

theorem setP_bank (s : State) {n : Nat} (b : Bool) (h : 2 ≤ n) : (setP s n b).bank = { s.bank with p := s.bank.p.setIfInBounds n b } := by
  simp [setP, show ¬ n < 2 by omega]

/-- A write of a predicate changes that predicate alone. -/
theorem setP_frame (s : State) (n : Nat) (b : Bool) : BankFrame s (setP s n b) (fun _ => False) (fun k => k = n ∧ 2 ≤ k) (fun _ => False) := by
  by_cases h : n < 2
  · rw [show setP s n b = s by simp [setP, h]]; exact bankFrame_self (b := s.bundle) rfl
  · have e : setP s n b = { s.modBank (fun k => { k with p := k.p.setIfInBounds n b }) with bundle := s.bundle } := by
      obtain ⟨ts, e⟩ := modBank_eq s (fun k => { k with p := k.p.setIfInBounds n b })
      simp [setP, h, e]
    refine bankFrame_of e rfl (fun _ _ => ⟨rfl, rfl⟩) ?_ (fun _ _ => rfl)
    intro k hk
    have hkn : k ≠ n := fun e => hk ⟨e, by omega⟩
    simp [Ne.symm hkn]

/-- A write of an index register changes that register alone. -/
theorem setI_frame (s : State) (n : Nat) (b : BitVec 8) : BankFrame s (setI s n b) (fun _ => False) (fun _ => False) (fun k => k = n) := by
  have e : setI s n b = { s.modBank (fun k => { k with ix := k.ix.setIfInBounds n b }) with bundle := s.bundle } := by
    obtain ⟨ts, e⟩ := modBank_eq s (fun k => { k with ix := k.ix.setIfInBounds n b })
    simp [setI, e]
  refine bankFrame_of e rfl (fun _ _ => ⟨rfl, rfl⟩) (fun _ _ => rfl) ?_
  intro k hk
  simp [Ne.symm hk]

end Sys2Proof.Machine
end

