-- ==== Sys2Proof/Laws/Words.lean ====
section
/-! SUPPORT. What running one word can do (R14, R162): nothing under a false guard, its body's effect, a stall, or a trap. -/

namespace Sys2Proof.Machine

/-- A word whose guard is false has no effect. -/
theorem runWord_guard {slot g : Nat} {s : State} {body : State → Chk State} (h : readP s g = false) :
    runWord slot g s body = .next s := by
  simp [runWord, h]

/-- A word that runs and whose body succeeds has its body's effect. -/
theorem runWord_ok {slot g : Nat} {s t : State} {body : State → Chk State} (h : Runs s g) (hb : body s = .ok t) :
    runWord slot g s body = .next t := by
  simp [runWord, h.1, h.2, hb]

/-- A word that runs and whose body traps takes that trap, with its slot. -/
theorem runWord_trap {slot g : Nat} {s : State} {body : State → Chk State} {t : TrapInfo} (h : Runs s g)
    (hb : body s = .error (.trap t)) : runWord slot g s body = .next (raiseTrap s { t with slot := slot }) := by
  simp [runWord, h.1, h.2, hb]

/-- A word that runs and whose body stalls leaves the bundle stalled. -/
theorem runWord_stall {slot g : Nat} {s : State} {body : State → Chk State} (h : Runs s g)
    (hb : body s = .error .stall) :
    runWord slot g s body = .next { s with bundle := { s.bundle with status := .stalled } } := by
  simp [runWord, h.1, h.2, hb]

/-- A word always gives a next state. -/
theorem runWord_next (slot g : Nat) (s : State) (body : State → Chk State) : ∃ t, runWord slot g s body = .next t := by
  unfold runWord
  split
  · exact ⟨_, rfl⟩
  · split <;> exact ⟨_, rfl⟩

/-- A trap never leaves the bundle running. -/
theorem raiseTrap_status (s : State) (t : TrapInfo) : (raiseTrap s t).bundle.status ≠ .running := by
  unfold raiseTrap
  split <;> simp

/-- A word after which the bundle still runs either had no effect or had its body's. -/
theorem runWord_ran {slot g : Nat} {s t : State} {body : State → Chk State} (h : runWord slot g s body = .next t)
    (hr : Ran t) : (t = s ∧ readP s g = false) ∨ (Runs s g ∧ body s = .ok t) := by
  unfold runWord at h
  split at h
  · rename_i hc
    injection h with h
    subst h
    rcases hc with hc | hc
    · exact absurd hr hc
    · exact .inl ⟨rfl, hc⟩
  · rename_i hc
    push Not at hc
    have hg : readP s g = true := by simpa using hc.2
    split at h <;> rename_i hb <;> injection h with h
    · subst h; exact .inr ⟨⟨hc.1, hg⟩, hb⟩
    · subst h; exact absurd hr (by simp [Ran])
    · subst h; exact absurd hr (by simp [Ran])
    · subst h; exact absurd hr (by simp [Ran])
    · subst h; exact absurd hr (raiseTrap_status _ _)

/-- An event step on a packet in range does what it says. -/
theorem runEvent_ok {ok : Bool} {s : State} {f : State → State} (h : ok = true) : runEvent ok s f = .next (f s) := by
  simp [runEvent, h]

/-- Two reads, and then the body of a word. -/
theorem alu3_run {f : R3} {s : State} {a b : Word} {op : Word → Word → Word} (h : Runs s f.g)
    (ha : readX s f.ra = .ok a) (hb : readX s f.rb = .ok b) :
    alu3 f s op = .next (setX (killX (killX s f.la f.ra) f.lb f.rb) f.rd (op a b)) :=
  runWord_ok h (by simp [ha, hb, bind, Except.bind])

/-- One read, an immediate, and then the body of a word. -/
theorem aluI_run {f : I3} {s : State} {a : Word} {op : Word → Word} (h : Runs s f.g) (ha : readX s f.ra = .ok a) :
    aluI f s op = .next (setX (killX s f.la f.ra) f.rd (op a)) :=
  runWord_ok h (by simp [ha, bind, Except.bind])

/-- What a word of two sources leaves as it was. -/
theorem alu3_frame {f : R3} {s t : State} {op : Word → Word → Word} (h : alu3 f s op = .next t) (hr : Ran t) :
    BankFrame s t (fun n => n = f.rd ∧ n ≠ 0) (fun _ => False) (fun _ => False) := by
  rcases runWord_ran h hr with ⟨e, -⟩ | ⟨-, hb⟩
  · exact bankFrame_self (b := s.bundle) e
  · cases ha : readX s f.ra with
    | error e => simp [ha, bind, Except.bind] at hb
    | ok a =>
      cases hb2 : readX s f.rb with
      | error e => simp [ha, hb2, bind, Except.bind] at hb
      | ok b =>
        simp only [ha, hb2, bind, Except.bind] at hb
        injection hb with hb
        subst hb
        exact (setX_frame _ _ _).of_killX.of_killX

end Sys2Proof.Machine
end

