-- ==== Sys2Proof/Tests/Slice0.lean ====
section
/-! SUPPORT. Small tests, each of one word or one step, and for every statement with hypotheses a named witness that meets them. Expected
values come from the spec's tables and worked examples. Where a hypothesis is about a free value of Config, the witness assumes that
value and nothing else. -/

open Sys2Proof Sys2Proof.Machine

set_option Elab.async false

namespace Sys2Proof.Tests

/-! ## Small states -/

/-- A package whose every granule is in partition 0. -/
def pk0 : Package := { cfg := [(0x100, 2 ^ 31 + 255)] }

/-- Tile 0 with a running plane 0. -/
def on (pl : Plane) (t : Tile := {}) : State :=
  (State.reset.setTile 0 { t with plane0 := pl, running := some 0 }).modPkg 0 (fun _ => pk0)

/-- Registers of a task with 64 bytes of code: x1 = 7, x2 = 3, x4 = 64, x5 = 1, x6 = 128. -/
def regs0 : Regs :=
  { plen := 64,
    bank := { x := (((((Vector.replicate 32 0).setIfInBounds 1 7).setIfInBounds 2 3).setIfInBounds 4 64).setIfInBounds 5
      1).setIfInBounds 6 128 } }

def s0 : State := on { regs := regs0 }

/-- The same with groups 0 and 1 in the launch, and speculation on for them. -/
def task0 : Task := { bgroups := 3, specs := 3 }
def s1 : State := on { regs := regs0, task := task0 }

/-- A speculation of group 0 is open. -/
def sSpec : State := on { regs := regs0, task := task0, spec := some { ckpt := regs0, number := 1, group := 0, phase := false, pc := 0 } }

/-- The monitor runs. -/
def sMon : State := on { regs := regs0, task := task0 } { monitor := true }

theorem runs_of {s : State} {g : Nat} (h : (decide (s.bundle.status = .running) && readP s g) = true) : Runs s g := by
  simpa [Runs] using h


/-- A tile's translation of the 64 KiB at 65,536 to the first page of vault 0x400. -/
def tr0 : Tr := { part := 0, range := false, n := 1, lo := 65536, hi := 131071, pkg := 0, dpa := 0, w := true, r := true }

/-- Whether a granule cannot be read, but for the free value. -/
def memBadF (s : State) (pkg dpa : Nat) : Bool :=
  (s.vault (s.holdingVault pkg dpa)).fenced || (s.vault (s.holdingVault pkg dpa)).bad.contains (s.dpaAddr pkg dpa / 16)

theorem memBad_free (h : Config.memError = fun _ _ => false) (s : State) (pkg dpa : Nat) :
    s.memBad pkg dpa = memBadF s pkg dpa := by
  simp [State.memBad, memBadF, h]

/-- The first granule that cannot be read, a vault's read, a device's, a search's and a page walk, but for the free value. -/
def firstBadF (s : State) (pkg dpa n : Nat) : Option Nat := (granDpas dpa n).find? (fun g => memBadF s pkg g)

theorem firstBad_free (h : Config.memError = fun _ _ => false) (s : State) (pkg dpa n : Nat) :
    firstBad s pkg dpa n = firstBadF s pkg dpa n := by
  simp only [firstBad, firstBadF, memBad_free h]

def vaultReadF (s : State) (home pkg dpa n : Nat) : State × Except Nat (List Byte) :=
  match firstBadF s pkg dpa n with
  | some g => (s, .error g)
  | none =>
    match readPrep s home pkg dpa n with
    | (s, some g) => (s, .error g)
    | (s, none) => (s, .ok (s.dpaBytes pkg dpa n))

theorem vaultRead_free (h : Config.memError = fun _ _ => false) (s : State) (home pkg dpa n : Nat) :
    vaultRead s home pkg dpa n = vaultReadF s home pkg dpa n := by
  simp only [vaultRead, vaultReadF, firstBad_free h] <;> rfl

def placeReadF (s : State) (p : Place) (n : Nat) : Except (Nat × State) (List Byte × State) :=
  if p.host then p.read s n
  else
    match vaultReadF s (s.holdingVault p.pkg p.dpa) p.pkg p.dpa n with
    | (s, .error g) => .error (fcMEMERR, noteBad s p.pkg g)
    | (s, .ok b) => .ok (b, s)

theorem placeRead_free (h : Config.memError = fun _ _ => false) (p : Place) (s : State) (n : Nat) :
    p.read s n = placeReadF s p n := by
  by_cases hp : p.host = true
  · rw [placeReadF, if_pos hp]
  · rw [placeReadF, if_neg hp, Place.read, if_neg hp, vaultRead_free h] <;> rfl

def readByF (tr : State → Nat → Except (Nat × State) (Place × State)) :
    List (Nat × Nat) → State → Except (Nat × State) (List Byte × State)
  | [], s => .ok ([], s)
  | (va, n) :: r, s => do
    let (p, s) ← tr s va
    let (b, s) ← placeReadF s p n
    let (bs, s) ← readByF tr r s
    .ok (b ++ bs, s)

theorem readBy_free (h : Config.memError = fun _ _ => false) (tr : State → Nat → Except (Nat × State) (Place × State))
    (l : List (Nat × Nat)) (s : State) : readBy tr l s = readByF tr l s := by
  induction l generalizing s with
  | nil => rfl
  | cons x r ih => simp only [readBy, readByF, ih, placeRead_free h]

/-- A device's write, but for the free value. -/
def storeBytesF (pkg : Nat) : List Nat → Nat → List Byte → State → State × Nat × Option Nat
  | [], _, _, s => (s, 0, none)
  | g :: r, dpa, b, s =>
    let n := min (g + 16 - dpa) b.length
    if n < 16 ∧ memBadF s pkg g = true then (s, 0, some g)
    else
      let x := storeBytesF pkg r (dpa + n) (b.drop n) (storeGran s pkg dpa (b.take n))
      (x.1, x.2.1 + n, x.2.2)

theorem storeBytes_free (h : Config.memError = fun _ _ => false) (pkg : Nat) (l : List Nat) (dpa : Nat) (b : List Byte) (s : State) :
    storeBytes pkg l dpa b s = storeBytesF pkg l dpa b s := by
  induction l generalizing dpa b s with
  | nil => rfl
  | cons g r ih => simp only [storeBytes, storeBytesF, ih, memBad_free h]

def placeWriteF (s : State) (p : Place) (b : List Byte) : State × Option Nat :=
  if p.host then p.write s b
  else if (s.vault (s.holdingVault p.pkg p.dpa)).fenced then (s, some fcMEMERR)
  else
    match storeBytesF p.pkg (granDpas p.dpa b.length) p.dpa b s with
    | (s, _, some g) => (memFault s p.pkg g, some fcMEMERR)
    | (s, _, none) => (s, none)

theorem placeWrite_free (h : Config.memError = fun _ _ => false) (p : Place) (s : State) (b : List Byte) :
    p.write s b = placeWriteF s p b := by
  by_cases hp : p.host = true
  · rw [placeWriteF, if_pos hp]
  · rw [placeWriteF, if_neg hp, Place.write, if_neg hp, storeBytes_free h] <;> rfl

def writeByF (tr : State → Nat → Except (Nat × State) (Place × State)) :
    List (Nat × Nat) → List Byte → State → State × Option Nat
  | [], _, s => (s, none)
  | (va, n) :: r, bs, s =>
    match tr s va with
    | .error (f, s) => (s, some f)
    | .ok (p, s) =>
      match placeWriteF s p (bs.take n) with
      | (s, some f) => (s, some f)
      | (s, none) => writeByF tr r (bs.drop n) s

theorem writeBy_free (h : Config.memError = fun _ _ => false) (tr : State → Nat → Except (Nat × State) (Place × State))
    (l : List (Nat × Nat)) (bs : List Byte) (s : State) : writeBy tr l bs s = writeByF tr l bs s := by
  induction l generalizing bs s with
  | nil => rfl
  | cons x r ih => simp only [writeBy, writeByF, ih, placeWrite_free h] <;> rfl

/-- A read that succeeds, with a property of the bytes. -/
def okWith {ε α : Type} (x : Except ε (α × State)) (f : α → State → Bool) : Bool :=
  match x with
  | .ok (b, s) => f b s
  | .error _ => false

theorem okWith_spec {ε α : Type} {x : Except ε (α × State)} {f : α → State → Bool} (h : okWith x f = true) :
    ∃ b s', x = .ok (b, s') ∧ f b s' = true := by
  unfold okWith at h
  split at h
  · exact ⟨_, _, rfl, h⟩
  · cases h

/-- Whether a result is no error. -/
def isOk {ε α : Type} (x : Except ε α) : Bool :=
  match x with
  | .ok _ => true
  | .error _ => false

/-- A read that fails with a code. -/
def failsWith {α : Type} (x : Except (Nat × State) α) (fc : Nat) : Bool :=
  match x with
  | .ok _ => false
  | .error e => decide (e.1 = fc)

theorem failsWith_spec {α : Type} {x : Except (Nat × State) α} {fc : Nat} (h : failsWith x fc = true) :
    ∃ k, x = .error (fc, k) := by
  unfold failsWith at h
  split at h
  · cases h
  · exact ⟨_, by rw [← of_decide_eq_true h]⟩

/-- A check that succeeds, with a property of what it gives. -/
def okChk {α : Type} (x : Chk (α × State)) (f : α → State → Bool) : Bool :=
  match x with
  | .ok (b, s) => f b s
  | .error _ => false

def readPiecesF (home : Nat) (q : Req) : List (Nat × Nat) → State → State × Except Nat (List Byte)
  | [], s => (s, .ok [])
  | (va, n) :: r, s =>
    match placeNode s home q va with
    | .error (f, s) => (s, .error f)
    | .ok (p, s) =>
      if (s.vault (s.holdingVault p.pkg p.dpa)).fenced then (s, .error fcMEMERR)
      else
        match vaultReadF s (s.holdingVault p.pkg p.dpa) p.pkg p.dpa n with
        | (s, .error g) => (memFault s p.pkg g, .error fcMEMERR)
        | (s, .ok b) =>
          match readPiecesF home q r s with
          | (s, .ok c) => (s, .ok (b ++ c))
          | x => x

theorem readPieces_free (h : Config.memError = fun _ _ => false) (home : Nat) (q : Req) (l : List (Nat × Nat)) (s : State) :
    readPieces home q l s = readPiecesF home q l s := by
  induction l generalizing s with
  | nil => rfl
  | cons x r ih =>
    simp only [readPieces, readPiecesF, vaultRead_free h, ih] <;> rfl

def readPteF (s : State) (pkg dpa : Nat) : Except WalkErr Nat :=
  if dpa / 2 ^ 39 ≠ 0 then .error { code := fcWALKERR }
  else if memBadF s pkg dpa then .error { code := fcWALKERR, bad := some dpa }
  else .ok (leNat (s.dpaBytes pkg dpa 16))

def walkFromF (s : State) (pkg part va : Nat) : Nat → Nat → Except WalkErr Tr
  | 0, base => do
    let h := readPteF s pkg (base + 16 * (bitsHL va 20 16 * 16))
    let big := h.toOption.any bigLeaf
    let e ← if big then h else readPteF s pkg (base + 16 * bitsHL va 20 12)
    if bigLeaf e && !big then .error (groupFault h)
    else if !e.testBit 0 then .error { code := fcNOMAP }
    else if bitsHL e 61 9 ≠ 0 ∨ e.testBit 8 = true then .error { code := fcWALKERR }
    else if big then (if bitsHL e 91 62 % 16 ≠ 0 then .error { code := fcWALKERR } else .ok (leafTr part va 65536 e))
    else if bitsHL e 7 6 ≠ 0 then .error { code := fcWALKERR }
    else .ok (leafTr part va 4096 e)
  | k + 1, base => do
    let e ← readPteF s pkg (base + 16 * (va / 2 ^ (21 + 9 * k) % 512))
    if !e.testBit 0 then .error { code := fcNOMAP }
    else if bitsHL e 61 9 ≠ 0 then .error { code := fcWALKERR }
    else if e.testBit 8 then walkFromF s pkg part va k (bitsHL e 91 62 * 4096)
    else if k = 2 ∨ bitsHL e 7 6 ≠ k + 2 ∨ bitsHL e 91 62 * 4096 % pageSize (k + 2) ≠ 0 then .error { code := fcWALKERR }
    else .ok (leafTr part va (pageSize (k + 2)) e)

theorem walkFrom_free (h : Config.memError = fun _ _ => false) (s : State) (pkg part va k base : Nat) :
    walkFrom s pkg part va k base = walkFromF s pkg part va k base := by
  have hp : ∀ a, readPte s pkg a = readPteF s pkg a := by
    intro a
    simp only [readPte, readPteF, memBad_free h]
  induction k generalizing base with
  | zero => simp only [walkFrom, walkFromF, hp]
  | succ k ih => simp only [walkFrom, walkFromF, hp, ih]

/-! ## Witnesses: scalar words -/

theorem witness_IntegerRegisterResults :
    Runs s0 0 ∧ readX s0 1 = .ok 7 ∧ readX s0 0 = .ok 0 ∧
      (∀ i < 64, 64 - 61 ≤ i → (7 : Word).getLsbD i = false) ∧ (7 : Word).getLsbD (63 - 61) = true ∧
      (∀ i < 64, 64 - 64 ≤ i → (0 : Word).getLsbD i = false) ∧ (∀ i < 64, 64 - 0 ≤ i → (0 : Word).getLsbD i = false) :=
  ⟨runs_of (by decide +kernel), by decide +kernel, by decide +kernel, by decide, by decide, by decide, by decide⟩

theorem witness_ImmediateAndCompareResults :
    Runs s0 0 ∧ readX s0 1 = .ok 7 ∧ readX s0 2 = .ok 3 ∧
      (Instr.addi { g := 0, rd := 3, ra := 1, la := false, imm := { lent := false, raw := 1023 } }).wf = true ∧
      (Instr.addi { g := 0, rd := 3, ra := 1, la := false, imm := { lent := true, raw := 524287 } }).wf = true ∧
      (Instr.shli { g := 0, rd := 3, ra := 1, la := false, imm := { lent := false, raw := 63 } }).wf = true ∧
      (Instr.limms { g := 0, rd := 3, ra := 1, la := false, imm := { lent := true, raw := 65535 } }).wf = true ∧
      (Instr.cmpiEq { g := 0, rd := 6, ra := 1, la := false, imm := { lent := false, raw := 512 } }).wf = true ∧
      ({ g := 0, rd := 3, imm := { lent := false, raw := 127 } } : IX).wf = true ∧
      ({ g := 0, rd := 3, imm := { lent := false, raw := 896 } } : IX).wf = true :=
  ⟨runs_of (by decide +kernel), by and_intros <;> decide +kernel⟩

/-- x1 is dead and DEADCHK is 1. -/
def sDead : State := on { regs := { regs0 with deadchk := true, bank := { regs0.bank with dead := 2 } } }

theorem witness_SelResult :
    Runs s0 0 ∧ readX s0 1 = .ok 7 ∧ readX s0 2 = .ok 3 ∧
      Runs sDead 0 ∧ readX sDead 2 = .ok 3 ∧ readX sDead 1 = .error (.trap { cause := 0x04, info := 1 }) ∧
      ({ g := 0, rd := 3, ra := 1, rb := 2, la := false, lb := false, pa := 7 } : RSel).wf = true :=
  ⟨runs_of (by decide +kernel), by decide +kernel, by decide +kernel, runs_of (by decide +kernel), by and_intros <;> decide +kernel⟩

theorem witness_PredicateWords :
    Runs s0 0 ∧ readP s0 (0x05020000 / 2 ^ 27 % 8) = true ∧
      decodeWord 0x05020000 none = .ok (.pand { g := 0, rd := 2, ra := 0, rb := 0 }) ∧
      (bitsOf 0x05020000 30 2 = 0 ∧ bitsOf 0x05020000 21 6 = 0x28 ∧ bitsOf 0x05020000 16 5 = 2) ∧
      bitsOf 0x05010000 21 6 = 0x28 ∧ bitsOf 0x05010000 16 5 < 2 ∧ bitsOf 0x05080000 16 5 = 8 ∧
      bitsOf 0x05024000 11 5 = 8 ∧ bitsOf 0x05020200 6 5 = 8 :=
  ⟨runs_of (by decide +kernel), by and_intros <;> decide +kernel⟩

theorem witness_RegisterReadsAndWrites :
    s0.bank.dead.getLsbD 1 = false ∧ sDead.bank.dead.getLsbD 1 = true ∧ sDead.mon = false ∧ sDead.regs.deadchk = true := by
  decide +kernel

theorem witness_ScalarFrames :
    ∃ t u, exec (.add { g := 0, rd := 3, ra := 1, rb := 2, la := true, lb := false }) s0 = .next t ∧ Ran t ∧
      exec (.cmpEq { g := 0, rd := 6, ra := 1, rb := 2, la := false, lb := false }) s0 = .next u ∧ Ran u :=
  ⟨_, _, rfl, by unfold Ran; decide +kernel, rfl, by unfold Ran; decide +kernel⟩

theorem witness_Branches :
    ({ g := 0, imm := { lent := false, raw := 15 } } : SB).wf = true ∧ Runs s0 0 ∧ fetchLimit s0 = 64 ∧
      (s0.bundle.start : Int) + 4 * (BitVec.ofNat 21 15).toInt = 60 ∧
      ({ g := 0, imm := { lent := true, raw := 2 ^ 30 - 1 } } : SB).wf = true ∧
      (s0.bundle.start : Int) + 4 * (BitVec.ofNat 30 (2 ^ 30 - 1)).toInt = -4 ∧
      readX s0 0 = .ok 0 ∧ readX s0 1 = .ok 7 ∧ readX s0 4 = .ok 64 :=
  ⟨by decide +kernel, runs_of (by decide +kernel), by and_intros <;> decide +kernel⟩

theorem witness_LoopWord :
    (Instr.loop { g := 0, rd := 5, imm := { lent := false, raw := 15 } }).wf = true ∧
      (Instr.loop { g := 0, rd := 5, imm := { lent := false, raw := 16 } }).wf = true ∧ Runs s0 0 ∧
      readX s0 5 = .ok 1 ∧ readX s0 1 = .ok 7 ∧
      (s0.bundle.start : Int) + 4 * (Sext { lent := false, raw := 15 }).toInt = 60 ∧
      (s0.bundle.start : Int) + 4 * (Sext { lent := false, raw := 16 }).toInt = 64 ∧
      (bitsOf 0x06800000 30 2 = 0 ∧ bitsOf 0x06800000 21 6 = 0x34 ∧ bitsOf 0x06800000 16 5 = 0) ∧
      readP s0 (0x06800000 / 2 ^ 27 % 8) = true :=
  ⟨by decide +kernel, by decide +kernel, runs_of (by decide +kernel), by and_intros <;> decide +kernel⟩

/-- A return stack of n hardware entries at depth d. -/
def sRet (n d : Nat) (t : Tile := {}) : State :=
  on { regs := { regs0 with rsdepth := d, bank := { regs0.bank with ret := List.replicate n 5 } },
       task := { part := 0, spillva := 65536 } } t

/-- The monitor with a return stack of n entries. -/
def sMonRet (n e : Nat) : State := on {} { monitor := true, mbank := { ret := List.replicate n e } }

theorem witness_CallAndReturn :
    ({ g := 0, imm := { lent := false, raw := 4 } } : SB).wf = true ∧ Runs (sRet 15 15) 0 ∧ (sRet 15 15).mon = false ∧
      (sRet 15 15).regs.rsdepth ≠ 4096 ∧ (sRet 15 15).regs.bank.ret.length < 16 ∧
      Runs (sRet 16 4096) 0 ∧ (sRet 16 4096).regs.rsdepth = 4096 ∧ (sRet 16 4096).mon = false ∧
      Runs (sRet 0 0) 0 ∧ (sRet 0 0).regs.rsdepth = 0 ∧
      (sRet 1 1).regs.bank.ret = [5] ∧ 4 * 5 < (sRet 1 1).regs.plen :=
  ⟨by decide +kernel, runs_of (by decide +kernel), by decide +kernel, by decide +kernel, by decide +kernel,
    runs_of (by decide +kernel), by decide +kernel, by decide +kernel, runs_of (by decide +kernel), by and_intros <;> decide +kernel⟩

theorem witness_CallAndReturn_monitor :
    (∀ n ∈ [0, 15, 16], Runs (sMonRet n 5) 0 ∧ (sMonRet n 5).mon = true ∧ (sMonRet n 5).bank.ret.length = n) ∧
      (sMonRet 0 5).bank.ret = [] ∧ (sMonRet 1 5).bank.ret = [5] ∧ 4 * 5 < 16384 ∧ (sMonRet 1 4096).bank.ret = [4096] ∧
      Runs (sMonRet 1 4096) 0 ∧ (sMonRet 1 4096).mon = true ∧ 16384 ≤ 4 * 4096 ∧
      ({ g := 0, imm := { lent := false, raw := 4095 } } : SB).wf = true ∧
      ((sMonRet 0 5).bundle.start : Int) + 4 * (BitVec.ofNat 21 4095).toInt = 16380 ∧
      ({ g := 0, imm := { lent := false, raw := 4096 } } : SB).wf = true ∧
      ((sMonRet 0 5).bundle.start : Int) + 4 * (BitVec.ofNat 21 4096).toInt = 16384 := by
  unfold Runs; decide +kernel

/-- A bundle that has trapped CALLSPILL with a DETAIL. -/
def sSpilled (d : Nat) : State :=
  { sRet 0 1 with bundle := { start := 0, next := 4, status := .trapped { cause := 7, detail := d } } }

theorem witness_ReturnStackSpills :
    Runs (sRet 16 16 { tr := [tr0] }) 0 ∧ (sRet 16 16).regs.bank.ret.length = 16 ∧ (sRet 16 16).ctx.spec = none ∧
      (Config.memError = (fun _ _ => false) →
        (spillWrite (sRet 16 16 { tr := [tr0] }) 0 (sRet 16 16).ctx 65536 [5, 0]).2 = none) ∧
      (spillWrite (sRet 16 16) 0 (sRet 16 16).ctx 65536 [5, 0]).2 = some 4 ∧
      Runs (sRet 0 1) 0 ∧ (sRet 0 1).regs.rsdepth ≠ 0 ∧ (sRet 0 1).regs.bank.ret = [] ∧
      (∃ k, spillRead (sRet 0 1) 0 (sRet 0 1).ctx 65536 2 = .error (4, k)) ∧
      (Config.memError = (fun _ _ => false) → ∃ b s', spillRead (sRet 0 1 { tr := [tr0] }) 0 (sRet 0 1).ctx 65536 2 = .ok (b, s') ∧
        decide (4 * (leNat b % 2 ^ 15) < fetchLimit s') = true) ∧
      (sRet 16 16).mon = false ∧ (sRet 0 1).mon = false ∧ (sRet 0 1).ctx.spec = none ∧
      ∀ d ∈ [2, 3], (sSpilled d).bundle.status = .trapped { cause := 7, detail := d } :=
  ⟨runs_of (by decide +kernel), by decide +kernel, by decide +kernel,
    fun h => by unfold spillWrite; rw [writeBy_free h]; decide +kernel, by decide +kernel,
    runs_of (by decide +kernel), by decide +kernel, by decide +kernel, failsWith_spec (by decide +kernel),
    fun h => by unfold spillRead; rw [readBy_free h]; exact okWith_spec (by decide +kernel), by and_intros <;> decide +kernel⟩
/-! ## Witnesses: control, traps and steps -/

theorem witness_TaskControl :
    Runs s0 0 ∧ s0.ctx.spec = none ∧ s0.mon = false ∧ Runs sSpec 0 ∧ sSpec.ctx.spec ≠ none ∧ sSpec.mon = false :=
  ⟨runs_of (by decide +kernel), by decide +kernel, by decide +kernel, runs_of (by decide +kernel), by decide +kernel,
    by decide +kernel⟩

/-- The task of s1 in a launch 1 whose tree of group 0 waits for phase 0, with outcome out; ph is the task's phase bit. -/
def sLaunch (ph : Bool) (out : Nat) : State :=
  { on { regs := { regs0 with ph := (Vector.replicate 4 false).setIfInBounds 0 ph }, task := { task0 with launch := 1 },
         arrives := (Vector.replicate 4 0).setIfInBounds 0 (if ph then 1 else 0) } with
    launches := [{ num := 1, job := 0, pkg := 0, image := [], trees := (Vector.replicate 4 {}).setIfInBounds 0 { out := out } }] }

theorem witness_ArriveWord :
    (∀ n < 4, ({ g := 0, n := n } : GB).wf = true) ∧ Runs s1 0 ∧ s1.ctx.task.bgroups.testBit 2 = false ∧
      s1.ctx.task.bgroups.testBit 1 = true ∧ s1.ctx.spec = none ∧ Runs sSpec 0 ∧ sSpec.ctx.task.bgroups.testBit 0 = true ∧
      sSpec.ctx.spec ≠ none ∧ s1.groupOut s1.ctx.task.launch 0 = 0 ∧ (sLaunch false 2).groupOut 1 0 ≠ 0 ∧
      Runs (sLaunch false 2) 0 :=
  ⟨by decide +kernel, runs_of (by decide +kernel), by decide +kernel, by decide +kernel, by decide +kernel,
    runs_of (by decide +kernel), by decide +kernel, by decide +kernel, by decide +kernel, by decide +kernel,
    runs_of (by decide +kernel)⟩

/-- A task whose flag 5 is set with a status record. -/
def sFlag (q : Quad) : State :=
  on { regs := { regs0 with flag := (Vector.replicate 64 {}).setIfInBounds 5 { on := true, status := q } } }

/-- Records that a WAITF traps on, and one that it does not. -/
def recs (k : Nat) : Quad :=
  if k = 0 then RecF.bits { status := 7, kind := 7, fcode := 0x13 } else if k = 1 then RecF.bits { status := 7, kind := 14, fcode := 5 }
  else if k = 2 then RecF.bits { status := 2, kind := 4, fcode := 0x12 } else RecF.bits { status := 0, kind := 1 }

/-- The next speculation's number is still being released. -/
def sUsed : State :=
  (sLaunch true 0).modCtx (fun p => { p with releasing := [{ number := (p.specCount + 1).toNat, toSend := [], waiting := [] }] })

theorem witness_WaitWords :
    Runs s1 0 ∧ s1.ctx.task.bgroups.testBit 2 = false ∧ s1.ctx.task.bgroups.testBit 0 = true ∧ waitDone s1 0 = true ∧
      Runs (sLaunch true 0) 0 ∧ (sLaunch true 0).ctx.task.bgroups.testBit 0 = true ∧ waitDone (sLaunch true 0) 0 = false ∧
      maySpeculate (sLaunch true 0) 0 = true ∧
      Runs ((sLaunch true 0).modCtx (fun p => { p with rollbacks := 2 })) 0 ∧
      waitDone ((sLaunch true 0).modCtx (fun p => { p with rollbacks := 2 })) 0 = false ∧
      maySpeculate ((sLaunch true 0).modCtx (fun p => { p with rollbacks := 2 })) 0 = false ∧
      numberInUse (sLaunch true 0).ctx = false ∧ Runs sUsed 0 ∧ sUsed.ctx.task.bgroups.testBit 0 = true ∧ waitDone sUsed 0 = false ∧
      maySpeculate sUsed 0 = true ∧ numberInUse sUsed.ctx = true ∧
      (∀ k < 4, Runs (sFlag (recs k)) 0 ∧ ((sFlag (recs k)).regs.flag[5]?).getD ({} : Flag) = { on := true, status := recs k }) ∧
      (({ on := true, status := 0 } : Flag).bound.bind (heldBehind (sFlag 0).ctx)) = none :=
  ⟨runs_of (by decide +kernel), by decide +kernel, by decide +kernel, by decide +kernel, runs_of (by decide +kernel),
    by decide +kernel, by decide +kernel, by decide +kernel, runs_of (by decide +kernel), by decide +kernel,
    by decide +kernel, by decide +kernel, runs_of (by decide +kernel), by decide +kernel, by decide +kernel, by decide +kernel,
    by decide +kernel, by unfold Runs; decide +kernel, by decide +kernel⟩

/-- A task whose flag 5 is bound to a copy in channel 0, which the faulted copy of flag 6 holds. -/
def sBehind : State :=
  on { regs := { regs0 with flag := (Vector.replicate 64 {}).setIfInBounds 5 { bound := some 2 } },
       chan := (Vector.replicate 4 []).setIfInBounds 0 [{ id := 2, flag := 5, blk := 0 }],
       hold := (Vector.replicate 4 none).setIfInBounds 0 (some 6) }

theorem witness_WaitWords_behind :
    Runs sBehind 0 ∧ ((sBehind.regs.flag[5]?).getD ({} : Flag)).on = false ∧
      ((sBehind.regs.flag[5]?).getD ({} : Flag)).bound.bind (heldBehind sBehind.ctx) = some 6 := by
  unfold Runs; decide +kernel

/-- The monitor with TXIDX n. -/
def sTx (n : Nat) : State := on { regs := regs0 } { monitor := true, txidx := n }

theorem witness_CsrWords_values :
    (s0.regs.retrylim < 16 ∧ s0.regs.boff < 16 ∧ s0.regs.valloc ≤ 64) ∧ (∀ n < 4, s0.groupOut s0.ctx.task.launch n < 16) ∧
      (s0.mon = false ∧ sMon.mon = true) ∧ sMon.curTile.mtpcPlane < 2 ∧ sMon.curTile.mendAct < 16 ∧
      (∀ p < 2, (sMon.curTile.pl p).state < 8) ∧ sMon.curTile.sysStatus < 256 ∧ sMon.curTile.sysFcode < 256 ∧
      sMon.ctx.pass < 16 ∧ sMon.curTile.wrem < 2 ^ 15 ∧
      ∀ n ∈ [0, 31, 32, 33, 34, 63], (sTx n).curTile.txidx = n := by
  decide +kernel

theorem witness_CsrWords :
    Runs s1 0 ∧ readX s1 1 = .ok 7 ∧ csrCause s1.mon 0x0D = none ∧ csrCause s1.mon 0x0E = some 0x01 ∧
      csrCause s1.mon 0x22 = none ∧ csrCause s1.mon 0x23 = some 0x01 ∧ csrCause s1.mon 0x100 = some 0x08 ∧
      csrCause sMon.mon 0x111 = none ∧ Runs sSpec 0 ∧ readX sSpec 1 = .ok 7 ∧ sSpec.ctx.spec ≠ none :=
  ⟨runs_of (by decide +kernel), by decide +kernel, by decide +kernel, by decide +kernel, by decide +kernel,
    by decide +kernel, by decide +kernel, by decide +kernel, runs_of (by decide +kernel), by decide +kernel, by decide +kernel⟩

/-- A task with a user handler at 0x20, active or not. -/
def sHandler (act : Bool) : State := on { regs := { regs0 with utvec := 0x20, utcause := if act then 0x10000 else 0 } }

theorem witness_TrapToUserHandler :
    (sHandler false).mon = false ∧ (sHandler false).regs.utvec ≠ 0 ∧ (sHandler false).regs.utcause.getLsbD 16 = false := by
  decide +kernel

theorem witness_TrapToMonitor :
    s0.mon = false ∧ s0.ctxP < 2 ∧ s0.regs.utvec = 0 ∧ (sHandler true).mon = false ∧ (sHandler true).ctxP < 2 ∧
      (sHandler true).regs.utcause.getLsbD 16 = true ∧ sMon.mon = true := by
  decide +kernel

theorem witness_TrapWords :
    Runs (sHandler false) 0 ∧ (sHandler false).mon = false ∧ (sHandler false).ctx.spec = none ∧
      (sHandler false).regs.utvec ≠ 0 ∧ (sHandler false).regs.utcause.getLsbD 16 = false ∧
      Runs sSpec 0 ∧ sSpec.mon = false ∧ sSpec.ctx.spec ≠ none ∧
      readP s0 (Instr.word (.tret { g := 0 }) / 2 ^ 27 % 8) = true ∧
      decodeWord (Instr.word (.tret { g := 0 })) none = .ok (.tret { g := 0 }) ∧
      decodeWord (Instr.word (.csrr { g := 0, rd := 1, csr := 0x100 })) none = .ok (.csrr { g := 0, rd := 1, csr := 0x100 }) ∧
      csrPriv 0x100 = true :=
  ⟨runs_of (by decide +kernel), by decide +kernel, by decide +kernel, by decide +kernel, by decide +kernel,
    runs_of (by decide +kernel), by and_intros <;> decide +kernel⟩

theorem witness_GuardsAndHeaders :
    (Instr.add { g := 1, rd := 3, ra := 1, rb := 2, la := false, lb := false }).wf = true ∧
      (Instr.add { g := 1, rd := 3, ra := 1, rb := 2, la := false, lb := false }).cls = some 0 ∧
      readP s0 ((Instr.add { g := 1, rd := 3, ra := 1, rb := 2, la := false, lb := false }).word / 2 ^ 27 % 8) = false := by
  decide +kernel

/-- Tile 0 at a bundle of one word. -/
def sWord (w : Nat) : State := State.reset.withFetchWord 32 w

theorem witness_StepRunsDecodedWord :
    TileRuns (sWord 0x00030880) 0 ∧
      (let s0 : State := { sWord 0x00030880 with cur := 0, bundle := {} }
       fetchPc s0 = 0 ∧ 0 + 4 ≤ fetchLimit s0 ∧ codeWord s0 0 = 0x00030880 ∧ wordClass 0x00030880 < 3 ∧
         wordClass (codeWord s0 4) ≤ wordClass 0x00030880 ∧
         readP { s0 with bundle := { start := 0, next := 4 } } (0x00030880 / 2 ^ 27 % 8) = true) ∧
      decodeWord 0x00030880 none = .ok (.add { g := 0, rd := 3, ra := 1, rb := 2, la := false, lb := false }) ∧
      privCause false (.add { g := 0, rd := 3, ra := 1, rb := 2, la := false, lb := false }) = none ∧
      TileRuns (sWord (Instr.word (.tret { g := 0 }))) 0 ∧ privCause false (.tret { g := 0 }) = some 0x08 ∧
      TileRuns (sWord 0x06800000) 0 ∧ decodeWord 0x06800000 none = .error .operandRange := by
  refine ⟨by unfold TileRuns; decide +kernel, by decide +kernel, by decide +kernel, by decide +kernel,
    by unfold TileRuns; decide +kernel, by decide +kernel, by unfold TileRuns; decide +kernel, by decide +kernel⟩

/-- Tile 0 at LIMM x6, 300000 (Table 8.12), a bundle of a lend header and one word. -/
def sLent : State := State.reset.withFetchWord 64 (0xD1240000 + 2 ^ 32 * 0x03C603E0)

/-- Its header: LENDS alone. -/
def lendS : Lend := { hs := true, hv := false, hm := false, y := false, ls := 292, lv := 0, lm := 0 }

theorem witness_StepRunsLentWord :
    TileRuns sLent 0 ∧
      decodeWord (codeWord { sLent with cur := 0, bundle := {} } 0) none = .ok (.lendHeader lendS) ∧ lendS.only = some 0 ∧
      decodeWord 0x03C603E0 (some (lendS.forCls 0)) = .ok (.limm { g := 0, rd := 6, imm := { lent := true, raw := 300000 } }) ∧
      (let s0 : State := { sLent with cur := 0, bundle := {} }
       fetchPc s0 = 0 ∧ 0 + 8 ≤ fetchLimit s0 ∧ wordClass (codeWord s0 0) = 3 ∧ codeWord s0 4 = 0x03C603E0 ∧
         wordClass 0x03C603E0 = 0 ∧ readP s0 (0x03C603E0 / 2 ^ 27 % 8) = true) ∧
      privCause false (.limm { g := 0, rd := 6, imm := { lent := true, raw := 300000 } }) = none := by
  exact ⟨by unfold TileRuns; decide +kernel, by and_intros <;> decide +kernel⟩

/-- A bundle that ran, with a mark and a taken transfer; one that stalled; one that trapped. -/
def sEnd (st : BStatus) : State := { s0 with bundle := { start := 0, next := 4, jump := some 8, killX := [1], status := st } }

/-- The header of sLent at the end of the program, and before a V word. -/
def sCut : State := sLent.modPlane 0 0 (fun pl => { pl with regs := { pl.regs with plen := 4 } })
def sWrong : State := State.reset.withFetchWord 64 (0xD1240000 + 2 ^ 32 * 0x40000000)

/-- A header for a V word that lends S bits, and a V word after it. -/
def lendBad : Lend := { hs := false, hv := true, hm := false, y := false, ls := 1, lv := 0, lm := 0 }
def sLendBad : State := State.reset.withFetchWord 64 ((Instr.lendHeader lendBad).word + 2 ^ 32 * 0x40000000)

theorem witness_BundlesBeginAndEnd_lent :
    Lend.read (codeWord sLendBad 0) = lendBad ∧ bitsOf (codeWord sLendBad 0) 29 1 = 0 ∧ wordClass (codeWord sLendBad 0) = 3 ∧
      0 + 4 + 4 * (lendClasses lendBad).length ≤ fetchLimit sLendBad ∧
      (∀ k < (lendClasses lendBad).length, (lendClasses lendBad)[k]? = some (wordClass (codeWord sLendBad (0 + 4 + 4 * k)))) ∧
      lendBad.hs = false ∧ lendBad.ls ≠ 0 ∧ sLendBad.mon = false ∧ sLendBad.ctx.spec = none ∧ fetchPc sLendBad = 0 ∧
      sLendBad.bundle = {} ∧ 0 + 4 + 4 * maskWords (codeWord sLendBad 0) ≤ fetchLimit sLendBad ∧
      (lendClasses lendS).length ≤ 1 ∧ (∀ k < (lendClasses lendS).length, (lendClasses lendS)[k]? = some (wordClass (codeWord sLent (0 + 4 + 4 * k)))) ∧
      Lend.read (codeWord sWrong 0) = lendS ∧ bitsOf (codeWord (sWord 0xFFFFFFFF) 0) 29 1 = 1 := by
  decide +kernel

theorem witness_BundlesBeginAndEnd :
    s0.mon = false ∧ s0.ctx.spec = none ∧ (sEnd .running).mon = false ∧ (sEnd .running).ctx.spec = none ∧
      (sEnd .running).bundle.status = .running ∧ (sEnd .running).bundle.moved = false ∧
      (sEnd .running).bundle.yielding = none ∧ (sEnd .stalled).bundle.status = .stalled ∧
      (sEnd (.trapped { cause := 5 })).bundle.status = .trapped { cause := 5 } ∧
      fetchLimit s0 < 64 + 4 ∧ 0 + 4 ≤ fetchLimit sLent ∧ wordClass (codeWord sLent 0) = 3 ∧ fetchPc s0 = 0 ∧
      frame (on { regs := { regs0 with plen := 0 } }) 0 = .error { cause := 0x02, info := 0 } ∧
      decodeWord (codeWord (sWord 0xFFFFFFFF) 0) none = .error .reservedField ∧
      wordClass (codeWord (sWord 0xFFFFFFFF) 0) = 3 ∧ 0 + 4 + 4 * maskWords (codeWord (sWord 0xFFFFFFFF) 0) ≤ fetchLimit (sWord 0xFFFFFFFF) ∧
      0 + 4 ≤ fetchLimit sCut ∧ fetchLimit sCut < 0 + 4 + 4 * maskWords (codeWord sCut 0) ∧ wordClass (codeWord sCut 0) = 3 ∧
      0 + 4 + 4 * 1 ≤ fetchLimit sWrong ∧ decodeWord (codeWord sWrong 0) none = .ok (.lendHeader lendS) ∧
      lendClasses lendS = [0] ∧ wordClass (codeWord sWrong 4) = 1 := by
  and_intros <;> decide +kernel

/-- The monitor over plane 0 with MEND.ACT a; busy says that the plane's copy channel 0 holds a started copy. -/
def sTret (a : Nat) (busy fenced : Bool) : State :=
  on { regs := regs0, task := task0,
       chan := (Vector.replicate 4 []).setIfInBounds 0 (if busy then [{ id := 1, flag := 0, blk := 0, started := true }] else []) }
    { monitor := true, mendAct := a, fenced := fenced }

/-- A speculation is open under the monitor. -/
def sTretSpec : State := (sTret 0 false false).modCtx (fun p => { p with spec := some { ckpt := regs0, number := 1, group := 0, phase := false, pc := 0 } })

/-- ACT 2 of a task that is suspended already or not, with its cancel pending or not. -/
def sTretOut (out can : Bool) : State :=
  let s := (sTret 2 false false).modCtx (fun p => { p with cancel := can })
  { s with suspended := if out then [{ rank := 0, plane := { task := task0 } }] else [] }

/-- ACT 0 after a cause with its information, of a task that is to be resumed or not. -/
def sTretFrom (cause info : Nat) (rk : Bool) : State :=
  ((sTret 0 false false).modCtx (fun p => { p with resumeKind := rk })).modTile 0 (fun t =>
    { t with mtcause := BitVec.ofNat 64 cause, mtinfo := BitVec.ofNat 64 info })

theorem witness_TretWord_ends :
    (∀ a < 3, ∀ b : Bool, (sTret a b false).curTile.tretEnds = decide (a = 1)) ∧ (sTret 0 false true).curTile.tretEnds = true ∧
      (∀ rk : Bool, ∀ n < 5, (sTretFrom (0x10 + n % 2) n rk).curTile.tretEnds = decide (n = 3)) ∧
      (∀ k c : Bool, (sTretOut k c).curTile.tretEnds = false) := by
  decide +kernel

theorem witness_TretWord :
    (∀ a < 3, ∀ b : Bool, Runs (sTret a b false) 0 ∧ (sTret a b false).mon = true ∧ (sTret a b false).curTile.mtpcPlane < 2 ∧
      (sTret a b false).curTile.mendAct = a ∧ (sTret a b false).curTile.fenced = false ∧
      engIdle (sTret a b false).curTile (sTret a b false).curTile.mtpcPlane = !b) ∧
    (Runs (sTret 0 false true) 0 ∧ (sTret 0 false true).mon = true ∧ (sTret 0 false true).curTile.fenced = true ∧
      (sTret 0 false true).curTile.mtpcPlane < 2 ∧ (sTret 0 false true).ctx.spec = none) ∧
    (Runs sTretSpec 0 ∧ sTretSpec.mon = true ∧ sTretSpec.ctx.spec ≠ none ∧ sTretSpec.curTile.mtpcPlane < 2) ∧
    (∀ k c : Bool, ((sTretOut k c).curTile.pl 0).cancel = c ∧ (suspOf (sTretOut k c) 0 ((sTretOut k c).curTile.pl 0).task).isSome = k ∧
      Runs (sTretOut k c) 0 ∧ (sTretOut k c).mon = true ∧ (sTretOut k c).ctx.spec = none ∧ (sTretOut k c).curTile.mendAct = 2 ∧
      (sTretOut k c).curTile.fenced = false ∧ engIdle (sTretOut k c).curTile 0 = true) ∧
    (∀ rk : Bool, ∀ n < 5, Runs (sTretFrom (0x10 + n % 2) n rk) 0 ∧ (sTretFrom (0x10 + n % 2) n rk).mon = true ∧
      (sTretFrom (0x10 + n % 2) n rk).ctx.spec = none ∧ (sTretFrom (0x10 + n % 2) n rk).curTile.fenced = false ∧
      (sTretFrom (0x10 + n % 2) n rk).curTile.mendAct = 0 ∧
      (sTretFrom (0x10 + n % 2) n rk).curTile.mtcause.toNat % 256 = 0x10 + n % 2 ∧
      bitsHL (sTretFrom (0x10 + n % 2) n rk).curTile.mtcause.toNat 47 40 = 0 ∧
      (sTretFrom (0x10 + n % 2) n rk).curTile.mtcause.toNat / 2 ^ 32 % 2 = 0 ∧
      (sTretFrom (0x10 + n % 2) n rk).curTile.mtinfo.toNat % 2 ^ 32 = n ∧
      ((sTretFrom (0x10 + n % 2) n rk).curTile.pl 0).resumeKind = rk) := by
  unfold Runs; decide +kernel

/-- The monitor over plane 0, with plane 1 in a state, with or without a swap token. -/
def sPlanes (st : Nat) (tok : Bool) : State := on {} { monitor := true, plane1 := { state := st, token := tok } }

theorem witness_PlaneswAndFenceall :
    (∀ st < 5, ∀ tok : Bool, Runs (sPlanes st tok) 0 ∧ (sPlanes st tok).mon = true ∧ (sPlanes st tok).curTile.mtpcPlane = 0 ∧
      ((sPlanes st tok).curTile.pl 1).state = st ∧ ((sPlanes st tok).curTile.pl 1).token = tok) ∧
    (∀ b : Bool, engIdle (sTret 0 b false).curTile (sTret 0 b false).ctxP = !b) ∧ (sPlanes 0 false).ctx.spec = none ∧
    (Runs sTretSpec 0 ∧ sTretSpec.mon = true ∧ sTretSpec.ctx.spec ≠ none ∧ sTretSpec.curTile.mtpcPlane < 2) := by
  unfold Runs; decide +kernel

/-- The monitor with x1 = v. -/
def sMonX (v w : Word) (pl : Plane := {}) (t : Tile := {}) : State :=
  on pl { t with monitor := true, mbank := { x := ((Vector.replicate 32 0).setIfInBounds 1 v).setIfInBounds 2 w } }

/-- The monitor with a task address of a context save area in x1 that the tile translates up to an address; its record gives a till
size. -/
def sLoad (till hi : Nat) : State :=
  let s := sMonX 0x100000 0 {} { tr := [{ tr0 with lo := 0x100000, hi := hi }] }
  { s with
    mem := memWrite (memWrite [] (State.reset.dpaAddr 0 0x22A0) (leBytes 8 262144)) (State.reset.dpaAddr 0 0x22A8)
      (leBytes 8 till) }

/-- The monitor with a started copy, at the same address. -/
def sLoadBusy : State :=
  sMonX 0x100000 0 { chan := (Vector.replicate 4 []).setIfInBounds 0 [{ id := 1, flag := 0, blk := 0, started := true }] }

def writeRowsF (s : State) (r : Nat) (pl : Plane) (base : Nat) : List CtxRow → State × Option Nat
  | [] => (s, none)
  | x :: l =>
    if x.2.2 then
      match writeByF (spillPlace r pl true) (pieces (base + x.1) x.2.1.length) x.2.1 s with
      | (s, none) => writeRowsF s r pl base l
      | y => y
    else writeRowsF s r pl base l

theorem writeRows_free (h : Config.memError = fun _ _ => false) (s : State) (r : Nat) (pl : Plane) (base : Nat) (l : List CtxRow) :
    writeRows s r pl base l = writeRowsF s r pl base l := by
  induction l generalizing s with
  | nil => rfl
  | cons x l ih => simp only [writeRows, writeRowsF, spillWrite, writeBy_free h, ih] <;> rfl

/-- The monitor over a task of no v registers at a CTXSAVE, with a translation of the area or none. -/
def sSave (ok : Bool) : State :=
  sMonX 0x100000 0 {} { tr := if ok then [{ tr0 with lo := 0x100000, hi := 0x1FFFFF }] else [] }

theorem witness_ContextWords_save :
    (∀ ok : Bool, Runs (sSave ok) 0 ∧ (sSave ok).mon = true ∧ (sSave ok).ctx.spec = none ∧
      readX (sSave ok) 1 = .ok 0x100000 ∧ engIdle (sSave ok).curTile (sSave ok).ctxP = true) ∧
      (Config.memError = (fun _ _ => false) →
        (writeRows (sSave true) 0 ((sSave true).plane 0 0) 0x100000 (saveRows (sSave true) 0 false)).2 = none) ∧
      (Config.memError = (fun _ _ => false) →
        (writeRows (sSave false) 0 ((sSave false).plane 0 0) 0x100000 (saveRows (sSave false) 0 false)).2 = some 4) := by
  refine ⟨by unfold Runs; decide +kernel, fun h => ?_, fun h => ?_⟩
  · rw [writeRows_free h]; decide +kernel
  · rw [writeRows_free h]; decide +kernel

/-- The bytes that rows in order give from an offset on, with zeros between them. -/
def fill : Nat → List CtxRow → List Byte
  | _, [] => []
  | a, x :: r => List.replicate (x.1 - a) 0 ++ (x.2.1 ++ fill (x.1 + x.2.1.length) r)

/-- Whether rows follow one another from an offset on. -/
def inOrder : Nat → List CtxRow → Bool
  | _, [] => true
  | a, x :: r => decide (a ≤ x.1) && inOrder (x.1 + x.2.1.length) r

theorem inOrder_le (l : List CtxRow) : ∀ a, inOrder a l = true → ∀ x ∈ l, a ≤ x.1 := by
  induction l with
  | nil => simp
  | cons y r ih =>
    intro a h x hx
    simp only [inOrder, Bool.and_eq_true, decide_eq_true_eq] at h
    rcases List.mem_cons.1 hx with rfl | hx
    · exact h.1
    · have := ih _ h.2 x hx
      omega

theorem fill_at (l : List CtxRow) : ∀ a, inOrder a l = true → ∀ x ∈ l, ((fill a l).drop (x.1 - a)).take x.2.1.length = x.2.1 := by
  induction l with
  | nil => simp
  | cons y r ih =>
    intro a h x hx
    simp only [inOrder, Bool.and_eq_true, decide_eq_true_eq] at h
    rw [fill]
    rcases List.mem_cons.1 hx with rfl | hx
    · rw [List.drop_append_of_le_length (by simp), List.drop_of_length_le (by simp), List.nil_append, List.take_left]
    · have hle := inOrder_le r _ h.2 x hx
      have e : x.1 - a = (List.replicate (y.1 - a) (0 : Byte)).length + (y.2.1.length + (x.1 - (y.1 + y.2.1.length))) := by
        simp; omega
      rw [e, List.drop_length_add_append, List.drop_length_add_append]
      exact ih _ h.2 x hx

/-- The registers of s0 lie in their widths, and a record holds every row that CTXSAVE writes of them. -/
theorem witness_ContextWords_kept :
    s0.regs = regs0 ∧ s0.mon = false ∧ regs0.InRange ∧ (4 % 4 = 0 ∧ 4 < 2 ^ 18) ∧
      ∃ b : List Byte, ∀ x ∈ ctxRows s0 regs0 4 [], x.2.2 = true → (b.drop x.1).take x.2.1.length = x.2.1 :=
  ⟨by decide +kernel, by decide +kernel, by unfold Regs.InRange; decide +kernel, by decide,
    fill 0 (ctxRows s0 regs0 4 []), fun x hx _ => fill_at _ 0 (by decide +kernel) x hx⟩

theorem witness_ContextWords :
    Runs (sMonX 0x100000 0) 0 ∧ (sMonX 0x100000 0).mon = true ∧ (sMonX 0x100000 0).ctx.spec = none ∧
      readX (sMonX 0x100000 0) 1 = .ok 0x100000 ∧ (0x100000 : Word).toNat / 2 % 2 ^ 19 = 0 ∧
      engIdle (sMonX 0x100000 0).curTile (sMonX 0x100000 0).ctxP = true ∧
      (Runs sLoadBusy 0 ∧ readX sLoadBusy 1 = .ok 0x100000 ∧ engIdle sLoadBusy.curTile sLoadBusy.ctxP = false) ∧
      (Runs sTretSpec 0 ∧ sTretSpec.mon = true ∧ sTretSpec.ctx.spec ≠ none) ∧
      Runs (sMonX 0x80000 0) 0 ∧ readX (sMonX 0x80000 0) 1 = .ok 0x80000 ∧ (0x80000 : Word).toNat / 2 % 2 ^ 19 ≠ 0 ∧
      (∃ k, spillRead (sMonX 0x100000 0) 0 ((sMonX 0x100000 0).plane 0 0) (0x100000 + 0x2000) 65536 = .error (4, k)) ∧
      Runs (sLoad 1 0x1FFFFF) 0 ∧ (sLoad 1 0x1FFFFF).mon = true ∧ readX (sLoad 1 0x1FFFFF) 1 = .ok 0x100000 ∧
      (Config.memError = (fun _ _ => false) → ∃ x s',
        spillRead (sLoad 64 0x1FFFFF) 0 ((sLoad 64 0x1FFFFF).plane 0 0) (0x100000 + 0x2000) 65536 = .ok (x, s') ∧
        (!ctxFits ((sLoad 64 0x1FFFFF).plane 0 0).regs x) = true) ∧
      (Config.memError = (fun _ _ => false) → ∀ b : Bool, ∃ x s',
        spillRead (sLoad 32768 (if b then 0x1FFFFF else 0x111FFF)) 0 ((sLoad 32768 (if b then 0x1FFFFF else 0x111FFF)).plane 0 0)
          (0x100000 + 0x2000) 65536 = .ok (x, s') ∧
        (ctxFits ((sLoad 32768 (if b then 0x1FFFFF else 0x111FFF)).plane 0 0).regs x &&
          (isOk (readRecords s' 0 0x100000 false) == b)) = true) := by
  refine ⟨runs_of (by decide +kernel), by decide +kernel, by decide +kernel, by decide +kernel, by decide +kernel,
    by decide +kernel, ⟨runs_of (by decide +kernel), by and_intros <;> decide +kernel⟩,
    ⟨runs_of (by decide +kernel), by and_intros <;> decide +kernel⟩, runs_of (by decide +kernel), by decide +kernel,
    by decide +kernel, failsWith_spec (by decide +kernel), runs_of (by decide +kernel), by decide +kernel, by decide +kernel,
    fun h => ?_, fun h b => ?_⟩
  · unfold spillRead; rw [readBy_free h]
    exact okWith_spec (by decide +kernel)
  · simp only [readRecords, readEngine, readMatching, readImage, spillRead, readBy_free h]
    cases b
    · exact okWith_spec (by decide +kernel)
    · exact okWith_spec (by decide +kernel)

/-- A receive and a delivery to it. -/
def recv0 : Recv := { id := 1, flag := 0, src := 0, tag := 0, group := 0, addr := 0, cap := 0 }
def delivery0 : Delivery := { did := 1, recv := recv0, hdr := default, want := 0 }

/-- The monitor with x1 = v, over a plane that diverts or delivers, with a translation of its spill queue or none. -/
def sDivert (v : Word) (div del ok : Bool) : State :=
  sMonX v 0 { diverted := div, deliveries := if del then [delivery0] else [] } { tr := if ok then [tr0] else [] }

/-- A DIVERT that waits: for the delivery that is there, or for one that has ended. -/
def sDivWait (i : Bool) : State :=
  sMonX 65536 0 { deliveries := [delivery0] } { tr := [tr0], divertWait := some [if i then 1 else 2] }

theorem witness_DivertResumeTlbinv :
    (∀ d e k : Bool, Runs (sDivert 65536 d e k) 0 ∧ (sDivert 65536 d e k).mon = true ∧
      readX (sDivert 65536 d e k) 1 = .ok 65536 ∧
      (sDivert 65536 d e k).ctx.diverted = d ∧ (sDivert 65536 d e k).ctx.deliveries.isEmpty = !e ∧
      (sDivert 65536 d e k).ctx.spillq = [] ∧ (sDivert 65536 d e k).ctx.spec = none ∧
      (sDivert 65536 d e k).curTile.divertWait = none ∧
      queueFault (sDivert 65536 d e k) (sDivert 65536 d e k).ctxP 65536 = if k then none else some 4) ∧
    (∀ i : Bool, Runs (sDivWait i) 0 ∧ (sDivWait i).mon = true ∧ readX (sDivWait i) 1 = .ok 65536 ∧ (sDivWait i).ctx.spec = none ∧
      (sDivWait i).curTile.divertWait = some [if i then 1 else 2] ∧ (sDivWait i).ctx.deliveries = [delivery0]) ∧
    (Runs sTretSpec 0 ∧ sTretSpec.mon = true ∧ sTretSpec.ctx.spec ≠ none) ∧
    (65536 : Word).toNat % 65536 = 0 ∧ (65537 : Word).toNat % 65536 ≠ 0 ∧ readX (sDivert 65537 true true true) 1 = .ok 65537 ∧
    (Runs (sMonX (2 ^ 48 - 4096) 4096) 0 ∧ readX (sMonX (2 ^ 48 - 4096) 4096) 1 = .ok (2 ^ 48 - 4096) ∧
      readX (sMonX (2 ^ 48 - 4096) 4096) 2 = .ok 4096 ∧ (2 ^ 48 - 4096 : Word).toNat + (4096 : Word).toNat ≤ 2 ^ 48 ∧
      2 ^ 48 < (2 ^ 48 - 4096 : Word).toNat + (4097 : Word).toNat ∧
      (sMonX (2 ^ 48 - 4096) 4096).curTile.tlbWait = none ∧ (∀ q ∈ (sMonX (2 ^ 48 - 4096) 4096).tiles, q.2.reqs = [])) ∧
    (sMonX 4096 4096 {} { tlbWait := some [] }).curTile.tlbWait = some [] := by
  refine ⟨fun d e k => ⟨runs_of (by revert d e k; decide +kernel), by revert d e k; decide +kernel,
    by revert d e k; decide +kernel, by revert d e k; decide +kernel, by revert d e k; decide +kernel,
    by revert d e k; decide +kernel, by revert d e k; decide +kernel, by revert d e k; decide +kernel, by revert d e k; decide +kernel⟩,
    fun i => ⟨runs_of (by revert i; decide +kernel), by revert i; decide +kernel⟩,
    ⟨runs_of (by decide +kernel), by and_intros <;> decide +kernel⟩, by decide, by decide, by decide +kernel,
    ⟨runs_of (by decide +kernel), by and_intros <;> decide +kernel⟩, by decide +kernel⟩

/-- A message whose payload is empty, and a stub. -/
def msgQ : Msg :=
  { src := 1, dst := 0, group := 0, tag := 0, len := 0, seq := 0, proto := 1, mv := 0, pv := 0, job := 0, sid := 1, query := false,
    retry := 0, payload := [] }

/-- A diverted plane whose queue holds an entry, at a RESUME of 65536, with a translation of the queue or none, and its stubs
taken or free. -/
def sResume (ok full : Bool) : State :=
  sMonX 65536 0 { diverted := true, spillq := [.msg msgQ], uq := if full then List.replicate 256 { hdr := msgQ } else [] }
    { tr := if ok then [tr0] else [] }

/-- The same where RESUME has begun. -/
def sResumed (ok full : Bool) : State :=
  (killX (sResume ok full) false 1).modPlane 0 0 (fun pl => { pl with queueAt := 65536, readmit := true })

theorem witness_DivertResumeTlbinv_queue :
    (∀ ok full : Bool, Runs (sResume ok full) 0 ∧ (sResume ok full).mon = true ∧ (sResume ok full).ctx.spec = none ∧
      readX (sResume ok full) 1 = .ok 65536 ∧ (sResume ok full).ctx.diverted = true ∧ (sResume ok full).ctx.spillq = [.msg msgQ]) ∧
    (∃ v, queueRead (sResumed false false) 0 ((sResumed false false).plane 0 0) 0 (spillCost (.msg msgQ)) = .error (4, v)) ∧
    (Config.memError = (fun _ _ => false) → ∃ b v,
      queueRead (sResumed true true) 0 ((sResumed true true).plane 0 0) 0 (spillCost (.msg msgQ)) = .ok (b, v) ∧
      (admitEntry (v.modPlane 0 0 (fun pl => pl.popSpill (.msg msgQ))) 0 0 (SpillE.withBytes (.msg msgQ) b)).isNone = true) ∧
    (Config.memError = (fun _ _ => false) → ∃ b v,
      queueRead (sResumed true false) 0 ((sResumed true false).plane 0 0) 0 (spillCost (.msg msgQ)) = .ok (b, v) ∧
      ((admitEntry (v.modPlane 0 0 (fun pl => pl.popSpill (.msg msgQ))) 0 0 (SpillE.withBytes (.msg msgQ) b)).any
        (fun w => (w.plane 0 0).spillq.isEmpty)) = true) := by
  refine ⟨by unfold Runs; decide +kernel, failsWith_spec (by decide +kernel), fun h => ?_, fun h => ?_⟩
  · simp only [queueRead, spillRead, readBy_free h]
    exact okWith_spec (by decide +kernel)
  · simp only [queueRead, spillRead, readBy_free h]
    exact okWith_spec (by decide +kernel)

/-- A GET of the tile's that has left under the translation tr0. -/
def reqT : Req :=
  { id := 1, rank := 0, plane := 0, job := 0, part := 0, flag := 5, op := .get, va := 65536, len := 8, a := 0, b := 0, data := [],
    dst := 0, mv := 0, pv := 0, spec := false, number := 0, sgroup := 0, sphase := 0, mon := false, pkg := 0, dpa := 0, host := false,
    sysatom := false, vault := 0x400, tries := 0 }

/-- TLBINV of 4096 bytes at 65536 with that GET out, before it has begun or while it waits for the request w. -/
def sInv (w : Option (List Nat)) : State :=
  sMonX 65536 4096 {} { tr := [tr0], reqs := [{ req := reqT, sent := true }], tlbWait := w }

theorem witness_DivertResumeTlbinv_waits :
    (∀ w ∈ [none, some [1], some [2]], Runs (sInv w) 0 ∧ (sInv w).mon = true ∧ (sInv w).ctx.spec = none ∧
      readX (sInv w) 1 = .ok 65536 ∧ readX (sInv w) 2 = .ok 4096 ∧ (sInv w).curTile.tlbWait = w ∧
      (∃ q ∈ (sInv w).tiles, ∃ e ∈ q.2.reqs, e.req.id ∈ [1]) ∧ ∀ q ∈ (sInv w).tiles, ∀ e ∈ q.2.reqs, e.req.id ∉ [2]) ∧
      (65536 : Word).toNat < 2 ^ 48 ∧ (65536 : Word).toNat + (4096 : Word).toNat ≤ 2 ^ 48 ∧
      translatedIn (sInv none) (pkgOf 0) 0 65536 69631 ≠ [] ∧ translatedIn (sInv none) (pkgOf 0) 0 131072 135167 = [] := by
  unfold Runs; decide +kernel
/-! ## Witnesses: vector words -/

/-- A task with VALLOC v, v2 dead or not, DEADCHK 1, and i0 = i. -/
def sVec (v : Nat) (dead : Bool) (i : BitVec 8) : State :=
  on { regs := { regs0 with valloc := v, deadchk := true, vdead := if dead then 4 else 0,
                            v := (Vector.replicate 64 0).setIfInBounds 1 0x0100_0300_0200_0100,
                            bank := { regs0.bank with ix := (Vector.replicate 4 0).setIfInBounds 0 i } } }

theorem witness_VectorTwoSourceResults :
    Runs (sVec 64 false 0) 0 ∧ vdReg (sVec 64 false 0) 3 0 = .ok 3 ∧ vaReg (sVec 64 false 0) 1 0 = .ok 1 ∧
      vbReg (sVec 64 false 0) 2 0 = .ok 2 ∧ readV (sVec 64 false 0) 1 = .ok 0x0100_0300_0200_0100 ∧
      readV (sVec 64 false 0) 2 = .ok 0 ∧ readV (sVec 64 false 0) 3 = .ok 0 ∧
      vdReg (sVec 64 false 0) 31 16 = .ok 63 :=
  ⟨runs_of (by decide +kernel), by and_intros <;> decide +kernel⟩

theorem witness_VectorOneSourceResults :
    Runs (sVec 64 false 0) 0 ∧ vdReg (sVec 64 false 0) 3 0 = .ok 3 ∧ vaReg (sVec 64 false 0) 1 0 = .ok 1 ∧
      readV (sVec 64 false 0) 1 = .ok 0x0100_0300_0200_0100 :=
  ⟨runs_of (by decide +kernel), by and_intros <;> decide +kernel⟩

/-- The task with q2 = v. -/
def sVecQ (v : Quad) : State := (sVec 64 false 0).modRegs (fun r => { r with q := r.q.setIfInBounds 2 v })

theorem witness_VectorComparesAndMoves :
    Runs (sVec 64 false 0) 0 ∧ vdReg (sVec 64 false 0) 3 0 = .ok 3 ∧ vaReg (sVec 64 false 0) 1 0 = .ok 1 ∧
      vbReg (sVec 64 false 0) 2 0 = .ok 2 ∧ readV (sVec 64 false 0) 1 = .ok 0x0100_0300_0200_0100 ∧
      readV (sVec 64 false 0) 2 = .ok 0 ∧ readX (sVec 64 false 0) 1 = .ok 7 ∧ readX (sVec 64 false 0) 2 = .ok 3 ∧
      lvQ 0x40 = 2 ∧ Runs (sVecQ 1) 0 ∧ vdReg (sVecQ 1) 3 0x40 = .ok 3 ∧
      (readQ (sVecQ 1) (lvQ 0x40)).getLsbD (0 % tyN 0 * tyW 0) = true ∧
      (readQ (sVecQ 1) (lvQ 0x40)).getLsbD (7 % tyN 0 * tyW 0) = false :=
  ⟨runs_of (by decide +kernel), by decide +kernel, by decide +kernel, by decide +kernel, by decide +kernel,
    by decide +kernel, by decide +kernel, by decide +kernel, by decide +kernel, runs_of (by decide +kernel),
    by and_intros <;> decide +kernel⟩

theorem witness_VectorReductionsAndConversions :
    Runs (sVec 64 false 0) 0 ∧ vdReg (sVec 64 false 0) 3 0 = .ok 3 ∧ vaReg (sVec 64 false 0) 1 0 = .ok 1 ∧
      vbReg (sVec 64 false 0) 2 0 = .ok 2 ∧ readV (sVec 64 false 0) 1 = .ok 0x0100_0300_0200_0100 ∧
      readV (sVec 64 false 0) 2 = .ok 0 ∧ readV (sVec 64 false 0) 3 = .ok 0 ∧ 32 = 128 / max (tyW 0) (tyW 5) :=
  ⟨runs_of (by decide +kernel), by and_intros <;> decide +kernel⟩

theorem witness_FloatRules :
    f32.decode 0x3F800000 = .fin false (2 ^ 23) (-23) ∧ (f32.decode 0x7FC00000).isNan = true ∧
      (f32.decode 0x3F800000).isNan = false ∧ (f32.decode 0x3F800000).lt (f32.decode 0x40000000) = true ∧
      (f32.decode 0x80000000).isZero true = true ∧ (f32.decode 0).isZero false = true ∧ (-129 : Int) < intLo 1 false ∧
      intHi 1 false < (128 : Int) ∧ (-1 : Int) < intLo 1 true ∧ intHi 1 true < (256 : Int) := by
  decide +kernel

theorem witness_FloatRules_values :
    ((if false = true then -valOf 1 0 else valOf 1 0) + (if false = true then -valOf 1 1 else valOf 1 1) : ℚ) ≠ 0 ∧
      f32.decode 0x3F800000 = .fin false (2 ^ 23) (-23) ∧ f32.decode 0x40400000 = .fin false (3 * 2 ^ 22) (-22) ∧
      (2 ^ 23 : Nat) ≠ 0 ∧ (3 * 2 ^ 22 : Nat) ≠ 0 :=
  ⟨by norm_num [valOf], by decide +kernel, by decide +kernel, by decide, by decide⟩

theorem witness_VectorRegisterChecks :
    vallocOf (sVec 32 false 0) = 32 ∧ (readI (sVec 32 false 0xFF) 0).toInt = -1 ∧
      vecField (sVec 32 false 0xFF) 0 0 true = .error (.trap { cause := 0x03, info := BitVec.ofInt 64 (-1) }) ∧
      (sVec 64 true 0).regs.vdead.getLsbD 2 = true ∧ (sVec 64 true 0).mon = false ∧ (sVec 64 true 0).regs.deadchk = true ∧
      Runs (sVec 64 true 0) 0 ∧ vdReg (sVec 64 true 0) 3 0 = .ok 3 ∧ vaReg (sVec 64 true 0) 2 0 = .ok 2 ∧
      readV (sVec 64 true 0) 2 = .error (.trap { cause := 0x04, info := 130 }) ∧
      Runs (sVec 2 false 0) 0 ∧ vdReg (sVec 2 false 0) 2 0 = .error (.trap { cause := 0x03, info := 2 }) ∧
      vdReg (sVec 2 false 0) 1 0 = .ok 1 ∧ vbReg (sVec 2 false 0) 3 0 = .error (.trap { cause := 0x03, info := 3 }) :=
  ⟨by decide +kernel, by decide +kernel, by decide +kernel, by decide +kernel, by decide +kernel, by decide +kernel,
    runs_of (by decide +kernel), by decide +kernel, by decide +kernel, by decide +kernel, runs_of (by decide +kernel),
    by and_intros <;> decide +kernel⟩
/-! ## Witnesses: tile-store words -/

/-- A task with a window of channel 0 from 64 to 127, faulted or not, or a commit that drains, or a send's buffer at 64. -/
def sGate (win fault drain send : Bool) : State :=
  on { regs := regs0,
       window := (Vector.replicate 4 none).setIfInBounds 0 (if win then some { lo := 64, hi := 127, base := 64 } else none),
       wfault := (Vector.replicate 4 none).setIfInBounds 0 (if fault then some 9 else none),
       spec := if drain then some { ckpt := regs0, number := 1, group := 0, phase := false, pc := 0, committing := true } else none,
       sends := if send then [{ id := 1, kind := 1, flag := some 9, group := 0, tag := 0, len := 64, bytes := 64, addr := 64, eager := true }] else [] }

/-- LD and ST of 8 bytes at x4 + 8 × offset, and VLD and the rest at an x register. -/
def ml (off : Nat) : ML := { g := 0, rd := 1, xa := 4, w := 3, off := { lent := false, raw := off } }
def mv (xa off : Nat) : MV := { g := 0, vd := 1, xa := xa, off := { lent := false, raw := off } }

theorem witness_LoadsAndStores :
    (Instr.ld (ml 255)).wf = true ∧ (Instr.vld (mv 4 64)).wf = true ∧ Runs s0 0 ∧ readX s0 4 = .ok 64 ∧
      readX s0 1 = .ok 7 ∧ ldAddr 64 (ml 1) = 72 ∧ ldAddr 64 (ml 248) = 0 ∧ 72 % 8 = 0 ∧ 72 + 8 ≤ tsLimit s0 ∧
      mGate s0 (tsPhys s0 72) 8 = .ok () ∧ guarded s0 s0.cur (tsPhys s0 72) 8 = false ∧ s0.ctx.spec = none ∧ Plain s0 ∧
      checkV s0 1 = .ok 1 ∧ vldAddr 64 (mv 4 64) = 128 ∧ 128 % 64 = 0 ∧ 128 + 128 ≤ tsLimit s0 ∧
      mGate s0 (tsPhys s0 128) 128 = .ok () ∧ readV s0 1 = .ok 0 ∧ guarded s0 s0.cur (tsPhys s0 128) 128 = false ∧
      Runs sSpec 0 ∧ readX sSpec 4 = .ok 64 ∧ 72 + 8 ≤ tsLimit sSpec ∧ mGate sSpec (tsPhys sSpec 72) 8 = .ok () ∧
      guarded sSpec sSpec.cur (tsPhys sSpec 72) 8 = false ∧ sSpec.ctx.spec ≠ none ∧
      escRoom sSpec.ctx (tsPhys sSpec 72) 8 = true := by
  unfold Runs Plain; decide +kernel

/-- A speculation whose escrow holds n lines from address 65536 on. -/
def sEscrow (n : Nat) : State :=
  on { regs := regs0, task := task0,
       spec := some { ckpt := regs0, number := 1, group := 0, phase := false, pc := 0,
                      escrow := (List.range n).map (fun i => (1024 + i, [])) } }

theorem witness_LoadsAndStores_spec :
    AllSeen s0 0 pathP ∧ s0.Safe ∧ (∀ n ∈ [254, 255, 256], Runs (sEscrow n) 0 ∧ (sEscrow n).ctx.spec ≠ none ∧
      readX (sEscrow n) 4 = .ok 64 ∧ readX (sEscrow n) 1 = .ok 7 ∧ readV (sEscrow n) 1 = .ok 0 ∧
      mGate (sEscrow n) (tsPhys (sEscrow n) 72) 8 = .ok () ∧ guarded (sEscrow n) 0 (tsPhys (sEscrow n) 72) 8 = false ∧
      mGate (sEscrow n) (tsPhys (sEscrow n) 128) 128 = .ok () ∧ guarded (sEscrow n) 0 (tsPhys (sEscrow n) 128) 128 = false ∧
      escRoom (sEscrow n).ctx (tsPhys (sEscrow n) 72) 8 = decide (n < 256) ∧
      escRoom (sEscrow n).ctx (tsPhys (sEscrow n) 128) 128 = decide (n < 255)) := by
  unfold AllSeen State.Safe Runs; decide +kernel

theorem witness_StridedAndIndexedAccesses_spec :
    (∀ k < 8, (64 + BitVec.ofNat 64 k * (BitVec.ofNat 11 16).signExtend 64 : Word).toNat % 16 = 0 ∧
        (64 + BitVec.ofNat 64 k * (BitVec.ofNat 11 16).signExtend 64 : Word).toNat + 16 ≤ tsLimit (sEscrow 192) ∧
        mGate (sEscrow 192) (tsPhys s0 (64 + BitVec.ofNat 64 k * (BitVec.ofNat 11 16).signExtend 64 : Word).toNat) 16 = .ok () ∧
        guarded (sEscrow 192) 0 (tsPhys s0 (64 + BitVec.ofNat 64 k * (BitVec.ofNat 11 16).signExtend 64 : Word).toNat) 16 = false) ∧
      mGate (sEscrow 192) (tsPhys s0 80) 4 = .ok () ∧ guarded (sEscrow 192) 0 (tsPhys s0 80) 4 = false ∧
      (sEscrow 192).ctx.spec.any (fun sp => decide (sp.escrow.length + 16 ≤ 256 ∧ sp.escrow.length + 64 ≤ 256)) = true ∧
      Runs (sEscrow 192) 0 := by
  unfold Runs; decide +kernel

theorem witness_StridedAndIndexedAccesses :
    Runs s0 0 ∧ checkV s0 1 = .ok 1 ∧ checkV s0 2 = .ok 2 ∧ checkV s0 3 = .ok 3 ∧ readX s0 4 = .ok 64 ∧ (Instr.vlds (mv 4 16)).wf = true ∧
      (Instr.vgath { mv 4 16 with vd := 2 }).wf = true ∧
      (∀ k < 8, (64 + BitVec.ofNat 64 k * (BitVec.ofNat 11 16).signExtend 64 : Word).toNat % 16 = 0 ∧
        (64 + BitVec.ofNat 64 k * (BitVec.ofNat 11 16).signExtend 64 : Word).toNat + 16 ≤ tsLimit s0 ∧
        mGate s0 (tsPhys s0 (64 + BitVec.ofNat 64 k * (BitVec.ofNat 11 16).signExtend 64 : Word).toNat) 16 = .ok () ∧
        guarded s0 s0.cur (tsPhys s0 (64 + BitVec.ofNat 64 k * (BitVec.ofNat 11 16).signExtend 64 : Word).toNat) 16 = false) ∧
      readV s0 3 = .ok 0 ∧ readV s0 2 = .ok 0 ∧
      (∀ j < 32, (64 + (BitVec.ofNat 11 16).signExtend 64 + BitVec.ofNat 64 (elem 4 j 0) : Word).toNat = 80) ∧ 80 % 4 = 0 ∧
      80 + 4 ≤ tsLimit s0 ∧ mGate s0 (tsPhys s0 80) 4 = .ok () ∧ readV s0 1 = .ok 0 ∧
      guarded s0 s0.cur (tsPhys s0 80) 4 = false ∧ s0.ctx.spec = none ∧ Plain s0 := by
  unfold Runs Plain; decide +kernel

theorem witness_TileStoreChecks :
    Runs s0 0 ∧ readX s0 1 = .ok 7 ∧ ldAddr 7 { (ml 0) with xa := 1 } % 8 ≠ 0 ∧
      tsLimit s0 = 229376 ∧ (let f := { (ml 127) with xa := 1 }
        ldAddr 229360 f % 8 = 0 ∧ tsLimit s0 < ldAddr 229360 f + 8) ∧
      (∀ w d : Bool, Runs (sGate w false d false) 0 ∧ readX (sGate w false d false) 4 = .ok 64 ∧
        draining (sGate w false d false) 0 = d ∧
        winTile (sGate w false d false).curTile 0 (tsPhys (sGate w false d false) 64) 8 4 = (if w then .wait else .clear)) ∧
      winTile (sGate true true false false).curTile 0 (tsPhys (sGate true true false false) 64) 8 4 = .faulted 9 ∧
      draining (sGate true true false false) 0 = false ∧
      Runs (sGate false false false true) 0 ∧ mGate (sGate false false false true) (tsPhys (sGate false false false true) 64) 8 = .ok () ∧
      guarded (sGate false false false true) 0 (tsPhys (sGate false false false true) 64) 8 = true ∧
      checkV (sVec 2 false 0) 3 = .error (.trap { cause := 0x03, info := 3 }) ∧ Runs (sVec 2 false 0) 0 ∧
      vldAddr 7 (mv 1 0) % 64 ≠ 0 ∧ (vldAddr 64 (mv 4 0) % 64 = 0 ∧ vldAddr 64 (mv 4 0) + 128 ≤ tsLimit s0) ∧
      ((∀ h < 7, strideAddr 229264 (mv 4 16) h % 16 = 0 ∧ strideAddr 229264 (mv 4 16) h + 16 ≤ tsLimit s0) ∧
        strideAddr 229264 (mv 4 16) 7 % 16 = 0 ∧ tsLimit s0 < strideAddr 229264 (mv 4 16) 7 + 16) ∧
      strideAddr 64 (mv 4 8) 1 % 16 ≠ 0 ∧
      (∀ h < 31, gathAddr 64 (mv 4 0) (2 * 2 ^ 992) h % 4 = 0) ∧ gathAddr 64 (mv 4 0) (2 * 2 ^ 992) 31 % 4 ≠ 0 ∧
      (∀ h < 31, gathAddr 64 (mv 4 0) (229312 * 2 ^ 992) h + 4 ≤ tsLimit s0) ∧
      tsLimit s0 < gathAddr 64 (mv 4 0) (229312 * 2 ^ 992) 31 + 4 := by
  unfold Runs; decide +kernel

/-- A task whose flag 5 is bound to a copy that reads the tile store, on channel 0. -/
def sBound : State :=
  on { regs := { regs0 with flag := (Vector.replicate 64 {}).setIfInBounds 5 { bound := some 1 } },
       chan := (Vector.replicate 4 []).setIfInBounds 0 [{ id := 1, flag := 5, blk := 0, started := true }] }

/-- A task whose send to its own tile has not been performed. -/
def sWaits : State :=
  on { regs := regs0,
       sends := [{ id := 0, kind := 1, flag := some 9, group := 0, tag := 0, len := 0, bytes := 0, addr := 0, eager := true, copies := [{ dst := 0, seq := 0 }] }] }

/-- A task with a COPYQ at the head of channel 0 that waits for flag 5. -/
def sFk : State :=
  on { regs := regs0,
       chan := (Vector.replicate 4 []).setIfInBounds 0 [{ id := 1, flag := 6, blk := 0, fk := some 5 }] }

/-- A task on a tile that lists an older value of a granule, for path C and for every path. -/
def sStale (paths : Nat) : State :=
  on { regs := regs0 } { stale := [{ gran := 4, old := [1], op := 0, path := 1, paths := paths }] }

theorem witness_FlagAndFenceWords :
    (Runs sFk 0 ∧ (sFk.regs.fl 5).bound = none ∧ sFk.ctx.halted = false ∧
      sFk.ctx.ch 0 = [{ id := 1, flag := 6, blk := 0, fk := some 5 }] ∧ (sFk.ctx.hold[0]?).getD none = none) ∧
      (∀ p : Bool, Runs (sStale (if p then 2 else 15)) 0 ∧ fenceDone (sStale (if p then 2 else 15)) 1 = true ∧
        (sStale (if p then 2 else 15)).curTile.stale ≠ []) ∧ hasPath 2 1 = false ∧ hasPath 15 1 = true ∧
    Runs s0 0 ∧ (s0.regs.fl 5).bound = none ∧ Runs sBound 0 ∧ (sBound.regs.fl 5).bound ≠ none ∧
      fenceDone sBound 2 = false ∧ fenceDone s0 15 = true ∧ (∀ k < 5, fenceWaits s0 k = false) ∧ fenceWaits sWaits 0 = true := by
  unfold Runs; decide +kernel
/-! ## Witnesses: words that start an operation -/

/-- A parameter block of one run of 64 bytes from 0 to 1024 on channel 0 (Table 6.7), with more bits. -/
def blk0 (more : Nat) : Nat :=
  64 * 2 ^ 384 + 2 ^ 112 + 2 ^ 176 + 2 ^ 240 + 2 ^ 304 + 2 ^ 368 + 1024 * 2 ^ 448 + more

/-- Registers of a task that copies, sends and multiplies: t1 and t2 are bf16 tensors of 32 by 32. -/
def td0 : TDesc :=
  { raw := BitVec.ofNat 256 (2 ^ 12 + 64 * 2 ^ 64 + 32 * 2 ^ 96 + 32 * 2 ^ 116 + 32 * 2 ^ 136 + 32 * 2 ^ 156) }
def regsE : Regs := { regs0 with t := ((Vector.replicate 16 {}).setIfInBounds 1 td0).setIfInBounds 2 td0 }

/-- The same with the block's bytes at 64, and x1 = v, in a speculation or not. -/
def sEng (more : Nat) (v : Word) (spec bound : Bool) : State :=
  let g := { regsE with bank := { regsE.bank with x := regsE.bank.x.setIfInBounds 1 v },
                        flag := regsE.flag.setIfInBounds 5 { bound := if bound then some 77 else none } }
  { on { regs := g, task := task0,
         spec := if spec then some { ckpt := g, number := 1, group := 0, phase := false, pc := 0 } else none } with
    mem := memWrite [] (tsAddr 0 64) (leBytes 64 (blk0 more)) }

def mc (rd : Nat) : MC := { g := 0, rd := rd, xa := 4, fn := 5, off := { lent := false, raw := 0 } }
def mma0 : MMm := { g := 0, xc := 0, acc := 0, p := 1, q := 2, fn := 6 }

theorem witness_CopyWords :
    (Instr.copy (mc 0)).wf = true ∧ (Instr.copym (mc 1)).wf = true ∧ Runs (sEng 0 7 false false) 0 ∧
      readX (sEng 0 7 false false) 4 = .ok 64 ∧ blkAddr 64 (mc 0) = 64 ∧ 64 % 64 = 0 ∧ 64 + 64 ≤ tsLimit (sEng 0 7 false false) ∧
      ((sEng 0 7 false false).regs.fl 5).bound = none ∧ ((sEng 0 7 false true).regs.fl 5).bound ≠ none ∧
      blkAddr 96 (mc 0) % 64 ≠ 0 ∧ tsLimit (sEng 0 7 false false) < blkAddr 229376 (mc 0) + 64 ∧
      engineRead (sEng 0 7 false false) 0 0 pathC 4 64 64 = .ok (leBytes 64 (blk0 0)) ∧
      (cmdOf (leBytes 64 (blk0 0))).accepted (sEng 0 7 false false).regs (tsLimit (sEng 0 7 false false)) 3 false = true ∧
      (cmdOf (leBytes 64 (blk0 0))).arr = false ∧ ((sEng 0 7 false false).ctx.ch (cmdOf (leBytes 64 (blk0 0))).ch).length < 4 ∧
      engineRead (sEng (2 ^ 26) 7 false false) 0 0 pathC 4 64 64 = .ok (leBytes 64 (blk0 (2 ^ 26))) ∧
      (cmdOf (leBytes 64 (blk0 (2 ^ 26)))).accepted (sEng 0 7 false false).regs (tsLimit (sEng 0 7 false false)) 3 false = false ∧
      (cmdOf (leBytes 64 (blk0 (2 ^ 26)))).accepted (sEng 0 7 false false).regs (tsLimit (sEng 0 7 false false)) 3 true = true ∧
      (sEng 0 7 true false).ctx.spec ≠ none ∧ (sEng 0 7 false false).ctx.spec = none := by
  unfold Runs; decide +kernel

theorem witness_CopyWords_copym :
    (let w := (Instr.mma mma0).word
     let s := sEng 0 (BitVec.ofNat 64 w) false false
     Runs s 0 ∧ readX s 1 = .ok (BitVec.ofNat 64 w) ∧ decodeWord (w % 2 ^ 32) none = .ok (.mma mma0) ∧ mma0.g = 0 ∧
       mma0.fn ≠ (mc 1).fn ∧ readX s 0 = .ok 0 ∧ checkMma s mma0 0 (.mma mma0) = .ok () ∧ (s.regs.fl 6).bound = none) ∧
    (decodeWord 7 none ≠ .ok (.mma mma0)) := by
  unfold Runs; decide +kernel

theorem witness_CopyWords_copym_checks :
    (let w := (Instr.mma { mma0 with g := 1 }).word
     let s := sEng 0 (BitVec.ofNat 64 w) false false
     Runs s 0 ∧ readX s 1 = .ok (BitVec.ofNat 64 w) ∧ decodeWord (w % 2 ^ 32) none = .ok (.mma { mma0 with g := 1 }) ∧
       ({ mma0 with g := 1 } : MMm).g ≠ 0 ∧ (s.regs.fl 5).bound = none) ∧
    (let w := (Instr.mma { mma0 with fn := 5 }).word
     let s := sEng 0 (BitVec.ofNat 64 w) false false
     Runs s 0 ∧ decodeWord (w % 2 ^ 32) none = .ok (.mma { mma0 with fn := 5 }) ∧ ({ mma0 with fn := 5 } : MMm).fn = (mc 1).fn ∧
       checkMma s { mma0 with fn := 5 } 0 (.mma { mma0 with fn := 5 }) = .ok () ∧ (s.regs.fl 5).bound = none) ∧
    (let w := (Instr.mma mma0).word
     let s := (sEng 0 (BitVec.ofNat 64 w) false false).modRegs (fun g => { g with flag := g.flag.setIfInBounds 6 { bound := some 77 } })
     Runs s 0 ∧ (s.regs.fl 6).bound ≠ none ∧ (s.regs.fl 5).bound = none) ∧
    (let m : MMm := { mma0 with q := 3 }
     let s := sEng 0 (BitVec.ofNat 64 (Instr.mma m).word) false false
     Runs s 0 ∧ decodeWord ((Instr.mma m).word % 2 ^ 32) none = .ok (.mma m) ∧ m.fn ≠ (mc 1).fn ∧
       checkMma s m 0 (.mma m) = .error (.trap { cause := 0x01, info := BitVec.ofNat 64 ((Instr.mma m).word % 2 ^ 32) })) := by
  unfold Runs; decide +kernel

/-- A task with an earlier copy of channel 0 that has still to write the block's bytes, or has not. -/
def sTurn (dst : Nat) : State :=
  let s := sEng 0 7 false false
  let c : CopyCmd := { id := 1, flag := 7, blk := BitVec.ofNat 512 (blk0 0 - 1024 * 2 ^ 448 + dst * 2 ^ 448) }
  ({ s with nextId := 2 } : State).modCtx (fun p => { p with chan := p.chan.setIfInBounds 0 [c] })

theorem witness_CopyWords_turn : ¬ BlockTurn (sTurn 64) 64 ∧ BlockTurn (sTurn 1024) 64 ∧ Runs (sTurn 64) 0 ∧ Runs (sTurn 1024) 0 := by
  unfold BlockTurn Runs; decide +kernel

/-- The task with n matrix instructions queued, and accumulator 0 marked lost or not. -/
def sMx (n : Nat) (lost : Bool) : State :=
  on { regs := { regsE with acc := regsE.acc.setIfInBounds 0 { lost := if lost then some 9 else none } },
       mx := List.replicate n { id := 9, op := .mzero { g := 0, acc := 3, mode := false } } }

/-- The task with two descriptors, and accumulator 0 in INT32 mode or not. -/
def sTwo (a b : Nat) (int : Bool) : State :=
  on { regs := { regsE with t := (regsE.t.setIfInBounds 1 { raw := BitVec.ofNat 256 a }).setIfInBounds 2 { raw := BitVec.ofNat 256 b },
                            acc := regsE.acc.setIfInBounds 0 { int32 := int } } }

/-- A tensor of 32 by 32 in a format, at an address. -/
def tdAt (fmt base : Nat) : Nat := fmt * 2 ^ 12 + base * 2 ^ 16 + 256 * 2 ^ 64 + 32 * 2 ^ 96 + 32 * 2 ^ 116 + 32 * 2 ^ 136 + 32 * 2 ^ 156

theorem witness_MatrixWords_checks :
    (∀ d, d = ((sTwo (tdAt 1 1) (tdAt 1 0) false).regs.td 1) → d.vault = false ∧ d.base % d.size ≠ 0) ∧
      (∀ d, d = ((sTwo (tdAt 1 0) (tdAt 1 1) false).regs.td 2) → d.vault = false ∧ d.base % d.size ≠ 0) ∧
      (∀ a b, a = (sTwo (tdAt 1 229376) (tdAt 1 0) false).regs.td 1 → b = (sTwo (tdAt 1 229376) (tdAt 1 0) false).regs.td 2 →
        a.base % a.size = 0 ∧ b.base % b.size = 0 ∧ pairK a b = some 16 ∧
        ∃ y ∈ mmaSpans a b 16 (bitsHL (0 : Word).toNat 63 60 + 1) 0, 229376 < y.1 + y.2) ∧
      (∀ p ∈ [(tdAt 1 0, tdAt 1 0, true), (tdAt 1 0, 0, false), (tdAt 1 0, tdAt 1 0 + 2 ^ 11, false), (tdAt 1 0, tdAt 5 0, false),
          (tdAt 5 0, tdAt 5 0, true), (tdAt 1 0, tdAt 1 0, false)],
        let a := (sTwo p.1 p.2.1 p.2.2).regs.td 1
        let b := (sTwo p.1 p.2.1 p.2.2).regs.td 2
        (a.vault = true ∨ a.base % a.size = 0) ∧ (b.vault = true ∨ b.base % b.size = 0) ∧
          (∀ K ∈ (pairK a b).toList, ∀ y ∈ mmaSpans a b K (bitsHL (0 : Word).toNat 63 60 + 1) 0, y.1 + y.2 ≤ 229376) ∧
          (isOk (checkMma (sTwo p.1 p.2.1 p.2.2) mma0 0 (.mma mma0)) = (p.1 == p.2.1 && (p.2.2 == (p.1 == tdAt 5 0))))) ∧
      (∀ a b, a = (sTwo (8 * 2 ^ 12 + 2 ^ 10) (8 * 2 ^ 12 + 2 ^ 10) false).regs.td 1 → b = a → pairK a b = some 64 ∧ a.fmt = 8 ∧
        bitsHL (BitVec.ofNat 64 (2 ^ 20) : Word).toNat 39 20 % 8 ≠ 0 ∧ bitsHL (0 : Word).toNat 39 20 % 8 = 0) := by
  and_intros
  · intro d h; subst h; decide +kernel
  · intro d h; subst h; decide +kernel
  · intro a b ha hb; subst ha hb; decide +kernel
  · decide +kernel
  · intro a b ha hb; subst hb ha; decide +kernel

theorem witness_MatrixWords_moves :
    (∀ p ∈ [(tdAt 1 1, (5 : Nat)), (tdAt 1 229376, 6), (tdAt 1 0 + 2 ^ 11, 1), (0, 1), (tdAt 1 0, 0)],
      let f : MTa := { g := 0, xc := 0, acc := 0, t := 1, sat := false, fn := 6 }
      (match checkMove (sTwo p.1 0 false) f 0 (.mldacc f) with
        | .ok _ => decide (p.2 = 0)
        | .error (.trap t) => decide (t.cause = p.2)
        | .error _ => false) = true) := by
  decide +kernel

/-- Matrix queues whose last entry sets the mode of accumulator 0, or does not. -/
theorem witness_MatrixWords_mode :
    let q : List MxOp → Plane := fun l => { regs := regsE, mx := l.map (fun op => { id := 1, op := op }) }
    (q []).mx = [] ∧ modeAhead (q [.mzero { g := 0, acc := 0, mode := true }]) 0 = true ∧
      modeAhead (q [.mldacc { g := 0, xc := 0, acc := 0, t := 1, sat := false, fn := 6 }]) 0 = false ∧
      modeAhead (q [.mzero { g := 0, acc := 0, mode := true }, .mma mma0]) 0 = true := by
  decide +kernel

/-- The task with a descriptor's bytes at 64. -/
def sTd (raw : Nat) : State := { on { regs := regsE } with mem := memWrite [] (tsAddr 0 64) (leBytes 32 raw) }

/-- A CB2 descriptor with its lattice table at 0. -/
def cb2Raw : Nat := 8 * 2 ^ 12 + 2 ^ 10 + 2 ^ 64 * 16 + 64 * 2 ^ 96 + 2 ^ 116 + 64 * 2 ^ 136 + 2 ^ 156 + 64 * 2 ^ 181 + 2 ^ 188

theorem witness_MatrixWords :
    Runs (sMx 7 false) 0 ∧ readX (sMx 7 false) 0 = .ok 0 ∧ ((sMx 7 false).regs.fl 6).bound = none ∧
      (sBound.regs.fl 5).bound ≠ none ∧ Runs sBound 0 ∧ readX sBound 0 = .ok 0 ∧
      checkMma (sMx 7 false) mma0 0 (.mma mma0) = .ok () ∧ (sMx 7 false).ctx.mx.length < 8 ∧ 8 ≤ (sMx 8 false).ctx.mx.length ∧
      checkMma (sMx 8 false) mma0 0 (.mma mma0) = .ok () ∧
      checkMma (sMx 0 true) mma0 0 (.mma mma0) = .error (.trap { cause := 0x0C, detail := 9, info := 0, acc := some 0 }) ∧
      (accOf (sMx 0 true).ctx true 0).lost = some 9 ∧ (accOf (sMx 8 false).ctx true 0).lost = none ∧
      checkMove (sMx 7 false) { g := 0, xc := 0, acc := 0, t := 1, sat := false, fn := 6 } 0
        (.mldacc { g := 0, xc := 0, acc := 0, t := 1, sat := false, fn := 6 }) = .ok () ∧
      checkMove (sMx 7 false) { g := 0, xc := 0, acc := 0, t := 1, sat := false, fn := 6 } 0
        (.mstacc { g := 0, xc := 0, acc := 0, t := 1, sat := false, fn := 6 }) = .ok () ∧
      (0xFFFF : Word).toNat % 65536 = 0xFFFF ∧ (0 : Word).toNat % 65536 ≠ 0xFFFF ∧ (sMx 7 false).ctx.spec = none := by
  unfold Runs; decide +kernel

theorem witness_MatrixWords_tdset :
    (∀ raw ∈ [td0.raw.toNat, 1, cb2Raw], Runs (sTd raw) 0 ∧ descBusy (sTd raw).ctx 1 = false ∧ readX (sTd raw) 4 = .ok 64 ∧
      64 % 32 = 0 ∧ 64 + 32 ≤ tsLimit (sTd raw) ∧ okChk (mRead (sTd raw) 64 32) (fun b _ => decide (b = leBytes 32 raw)) = true) ∧
    taskAddr 64 (0 * 32) = 64 ∧
    ({ raw := BitVec.ofNat 256 (leNat (leBytes 32 1)) } : TDesc).valid = false ∧
    ({ raw := BitVec.ofNat 256 (leNat (leBytes 32 td0.raw.toNat)) } : TDesc).valid = true ∧
    ({ raw := BitVec.ofNat 256 (leNat (leBytes 32 td0.raw.toNat)) } : TDesc).cb2 = false ∧
    (let d : TDesc := { raw := BitVec.ofNat 256 (leNat (leBytes 32 cb2Raw)) }
     d.valid = true ∧ d.cb2 = true ∧ 64 * d.cbidx + 1024 ≤ tsLimit (sTd cb2Raw)) ∧
    okChk (mRead (sTd cb2Raw) 0 1024) (fun _ _ => true) = true ∧
    descBusy (on { mx := [{ id := 1, op := .mma mma0 }] }).ctx 1 = true := by
  unfold Runs; decide +kernel

/-- A receive posted on flag 5. -/
def sPosted (n : Nat) : State :=
  on { regs := { regsE with flag := regsE.flag.setIfInBounds 5 { bound := some 1 } }, task := task0,
       prq := List.replicate n { recv0 with flag := 5 } }

theorem witness_MessageWords :
    Runs (sEng 0 7 false false) 0 ∧ readX (sEng 0 7 false false) 1 = .ok 7 ∧ readX (sEng 0 7 false false) 2 = .ok 3 ∧
      readX (sEng 0 7 false false) 4 = .ok 64 ∧ (sEng 0 7 false false).ctx.spec = none ∧
      ((sEng 0 7 false true).regs.fl 5).bound ≠ none ∧ ((sEng 0 7 false false).regs.fl 5).bound = none ∧
      64 + min 3 16777216 ≤ tsLimit (sEng 0 7 false false) ∧ ¬ (229376 + min 3 16777216 ≤ tsLimit (sEng 0 7 false false)) ∧
      bitsHL 0xFFFF000000 39 24 = 0xFFFF ∧ bitsHL 7 39 24 ≠ 0xFFFF ∧ 3 ≤ (sEng 0 7 false false).ctx.task.eager ∧
      (sEng 0 7 false false).ctx.task.eager < 1025 ∧ 128 ≤ (sPosted 128).ctx.prq.length ∧ (sPosted 1).ctx.prq.length < 128 ∧
      (sPosted 1).ctx.prq.find? (fun e => decide (((sPosted 1).regs.fl 5).bound = some e.id ∧ e.flag = 5)) =
        some { recv0 with flag := 5 } ∧
      Runs (sPosted 1) 0 ∧ (sPosted 1).ctx.spec = none ∧ Runs (sPosted 0) 0 ∧ (sEng 0 7 false false).ctx.task.dual = false := by
  unfold Runs; decide +kernel

/-- A plane whose second message fits a PROBE for any source with tag 7 in group 0. -/
def plProbe : Plane :=
  let u : Nat → Uq := fun tag => { hdr := { msgQ with tag := tag, len := 64 } }
  { uq := [u 6, u 7] }

/-- A task of a job that is there. -/
def sJob : State :=
  { s0 with jobs := [{ num := 0, pkg := 0, part := 0, addr := 0, nphase := 1, quota := 1, phaseva := 0, groupva := 0, doneva := 0,
                       streamva := 0, left := 1 }] }

theorem witness_MessageWords_rules :
    (let ok : Uq → Bool := fun u => u.admitted && decide (u.hdr.group = 0 ∧ u.hdr.tag = 7)
     plProbe.uq.map ok = [false, true] ∧ ok { hdr := msgQ } = false) ∧
      bitsHL (0xFFFFFF + 7 * 2 ^ 24) 39 24 = 7 ∧ (0xFFFFFF + 7 * 2 ^ 24) % 2 ^ 24 = 0xFFFFFF ∧
      recvOk sJob 0 0 0xFFFFFF 0 = true ∧ recvOk s0 0 0 0xFFFFFF 0 = false ∧
      (let s : State := s0.modCtx (fun p => { p with task := { p.task with dual := true } })
       Runs s 0 ∧ s.ctx.task.dual = true ∧ (s.regs.fl 5).bound = none) := by
  unfold Runs; decide +kernel

theorem witness_RequestAndLeaseWords :
    Runs (sEng 0 65536 false false) 0 ∧ readX (sEng 0 65536 false false) 1 = .ok 65536 ∧
      readX (sEng 0 65536 false false) 2 = .ok 3 ∧ readX (sEng 0 65536 false false) 4 = .ok 64 ∧
      ((sEng 0 65536 false false).regs.fl 5).bound = none ∧ (sEng 0 65536 false false).ctx.spec = none ∧
      reqCheck { (default : Req) with op := .get, va := 65536, len := 3 } = none ∧
      reqCheck { (default : Req) with op := .get, va := 65536, len := 257 } = some 0x0A ∧
      reqCheck { (default : Req) with op := .put, va := 131071, len := 2 } = some 0x0A ∧
      reqCheck { (default : Req) with op := .atom 0 true, va := 65544, len := 16 } = some 0x0B ∧
      64 % 16 = 0 ∧ 72 % 16 ≠ 0 ∧ 64 + 48 ≤ tsLimit (sEng 0 65536 false false) ∧
      ¬ (229344 + 48 ≤ tsLimit (sEng 0 65536 false false)) ∧ 64 % 64 = 0 ∧ 64 + 128 ≤ tsLimit (sEng 0 65536 false false) ∧
      Runs sSpec 0 ∧ sSpec.ctx.spec ≠ none := by
  unfold Runs; decide +kernel
/-! ## Witnesses: steps of the engines, messages and requests -/

/-- A copy command of blk0, its flag 5 bound, on channel 0 of tile 0's plane 0. -/
def cmd0 (started : Bool) (moved : Nat) (fk : Option Nat) : CopyCmd :=
  { id := 1, flag := 5, blk := BitVec.ofNat 512 (blk0 0), started := started, moved := moved, fk := fk }
def sCopy (c : CopyCmd) (fkOn : Bool) (win fault : Bool) : State :=
  on { regs := { regs0 with flag := (regs0.flag.setIfInBounds 5 { bound := some 1 }).setIfInBounds 3 { on := fkOn } },
       chan := (Vector.replicate 4 []).setIfInBounds 0 [c],
       window := (Vector.replicate 4 none).setIfInBounds 1 (if win then some { lo := 1024, hi := 1087, base := 1024 } else none),
       wfault := (Vector.replicate 4 none).setIfInBounds 1 (if fault then some 9 else none) }

theorem witness_CopySteps :
    (Instr.copyStart 0 0 0).wf = true ∧ (Instr.watermarkAdvance 0 0 0).wf = true ∧ (Instr.copyComplete 0 0 0).wf = true ∧
      (∀ b : Bool, ((sCopy (cmd0 false 0 (some 3)) b false false).plane 0 0).ch 0 = [cmd0 false 0 (some 3)] ∧
        (((sCopy (cmd0 false 0 (some 3)) b false false).plane 0 0).regs.fl 3).on = b ∧
        ((sCopy (cmd0 false 0 (some 3)) b false false).plane 0 0).halted = false ∧
        ((((sCopy (cmd0 false 0 (some 3)) b false false).plane 0 0).hold[0]?).getD none) = none) ∧
      ((sCopy (cmd0 true 0 none) false false false).plane 0 0).ch 0 = [cmd0 true 0 none] ∧
      (cmd0 true 0 none).total regs0 = 64 ∧ (cmd0 true 0 none).svault = false ∧ (cmd0 true 0 none).dvault = false ∧
      (cmd0 true 0 none).ten = false ∧ (cmd0 true 0 none).arr = false ∧ (cmd0 true 0 none).len0 = 64 ∧
      (cmd0 true 0 none).waiting = false ∧ (cmd0 true 0 none).spec = false ∧ (cmd0 true 0 none).ch = 0 ∧
      (let c := cmd0 true 0 none
       let q := (0, 16, c.runAt regs0 0)
       c.moved < c.total regs0 ∧ (c.moved, c.partEnd regs0 c.moved - c.moved, c.runAt regs0 c.moved) = q ∧
       16 ≤ q.2.2.len ∧ q.2.2.rd = q.2.2.len ∧ q.2.2.start < 16 ∧ 16 + 16 ≤ q.2.2.start + q.2.2.rd ∧
       (c.piece16 regs0 48).2 ≤ 48 + 16 ∧
       partGate (sCopy c false false false) 0 0 0 c q = .clear ∧
       partGate (sCopy c false true false) 0 0 0 c q = .wait ∧
       partGate (sCopy c false true true) 0 0 0 c q = .faulted 9) ∧
      ((sCopy (cmd0 true 0 none) false false false).tile 0).stale = [] ∧
      ((sCopy (cmd0 true 0 none) false false false).plane 0 0).spec = none ∧
      (((sCopy (cmd0 true 64 none) false false false).plane 0 0).regs.fl 5).bound = some (cmd0 true 64 none).id ∧
      (cmd0 true 0 none).total regs0 ≤ (cmd0 true 64 none).moved ∧ ((cmd0 true 64 none).flag < 64) := by
  decide +kernel

theorem witness_CopySteps_follow :
    ({ cmd0 true 64 none with follow := some (mma0, 0) } : CopyCmd).follow = some (mma0, 0) ∧
      ({ cmd0 true 64 none with follow := some (mma0, 0) } : CopyCmd).followCancel = false := by
  decide +kernel

/-- Plane 0 of tile 0 with one matrix instruction, which has started. -/
def mxE (op : MxOp) : Mx := { id := 1, op := op, started := true, step := 1 }
def sMxOp (op : MxOp) (sends : List Send) : State :=
  on { regs := { regsE with flag := regsE.flag.setIfInBounds 6 { bound := some 1 } }, mx := [mxE op], sends := sends }
def mta0 : MTa := { g := 0, xc := 0, acc := 1, t := 1, sat := false, fn := 6 }
def mms0 : MMs := { g := 0, xt := 0, acc := 0, n := 0, ty := 0, sat := false, fn := 6 }

theorem witness_MatrixSteps :
    (Instr.mmaStep 0 0 0).wf = true ∧ (Instr.mmaStep 0 0 2).wf = true ∧ (Instr.matrixOpComplete 0 0).wf = true ∧
      (Instr.msendSnapshot 0 0).wf = true ∧
      ((sMxOp (.mma mma0) []).plane 0 0).mx = [mxE (.mma mma0)] ∧ ((sMxOp (.mma mma0) []).plane 0 0).regs.td 1 = td0 ∧
      spansGate (sMxOp (.mma mma0) []) 0 0 0 4 true (td0.spans 0 32 (0 + 1 * 32) 32 ++ td0.spans (0 + 1 * 32) 32 0 32) = .clear ∧
      ((sMxOp (.mma mma0) []).plane 0 0).mxBase (mxE (.mma mma0)) = 0 ∧
      spansGate (sMxOp (.mstacc mta0) []) 0 0 0 4 false (td0.spans 0 32 0 32) = .clear ∧
      ((sMxOp (.mma mma0) []).plane 0 0).spec = none ∧ (((sMxOp (.mma mma0) []).plane 0 0).regs.fl 6).bound = some 1 ∧
      xcSteps 0 ≤ 1 ∧ spansGate (sMxOp (.mldacc mta0) []) 0 0 0 4 true (td0.spans 0 32 0 32) = .clear ∧
      ((sMxOp (.mzero { g := 0, acc := 2, mode := true }) []).plane 0 0).spec = none ∧
      (∀ x ∈ td0.spans 0 32 0 32, guarded (sMxOp (.mstacc mta0) []) 0 (0 + x.1) x.2 = false) ∧
      ((sMxOp (.msend mms0 1) []).plane 0 0).mx = [mxE (.msend mms0 1)] ∧
      (∀ sd ∈ ((sMxOp (.msend mms0 1) []).plane 0 0).sends, sd.kind = 6 → sd.acc = 0 → sd.id ≠ 1 → sd.held = false) := by
  decide +kernel

theorem witness_MatrixSteps_stored :
    AllSeen (sMxOp (.mstacc mta0) []) 0 pathX ∧ (sMxOp (.mstacc mta0) []).Safe ∧ td0.valid = true ∧ td0.cb2 = false ∧
      0 ∈ td0.open32 0 0 := by
  unfold AllSeen State.Safe; decide +kernel

/-- Tile 1's message of 4 bytes for tile 0's task of job 0, and tile 0 in a state, with a receive posted or its till full. -/
def msg0 (proto : Nat) : Msg :=
  { src := 1, dst := 0, group := 0, tag := 0, len := 4, seq := 0, proto := proto, mv := 0, pv := 0, job := 0, sid := 1, query := false,
    retry := 0, payload := [1, 2, 3, 4] }
def sArr (st : Nat) (recv full fenced : Bool) (next : Nat) : State :=
  { on { regs := { regs0 with tillsz := if full then 0 else 32768 }, state := st,
         prq := if recv then [{ recv0 with src := 0xFFFFFF, tag := 0xFFFF, cap := 4 }] else [],
         uq := if full then List.replicate 4096 { hdr := msg0 1 } else [] } { fenced := fenced } with
    streams := [{ pkg := 0, job := 0, tile := 0, peer := 1, group := 0, sending := false, next := next }] }

theorem witness_MessageSteps :
    (Instr.messageArrival (msg0 0)).wf = true ∧ (msg0 0).proto ≠ 2 ∧ ((sArr 3 false false true 0).tile 0).fenced = true ∧
      ((sArr 3 false false false 0).tile 0).fenced = false ∧ (msg0 0).query = false ∧
      (sArr 3 false false false 0).streamRoom 0 0 1 0 false = true ∧
      hostPlane ((sArr 0 false false false 0).tile 0) 0 = none ∧ hostPlane ((sArr 3 false false false 0).tile 0) 0 = some 0 ∧
      ((sArr 3 false false false 0).plane 0 0).diverted = false ∧
      (enter (sArr 3 true false false 0) 0 0 (msg0 0) false false).1 = .matched ∧
      (enter (sArr 3 false false false 0) 0 0 (msg0 0) false false).1 = .till ∧
      (enter (sArr 3 false false false 0) 0 0 (msg0 1) false false).1 = .stub ∧
      (enter (sArr 3 false false false 1) 0 0 (msg0 0) false false).1 = .dropped ∧
      (Instr.abandon (msg0 2)).wf = true ∧ twinTile (sArr 0 false false false 0) 0 0 = none := by
  decide +kernel

theorem witness_MessageSteps_refused :
    (enter (sArr 3 false true false 0) 0 0 (msg0 0) false false).1 = .refused ∧
      ((sArr 3 false true false 0).plane 0 0).tillAlloc 4 = none ∧ ((sArr 3 false true false 0).plane 0 0).stubFree = false := by
  decide +kernel

/-- Tile 0's send 1 on flag 5, with one copy, to tile 1. -/
def send0 (retry : Nat) : Send :=
  { id := 1, kind := 1, flag := some 5, group := 0, tag := 0, len := 4, bytes := 4, addr := 0, payload := [1, 2, 3, 4], held := true,
    copies := [{ dst := 1, seq := 0, left := true, retry := retry }], eager := true, numbered := true }
def sSend (retry : Nat) : State :=
  on { regs := { regs0 with flag := regs0.flag.setIfInBounds 5 { bound := some 1 } }, state := 3, sends := [send0 retry] }
def ack0 (fin : Bool) : Ack := { rank := 0, job := 0, sid := 1, dst := 1, fin := fin, status := 0, fcode := 0 }

theorem witness_MessageSteps_answers :
    epOf (ack0 true).rank < 0x400 ∧ planeOfSend ((sSend 0).tile 0) 1 = some 0 ∧ ((sSend 0).plane 0 0).send 1 = some (send0 0) ∧
      openCopy (send0 0) 1 = some { dst := 1, seq := 0, left := true } ∧ (Instr.refusalArrival (ack0 false)).wf = true ∧
      (0 < ((sSend 0).plane 0 0).regs.retrylim) ∧ ((sSend 8).plane 0 0).regs.retrylim ≤ 8 ∧
      (Instr.sendRetry (ack0 false)).wf = true ∧ partnerOf (sSend 0) 0 0 = none ∧ ((sSend 0).plane 0 0).sends = [send0 0] ∧
      (((sSend 0).plane 0 0).regs.fl 5).bound = some 1 ∧ (send0 0).numbered = true ∧
      (∀ c ∈ (send0 0).copies, c.fin = none → c.dst = 1) ∧ (Instr.sendAcknowledgement (ack0 true)).wf = true ∧
      (Instr.discardNotice (ack0 false)).wf = true := by
  decide +kernel

/-- Tile 0's send with its queue to package 1 holding n flits, and a window over its buffer that is open or faulted. -/
def sQueue (n : Nat) (win fault : Bool) : State :=
  { (sSend 0).modPlane 0 0 (fun p =>
      { p with sends := [{ send0 0 with copies := [{ dst := 4096, seq := 0, left := true }] }],
               window := (Vector.replicate 4 none).setIfInBounds 1 (if win then some { lo := 0, hi := 63, base := 0 } else none),
               wfault := (Vector.replicate 4 none).setIfInBounds 1 (if fault then some 9 else none) }) with
    agenda := [{ ev := .pullRequest { rank := 0, job := 0, sid := 7, dst := 4096, want := 4, did := 9 }, via := some (queueKey 0 1, n) }] }
def ackQ : Ack := { ack0 false with dst := 4096 }

theorem witness_MessageSteps_retry :
    (∀ n ∈ [0, 4096], ∀ w f : Bool, planeOfSend ((sQueue n w f).tile 0) 1 = some 0 ∧
      ((sQueue n w f).plane 0 0).send 1 = some { send0 0 with copies := [{ dst := 4096, seq := 0, left := true }] } ∧
      queueTakes (sQueue n w f) 0 4096 4 = decide (n = 0) ∧
      sendBytes (sQueue n w f) 0 0 { send0 0 with copies := [{ dst := 4096, seq := 0, left := true }] } 0 4 =
        (if w then .error (if f then .faulted 9 else .wait) else .ok [0, 0, 0, 0])) ∧
      openCopy { send0 0 with copies := [{ dst := 4096, seq := 0, left := true }] } 4096 = some { dst := 4096, seq := 0, left := true } ∧
      (Instr.sendRetry ackQ).wf = true ∧ ((sSend 0).plane 0 0).sends.Pairwise (fun x y => x.id ≠ y.id) ∧
      (send0 0).twin = 0 ∧ (send0 0).paired = true := by
  decide +kernel

/-- Tile 0 with a stream of group 0 from tile 1 that expects 0 and has the sequence numbers of a list refused, an early message stored
or not. -/
def sStream (refused : List Nat) (early : Bool) : State :=
  { (sArr 3 false false false 0).modPlane 0 0 (fun p => { p with uq := if early then [{ hdr := msg0 1, admitted := false }] else [] }) with
    streams := [{ pkg := 0, job := 0, tile := 0, peer := 1, group := 0, sending := false, next := 0, refused := refused }] }

theorem witness_MessageSteps_streams :
    (let s : State := { on { regs := regs0 } with jobs := [{ num := 0, pkg := 0, part := 0, addr := 0, nphase := 1, quota := 1, phaseva := 0,
                                                             groupva := 0, doneva := 0, streamva := 2 ^ 48, left := 1 }] }
     s.streamRoom 0 0 1 0 false = false ∧ (s.tile 0).fenced = false ∧ s.suspended = []) ∧
      ((sArr 3 true false false 0).plane 0 0).prq.find? (fun e => fits e.src e.tag e.group (msg0 0)) =
        some { recv0 with src := 0xFFFFFF, tag := 0xFFFF, cap := 4 } ∧
      ((sArr 3 false false false 0).plane 0 0).prq = [] ∧ ((sArr 3 false false false 0).plane 0 0).tillAlloc 4 = some 0 ∧
      ((sStream [] false).stream 0 0 1 0 false).standsRefused 0 = false ∧
      ((sStream [0] false).stream 0 0 1 0 false).standsRefused 1 = true ∧
      seqDist ((sStream [] false).stream 0 0 1 0 false).next 0 = 0 ∧ 2 ^ 31 ≤ seqDist ((sStream [] false).stream 0 0 1 0 false).next (2 ^ 31) ∧
      (takeIn (sStream [] false) 0 0 (msg0 0) false false).1 = .till ∧
      seqDist ((sStream [] false).stream 0 0 1 0 false).next 1 = 1 ∧
      (storeMsg (sStream [] false) 0 0 { msg0 0 with seq := 1 } false false false).1 = .till ∧
      ((sStream [] true).plane 0 0).uq.find? (fun u => !u.admitted && decide (u.hdr.src = 1 ∧ u.hdr.group = 0 ∧
        u.hdr.seq = ((sStream [] true).stream 0 0 1 0 false).next)) = some { hdr := msg0 1, admitted := false } ∧
      ((sStream [] true).plane 0 0).prq = [] ∧ { msg0 0 with query := true }.query = true := by
  decide +kernel

/-- Tile 0's delivery 1 to a receive on flag 5 at 1024, with or without bytes on hand. -/
def del0 (data : List Byte) (pulling : Bool) : Delivery :=
  { did := 1, recv := { recv0 with flag := 5, addr := 1024, cap := 4 }, hdr := msg0 0, want := 4, got := 4 - data.length, data := data,
    pulling := pulling, ack := true }
def sDel (d : Delivery) (win fault : Bool) : State :=
  on { regs := { regs0 with flag := regs0.flag.setIfInBounds 5 { bound := some 1 } }, state := 3, deliveries := [d],
       window := (Vector.replicate 4 none).setIfInBounds 1 (if win then some { lo := 1024, hi := 1087, base := 1024 } else none),
       wfault := (Vector.replicate 4 none).setIfInBounds 1 (if fault then some 9 else none) }
def pull0 : Pull := { rank := 0, job := 0, sid := 1, dst := 0, want := 4, did := 1 }

theorem witness_DeliverySteps :
    (Instr.payloadLineLands 0 0 1).wf = true ∧ (Instr.deliveryComplete 0 0 1).wf = true ∧ (Instr.pullRequest pull0).wf = true ∧
      (∀ w f : Bool, ((sDel (del0 [1, 2, 3, 4] false) w f).plane 0 0).delivery 1 = some (del0 [1, 2, 3, 4] false) ∧
        winTile ((sDel (del0 [1, 2, 3, 4] false) w f).tile 0) 0 1024 4 4 =
          (if w then if f then .faulted 9 else .wait else .clear)) ∧
      (del0 [1, 2, 3, 4] false).lines = 0 ∧ 4 = min (64 - 1024 % 64) (del0 [1, 2, 3, 4] false).data.length ∧
      ((sDel (del0 [] false) false false).plane 0 0).delivery 1 = some (del0 [] false) ∧ (del0 [] false).fin = none ∧
      (del0 [] false).fwd = none ∧ (((sDel (del0 [] false) false false).plane 0 0).regs.fl 5).bound = some 1 ∧
      ((sDel (del0 [] false) false false).plane 0 0).spec = none ∧
      planeOfSend ((sSend 0).tile 0) 1 = some 0 ∧ ((sSend 0).plane 0 0).diverted = false ∧ ((sSend 0).tile 0).fenced = false ∧
      ((sSend 0).plane 0 0).send 1 = some (send0 0) ∧ (send0 0).held = true ∧ ((sArr 3 false false true 0).tile 0).fenced = true ∧
      hostPlane ((sDel (del0 [] true) false false).tile 0) 0 = some 0 ∧ partnerOf (sDel (del0 [] true) false false) 0 0 = none ∧
      ((sDel (del0 [] true) false false).plane 0 0).delivery 1 = some (del0 [] true) := by
  decide +kernel

/-- A pull of tile 0's send of 4 bytes to package 1, with the queue full or free, and a window over the buffer. -/
def pullQ (want : Nat) : Pull := { pull0 with dst := 4096, want := want }

theorem witness_DeliverySteps_pulls :
    (∀ n ∈ [0, 4096], ∀ w f : Bool, ((sQueue n w f).tile 0).fenced = false ∧ ((sQueue n w f).plane 0 0).diverted = false ∧
      min ((send0 0).onHand 4 - 0) (64 * ((queueRoom (sQueue n w f) 0 4096).getD 4)) = (if n = 0 then 4 else 0) ∧
      (send0 0).pulledOut 4 (0 + (if n = 0 then 4 else 0)) = decide (n = 0)) ∧
      ({ send0 0 with held := false }.pulledOut 4 0 = false ∧ { send0 0 with held := false }.pulledOut 4 4 = true) ∧
      (let sd : Send := { send0 0 with kind := 4, held := false, bytes := 64, payload := [1, 2, 3, 4] }
       sd.onHand 64 - 0 = 4 ∧ sd.pulledOut 64 (0 + 4) = false ∧ sendBytes (sSend 0) 0 0 sd 0 4 = .ok [1, 2, 3, 4] ∧
         sd.onHand 64 - 4 = 0) ∧
      planeOfDelivery ((sDel (del0 [] true) false false).tile 0) 1 = some 0 ∧
      ((sSend 0).tile 0).stale = [] ∧ ((sSend 0).plane 0 0).spec = none ∧
      sendBytes (sSend 0) 0 0 { send0 0 with addr := 64 } 0 4 = .ok [0, 0, 0, 0] := by
  decide +kernel

/-- A request of tile 0 to the first page of vault 0x400. -/
def req0 (op : VOp) (len : Nat) (data : List Byte) (spec : Bool) : Req :=
  { (default : Req) with id := 1, flag := 5, op := op, va := 65536, len := len, data := data, a := 9, dst := 64, spec := spec, vault := 0x400, upto := len }

/-- Package 0 with that request's packet in flight. -/
def sEth : State := { State.reset with agenda := [{ ev := .vaultGet { req0 .get 16 [] false with pkg := 32, vault := 32 * 4096 + 0x400 } }] }
def ackE : Ack := { ack0 false with dst := 32 * 4096 + 0x400 }

theorem witness_DeliverySteps_transport :
    (Instr.transportAbandon ackE).wf = true ∧ overEthernet sEth 0 0 = false ∧ overEthernet sEth 0 32 = true ∧
      (∀ d ∈ sEth.agenda, isTransfer sEth ackE d.ev = false) ∧
      sEth.agenda.findSome? (fun d => if isRequest ackE d.ev && overUet sEth d.ev then requestOf d.ev else none) =
        some { req0 .get 16 [] false with pkg := 32, vault := 32 * 4096 + 0x400 } ∧
      (let m : Msg := { msg0 0 with src := 0, dst := 32 * 4096 }
       let s : State := { sSend 0 with agenda := [{ ev := .messageArrival m }] }
       isTransfer s { ack0 false with dst := 32 * 4096 } (.messageArrival m) = true ∧ overUet s (.messageArrival m) = true) ∧
      (∀ d ∈ (sSend 0).agenda, overUet (sSend 0) d.ev = false) := by
  decide +kernel
/-! ## Witnesses: vaults, answers, searches and barriers -/

/-- Tile 0's requests wait for their answers; vault 0x400 holds v; package 0 moves page 0 or not. -/
def sVault (v : Vault) (moving : Bool) : State :=
  (({ on { regs := { regs0 with flag := regs0.flag.setIfInBounds 5 { bound := some 1 } }, state := 3 }
        { reqs := [{ req := req0 .get 16 [] false, sent := true }] } with
      mem := memWrite [] (State.reset.dpaAddr 0 0) [1, 2, 3] } : State).modVault 0x400 (fun _ => v)).modPkg 0
    (fun p => { p with slice := if moving then [(0, 2 ^ 31)] else [] })

theorem witness_VaultRequestSteps :
    (∀ i ∈ [Instr.vaultGet (req0 .get 16 [] false), .vaultPut (req0 .put 4 [1, 2, 3, 4] false), .vaultAtom (req0 (.atom 0 false) 8 [] false),
        .vaultRed (req0 (.red 0 false) 4 [] false), .vaultRedf (req0 (.redf 0) 4 [] false), .vaultFship (req0 (.fship 0) 64 [] false)],
      i.wf = true) ∧
    visits (sVault { fenced := true } false) (req0 .get 16 [] false) = [0x400] ∧
    ((sVault { fenced := true } false).vault 0x400).fenced = true ∧ ((sVault {} false).vault 0x400).fenced = false ∧
    ((sVault {} true).pkg 0).isMoving (dpn64 0) = true ∧ ((sVault {} false).pkg 0).isMoving (dpn64 0) = false ∧
    0x400 = (sVault {} false).holdingVault 0 0 ∧
    ((sVault { bad := [State.reset.dpaAddr 0 0 / 16] } false).vault 0x400).bad = [State.reset.dpaAddr 0 0 / 16] ∧
    (newEntries {} (req0 .get 16 [] true)).length = 1 ∧ (req0 .get 16 [] true).spec = true := by
  decide +kernel

/-- The same in a package without partitions; a GET and a PUT of 32 bytes, whose first granule is done or not. -/
theorem witness_VaultRequestSteps_parts :
    (let s := (sVault {} false).modPkg 0 (fun p => { p with cfg := [] })
     (visits s (req0 .get 16 [] false)).find? (fun v => (s.partOf v).isNone) = some 0x400 ∧
       ∀ w ∈ visits s (req0 .get 16 [] false), (s.vault w).fenced = false) ∧
      (∀ v ∈ visits (sVault {} true) (req0 .get 16 [] false), ((sVault {} true).vault v).fenced = false ∧
        ((sVault {} true).partOf v).isSome = true) ∧ (req0 .get 16 [] false).done ≤ (req0 .get 16 [] false).base ∧
      (∀ k ∈ [0, 16], let q : Req := { req0 .get 32 [] false with done := k }
        (Instr.vaultGet q).wf = true ∧ q.dpa + (q.done - q.base) = k ∧ min (16 - k % 16) (q.upto - q.done) = 16 ∧
          (decide (q.done + 16 < q.upto)) = decide (k = 0)) ∧
      (∀ k ∈ [0, 16], let q : Req := { req0 .put 32 (List.replicate 32 7) false with done := k }
        (Instr.vaultPut q).wf = true ∧ q.upto ≤ q.data.length ∧ min (16 - k % 16) (q.upto - q.done) = 16 ∧ k % 65536 + 16 ≤ 65536) := by
  decide +kernel

/-- A filter entry of tile 1 that a write to the first line meets. -/
def fentry0 : FEntry := { rank := 1, plane := 0, number := 1, group := 0, phase := 0, line := 0 }

theorem witness_VaultRequestSteps_read :
    Config.memError = (fun _ _ => false) →
      Served (sVault {} false) (req0 .get 16 [] false) 0x400 ∧ Served (sVault {} true) { req0 .get 32 [] false with done := 16 } 0x400 ∧
      (sVault {} false).Safe ∧ Readable (sVault {} false) 0 0 0x400 16 ∧
      Readable (sVault {} false) 0 0 0x400 8 ∧ Readable (sVault {} false) 0 0 0x400 64 ∧ firstBad (sVault {} false) 0 0 4 = none ∧
      (firstBad (sVault { bad := [State.reset.dpaAddr 0 0 / 16] } false) 0 0 16).isSome = true ∧
      clashes (sVault {} false |>.vault 0x400) (req0 .put 4 [1, 2, 3, 4] false) [(0, 4)] = [] ∧
      clashes { filter := [fentry0] } { req0 .put 4 [1, 2, 3, 4] false with mv := 1 } [(0, 4)] = [fentry0] ∧
      ((sVault {} false).vault 0x400).filter.length + (newEntries ((sVault {} false).vault 0x400) (req0 .get 16 [] true)).length ≤ 64 ∧
      64 < (List.replicate 64 fentry0).length + (newEntries { filter := List.replicate 64 fentry0 } (req0 .get 16 [] true)).length ∧
      objOk 0 0 = false ∧ objOk 0 1 = true ∧ ((sVault {} false).vault 0x400).objects.length < 16 := by
  intro h
  unfold Served Readable State.Safe
  simp only [firstBad_free h]
  decide +kernel

theorem witness_VaultRequestSteps_fship :
    (ngetD ((sVault { routine := [(0, 2 ^ 31)] } false).vault 0x400).routine (16 * 0 + 0) 0).testBit 31 = true ∧
      (ngetD ((sVault {} false).vault 0x400).routine (16 * 0 + 0) 0).testBit 31 = false ∧
      (req0 (.fship 0) 64 [] false).op = .fship 0 ∧ (req0 (.redf 1) 4 [] false).op = .redf 1 ∧
      (req0 (.atom 10 false) 8 [] false).op = .atom 10 false ∧ (req0 (.red 8 true) 8 [] false).op = .red 8 true := by
  decide +kernel

def reply0 (home : Nat) : Reply :=
  { req := req0 .get 16 [] false, status := 0, fcode := 0, data := List.replicate 16 7, done := 16, home := home }

/-- The same tile with a window or without. -/
def sReply (w f : Bool) (e : ReqSt) : State :=
  on { regs := { regs0 with flag := regs0.flag.setIfInBounds 5 { bound := some 1 } }, state := 3,
       window := (Vector.replicate 4 none).setIfInBounds 1 (if w then some { lo := 64, hi := 127, base := 64 } else none),
       wfault := (Vector.replicate 4 none).setIfInBounds 1 (if f then some 9 else none) } { reqs := [e] }
def reqE : ReqSt := { req := req0 .get 16 [] false, sent := true }

theorem witness_AnswerSteps :
    (Instr.vaultReply (reply0 0x400)).wf = true ∧ (s0.tile 0).reqOf 1 = none ∧
      ((sReply false false reqE).tile 0).reqOf 1 = some reqE ∧ twinReq ((learnLoc (sReply false false reqE) 0 (reply0 0x400)).modPlane 0 0 (fun pl => noteVault pl (reply0 0x400).req 0x400)) 0 0 1 = none ∧
      (reply0 0x400).status ≠ stFILTERFULL ∧ reqE.dropped = false ∧ reqE.owner = .flag ∧
      ((sReply false false { reqE with dropped := true }).tile 0).reqOf 1 = some { reqE with dropped := true } ∧
      ((sReply false false { reqE with owner := .copy 0 }).tile 0).reqOf 1 = some { reqE with owner := .copy 0 } ∧
      winTile ((sReply false false reqE).tile 0) 0 64 16 4 = .clear ∧ ((sReply false false reqE).plane 0 0).spec = none ∧
      (((sReply false false reqE).plane 0 0).regs.fl 5).bound = some 1 ∧ (Instr.rnrRetry (req0 .get 16 [] false)).wf = true ∧
      (Instr.pageWalkEnd (req0 .get 16 [] false)).wf = true ∧
      ((sReply false false { reqE with sent := false }).tile 0).reqOf 1 = some { reqE with sent := false } ∧
      walk (sReply false false reqE) 0 0 65536 = .error { code := fcWALKERR } ∧ reqE.req.host = false ∧
      morePart { req0 .get 32 [] false with upto := 16 } (reply0 0x400) = true ∧ morePart reqE.req (reply0 0x400) = false ∧
      lookupTile (sReply false false reqE) 0 0 65536 = none ∧ ((sReply false false reqE).pkg 0).walks = [] ∧
      (Instr.releaseFlit { vault := 0x400, rank := 1, plane := 0, number := 1 }).wf = true ∧
      (Instr.releaseFlitAck { vault := 0x400, rank := 0, plane := 0, number := 1 }).wf = true := by
  decide +kernel

theorem witness_AnswerSteps_parts :
    let e : ReqSt := { req := { req0 .get 32 [] false with upto := 16 }, sent := true }
    ((sReply false false e).tile 0).reqOf 1 = some e ∧ morePart e.req (reply0 0x400) = true ∧ e.dropped = false ∧
      twinReq ((learnLoc (sReply false false e) 0 (reply0 0x400)).modPlane 0 0 (fun pl => noteVault pl (reply0 0x400).req 0x400)) 0 0 1 = none ∧
      AllSeen (sReply false false e) 0 pathN ∧ (sReply false false e).Safe := by
  unfold AllSeen State.Safe; decide +kernel

/-- Whether an answer's bytes must wait. -/
def landWaits (l : Land) : Bool :=
  match l with
  | .wait _ => true
  | _ => false

theorem landWait {l : Land} (h : landWaits l = true) : ∃ v, l = .wait v := by
  cases l with
  | wait v => exact ⟨v, rfl⟩
  | done => cases h
  | faulted => cases h

theorem landFaulted {l : Land} (h : (match l with | .faulted => true | _ => false) = true) : l = .faulted := by
  cases l with
  | wait => cases h
  | done => cases h
  | faulted => rfl

theorem witness_AnswerSteps_land :
    (∃ v, landReply (sReply true false reqE) 0 reqE.req (replyBytes (reply0 0x400)) = .wait v) ∧
      landReply (sReply true true reqE) 0 reqE.req (replyBytes (reply0 0x400)) = .faulted :=
  ⟨landWait (by decide +kernel), landFaulted (by decide +kernel)⟩

/-- Page tables of partition 0 at 64 KiB to 80 KiB that map a 2 MiB page at 2 MiB. -/
def sWalk : State :=
  let s := (sReply false false reqE).modPkg 0 (fun p => p.setReg 0x30800 (1 + 8 * 8192))
  { s with
    mem := memWrite (memWrite (memWrite [] (s.dpaAddr 0 65536) (leBytes 16 (1 + 2 ^ 8 + 17 * 2 ^ 62)))
      (s.dpaAddr 0 (17 * 4096)) (leBytes 16 (1 + 2 ^ 8 + 18 * 2 ^ 62)))
      (s.dpaAddr 0 (18 * 4096)) (leBytes 16 (1 + 2 + 2 * 2 ^ 6)) }

theorem witness_AnswerSteps_walk :
    Config.memError = (fun _ _ => false) →
      (∃ x, walk sWalk 0 0 65536 = .ok x ∧ x.lo = 0 ∧ x.hi = 2 ^ 21 - 1) ∧ ∃ y, walkTile sWalk 0 0 65536 = .ok y := by
  intro h
  have hw : walk sWalk 0 0 65536 = .ok (leafTr 0 65536 (2 ^ 21) (1 + 2 + 2 * 2 ^ 6)) := by
    unfold walk
    simp only [walkFrom_free h]
    decide +kernel
  refine ⟨⟨_, hw, by decide +kernel, by decide +kernel⟩, ?_⟩
  unfold walkTile
  rw [show pkgOf 0 = 0 from rfl, hw]
  exact ⟨_, rfl⟩

theorem witness_AnswerSteps_found :
    (let s := (sReply false false { reqE with sent := false }).modPkg 0 (fun p => { p with tlb := nset p.tlb 0 [tr0] })
     (s.tile 0).reqOf 1 = some { reqE with sent := false } ∧ (s.pkg 0).walks = [] ∧
     (lookupTile s 0 reqE.req.part reqE.req.va).isSome = true) ∧
    ((sWalk.tile 0).reqOf 1 = some reqE ∧ lookupTile sWalk 0 0 65536 = none) := by
  decide +kernel

def hatom0 : HostAtom := { pkg := 0, part := 0, va := 65536, op := 0, w := 8, a := 1, b := 0 }
def sAtomic (move : Bool) : State :=
  (sVault {} move).modPkg 0 (fun p => { p with tlb := nset p.tlb 0 [{ tr0 with sysatom := true }] })

theorem witness_AnswerSteps_hostAtomic :
    (Instr.hostAtomic hatom0).wf = true ∧
      okWith (placeDie (sVault {} false) 0 (((sVault {} false).pkg 0).homeDie 0) 0 (hostRank 0) true true 65536) (fun _ _ => true) = false ∧
      (∀ b : Bool, okWith (placeDie (sAtomic b) 0 (((sAtomic b).pkg 0).homeDie 0) 0 (hostRank 0) true true 65536)
        (fun p u => decide (p.host = false ∧ (u.vault (u.holdingVault p.pkg p.dpa)).fenced = false ∧
          (u.partOf (u.holdingVault p.pkg p.dpa)).isSome = true ∧ (u.pkg p.pkg).isMoving (dpn64 p.dpa) = b)) = true) := by
  decide +kernel

/-- A query block with one shard at 65,536, K = EF = 1; ok is false for K = 0. -/
def qblock (ok : Bool) : List Byte :=
  leBytes 16 (2 ^ 28 + 2 ^ 48 + if ok then 2 ^ 64 else 0) ++ leBytes 48 0 ++ leBytes 8 65536 ++ leBytes 56 0

def query0 (ok : Bool) : Req := { req0 .query 128 (qblock ok) false with va := 65536 }
def run0 : QRun := { qid := 1, req := query0 true }
def shard0 : Shard := { idx := 0, nodebase := 65536, nnodes := 2, recsz := 64, maxdeg := 2, hop := some 0, asked := [1] }
def sQuery (run wait : Nat) (r : QRun) (move : Bool) : State :=
  (sVault { running := List.replicate run r, waiting := List.replicate wait { run0 with qid := 9 } } move).modPkg 0
    (fun p => { p with tlb := nset p.tlb 0 [tr0] })

theorem witness_SearchAndHostSteps :
    (Instr.vaultQuery (query0 true)).wf = true ∧ (Instr.vaultQuery (query0 false)).wf = true ∧ blockOk (query0 true).data = true ∧
      blockOk (query0 false).data = false ∧ pullsAt (sQuery 32 32 run0 false) (query0 true) = none ∧
      32 ≤ ((sQuery 32 32 run0 false).vault 0x400).running.length ∧ 32 ≤ ((sQuery 32 32 run0 false).vault 0x400).waiting.length ∧
      ((sQuery 32 31 run0 false).vault 0x400).waiting.length < 32 ∧ ((sQuery 31 0 run0 false).vault 0x400).running.length < 32 ∧
      pullsAt (sQuery 1 0 { run0 with pulling := true } false) (query0 true) = some (0x400, { run0 with pulling := true }) ∧
      (∀ v ∈ visits (sQuery 32 32 run0 false) (query0 true), ((sQuery 32 32 run0 false).partOf v).isSome = true) ∧
      visits (sQuery 32 32 run0 false) (query0 true) = [0x400] ∧ ((sQuery 32 32 run0 false).vault 0x400).fenced = false ∧
      ((sQuery 32 32 run0 false).pkg 0).isMoving (dpn64 0) = false ∧ (sQuery 32 32 run0 false).holdingVault 0 0 = 0x400 := by
  decide +kernel

/-- Tile 0 with a query whose vector of 16 f32 elements stands at 192, behind a window that is open or faulted, or none. -/
def sPull (w f : Bool) : State :=
  on { regs := { regs0 with flag := regs0.flag.setIfInBounds 5 { bound := some 1 } }, state := 3,
       window := (Vector.replicate 4 none).setIfInBounds 1 (if w then some { lo := 192, hi := 255, base := 192 } else none),
       wfault := (Vector.replicate 4 none).setIfInBounds 1 (if f then some 9 else none) }
def runV (dst : Nat) : QRun := { run0 with req := { query0 true with dst := dst }, dim := 16, pulling := true }

theorem witness_SearchAndHostSteps_pull :
    (∀ w f : Bool, partnerOf (sPull w f) 0 0 = none ∧
      vectorAt ((sPull w f).plane 0 0).regs (runV 64).req ((runV 64).dim * tyW (runV 64).fmt) = (192, true) ∧
      engineRead (sPull w f) 0 0 pathN 4 192 64 =
        (if w then .error (if f then .faulted 9 else .wait) else .ok (List.replicate 64 0))) ∧
      (vectorAt ((sPull false false).plane 0 0).regs (runV 262144).req 64).2 = false := by
  decide +kernel

theorem witness_SearchAndHostSteps_search :
    (Instr.hopRequest { home := 0x400, qid := 1, vault := 0x400, node := 0, ids := [] }).wf = true ∧
      (Instr.distanceRequest { home := 0x400, qid := 1, vault := 0x400, node := 0, ids := [1] }).wf = true ∧
      (Instr.querySearchEnd 0x400 1).wf = true ∧
      (∀ b : Bool, ((sQuery 1 0 { run0 with shards := [shard0] } b).vault 0x400).run 1 = some { run0 with shards := [shard0] } ∧
        nodeMoves (sQuery 1 0 { run0 with shards := [shard0] } b) 0x400 { run0 with shards := [shard0] } shard0 0 = b ∧
        nodeMoves (sQuery 1 0 { run0 with shards := [shard0] } b) 0x400 { run0 with shards := [shard0] } shard0 1 = b) ∧
      ([shard0].find? (fun e => decide (e.hop = some 0))) = some shard0 ∧
      (Instr.hopRequest { home := 0x400, qid := 1, vault := 0x401, node := 0, ids := [] }).wf = true ∧
      (Instr.distanceRequest { home := 0x400, qid := 1, vault := 0x401, node := 0, ids := [1] }).wf = true ∧
      (Instr.hopRequest { home := 0x400, qid := 1, vault := 0x400, node := 0, ids := [2 ^ 32 + 5] }).wf = true ∧
      (let sh : Shard := { shard0 with asked := [1, 2] }
       ([sh].find? (fun e => decide (e.idx = 0) && [1].all (fun v => e.asked.contains v))) = some sh ∧
       ((sQuery 1 0 { run0 with shards := [sh] } false).vault 0x400).run 1 = some { run0 with shards := [sh] } ∧ 2 ∉ [1]) ∧
      ([shard0].find? (fun e => decide (e.idx = 0) && [1].all (fun v => e.asked.contains v))) = some shard0 ∧
      (hopNode (sVault {} false) 0x400 { run0 with shards := [shard0] } shard0 0).2 = .error 4 ∧
      (∀ b : Bool, ((sQuery 1 0 { run0 with sent := b } false).vault 0x400).run 1 = some { run0 with sent := b }) ∧
      leastPair [(2, 1), (1, 5), (1, 3)] = some (1, 3) := by
  decide +kernel

theorem witness_SearchAndHostSteps_hop :
    Config.memError = (fun _ _ => false) →
      (hopNode (sQuery 1 0 { run0 with shards := [shard0] } false) 0x400 { run0 with shards := [shard0] } shard0 0).2.isOk = true := by
  intro h
  unfold hopNode searchRead
  simp only [readPieces_free h]
  decide +kernel

theorem witness_SearchAndHostSteps_host :
    (∀ op ∈ [VOp.get, .put, .atom 9 true], (Instr.hostWindowRequest { req0 op 16 [] false with host := true, sysatom := true, data := [] }).wf = true ∧
      hostRefuses (req0 op 16 [] false) true = none) ∧ hostRefuses (req0 (.fship 0) 64 [] false) true = some 8 ∧
      (Instr.pcieCompletion { req0 .get 16 [] false with host := true }).wf = true ∧
      (Instr.hostCompletionTimeout { req0 .get 16 [] false with host := true }).wf = true ∧
      (let q : Req := { req0 .get 16 [] false with host := true }
       q.base ≤ q.done) ∧
      (let q : Req := { req0 .put 16 (List.replicate 16 7) false with host := true }
       (Instr.pcieCompletion q).wf = true ∧ q.upto ≤ q.data.length) ∧
      (let q : Req := { req0 (.atom 9 true) 16 [] false with host := true }
       (Instr.pcieCompletion q).wf = true ∧ q.base = 0) := by
  decide +kernel

/-- A launch of one task with group 0's tree, whose task waits with a signal or in a speculation. -/
def sBar (arr : List Nat) (out : Nat) (held : List Held) (sp : Option Spec) : State :=
  { on { regs := regs0, task := { task0 with launch := 1 }, state := 3, held := held, spec := sp } with
    launches := [{ num := 1, job := 0, pkg := 0, image := [], ntask := 1, left := 1, members := [(0, 0)],
                   trees := (Vector.replicate 4 {}).setIfInBounds 0 { out := out, arrived := arr } }] }
def held0 (w : List Nat) : Held := { group := 0, phase := false, waits := w }
def spec0 (c : Bool) : Spec := { ckpt := regs0, number := 1, group := 0, phase := false, pc := 0, committing := c }

theorem witness_BarrierSteps :
    (Instr.arriveSignalRelease 0 0).wf = true ∧ (Instr.barrierPhaseComplete 1 0).wf = true ∧ (Instr.conflictNotice 0 0 1).wf = true ∧
      (Instr.escrowDrainEnd 0 0).wf = true ∧ ((sBar [] 0 [held0 []] none).plane 0 0).held = [held0 []] ∧
      isOdd 0 ((sBar [] 0 [held0 []] none).plane 0 0).task = false ∧ (sBar [] 0 [held0 []] none).suspended = [] ∧
      ((sBar [] 0 [held0 []] none).launchOf 1).isSome = true ∧ (sBar [] 0 [held0 []] none).groupOut 1 0 = 0 ∧
      heldBack (sBar [] 0 [held0 []] none) ((sBar [] 0 [held0 []] none).tile 0) 0 ((sBar [] 0 [held0 []] none).plane 0 0).task [] 1 (held0 []) = false ∧
      heldBack (sBar [0] 0 [held0 []] none) ((sBar [0] 0 [held0 []] none).tile 0) 0 ((sBar [0] 0 [held0 []] none).plane 0 0).task [] 1 (held0 []) = true ∧
      (((sBar [0] 0 [] none).launchOf 1).map (fun l => (((l.trees[0]?).getD ({} : Tree)).arrived.length, l.ntask)) = some (1, 1)) ∧
      ((((sBar [] 0 [] none).launchOf 1).map (fun l => ((l.trees[0]?).getD ({} : Tree)).arrived.length)) = some 0) ∧
      planeOfTask ((sBar [0] 0 [] (some (spec0 false))).tile 0) 1 0 = some 0 ∧
      ((sBar [0] 0 [] (some (spec0 false))).plane 0 0).spec = some (spec0 false) ∧ (spec0 false).committing = false ∧
      ((sBar [0] 0 [] none).plane 0 0).spec = none ∧ (spec0 false).number ≠ 2 ∧
      ((sBar [0] 0 [] (some (spec0 false))).plane 0 0).task.dual = false ∧ ((sBar [0] 0 [] (some (spec0 false))).plane 0 0).arrWait = [] ∧
      ((sBar [0] 0 [] none).plane 0 0).drains = false ∧ (spec0 true).committing = true ∧
      (([(1, [(0, 5), (63, 6)])] : List (Nat × NMap Byte)).map (·.1)).Nodup ∧ (spec0 false).doneFlags = [] := by
  decide +kernel

theorem witness_BarrierSteps_drain :
    (∀ e ∈ [[], [(1, [(0, 5), (63, 6)])]],
      ((sBar [] 0 [] (some { spec0 true with escrow := e })).plane 0 0).spec = some { spec0 true with escrow := e }) ∧
      (sBar [] 0 [] (some (spec0 true))).Safe ∧ (spec0 false).awaits ≤ (({} : Tree)).done + 1 ∧ (spec0 false).group = 0 ∧
      arriveTokens ((sBar [] 0 [held0 []] none).tile 0) 0 0 = 0 := by
  unfold State.Safe; decide +kernel

/-! ## Witnesses: interrupts, tasks, the scheduler and the lane manager -/

/-- Tile 0 with plane 0 in a state. -/
def sTile (st : Nat) (t : Tile) : State := on { regs := regs0, state := st, task := task0 } t

theorem noSpecAt_of {s : State} {r : Nat} (h : ∀ q < 2, (s.plane r q).spec = none ∧ partnerOf s r q = none) : NoSpecAt s r :=
  fun q hq => ⟨(h q hq).1, fun x e => by rw [(h q hq).2] at e; cases e⟩

/-- Tile 0 at the beat that its running plane's limit allows, or past it. -/
def sBeat (due : Bool) : State := on { regs := { regs0 with hbcnt := if due then 5 else 0, hbiv := 5 }, state := 3, task := task0 }

/-- Tile 0 with a pre-emption waiting for a plane, and the other plane empty. -/
def sPre (p : Nat) : State := on { regs := regs0, state := 3, preempt := if p = 0 then some 0x511 else none }
  { plane1 := { state := 4, preempt := some 0x511 } }

/-- A DUAL pair of tiles 0 and 1, tile 0 with an operation that its partner has not issued, at a pod time; or its partner gone. -/
def sDual (partner : Bool) (now : Nat) : State :=
  let k : Nat → Task := fun r => { task0 with launch := 1, dual := true, partner := r }
  { (on { regs := regs0, state := 3, task := k 1 } { dualq := [(0, 0, .unlease 5)] }).setTile 1
      (if partner then { plane0 := { regs := regs0, state := 3, task := k 0 }, running := some 0 } else {}) with podTime := now }

theorem witness_InterruptSteps :
    (Instr.dualTimeout 0 0).wf = true ∧ ((sTile 3 { dualDue := some (0, 1) }).tile 0).dualDue = some (0, 1) ∧
      ((sTile 3 { dualDue := some (0, 1) }).tile 0).fenced = false ∧ ((sTile 3 { dualDue := some (0, 1) }).tile 0).monitor = false ∧
      ((sTile 3 { dualDue := some (0, 1) }).plane 0 0).state = 3 ∧
      ((sTile 3 {}).tile 0).dualDue = none ∧ partnerOf (sTile 3 {}) 0 0 = none ∧ (Instr.hbmiss 0).wf = true ∧
      (∀ b : Bool, ((sBeat b).tile 0).running = some 0 ∧ ((sBeat b).tile 0).monitor = false ∧ ((sBeat b).tile 0).fenced = false ∧
        partnerOf (sBeat b) 0 0 = none ∧ decide (((sBeat b).plane 0 0).regs.hbiv ≤ ((sBeat b).plane 0 0).regs.hbcnt) = b) ∧
      (Instr.monitorWatchdogExpiry 0).wf = true ∧ ((sTile 3 { monitor := true }).tile 0).monitor = true ∧
      ((sTile 3 { monitor := true }).tile 0).mwatch < 2 ^ 22 ∧ 2 ^ 22 ≤ ((sTile 3 { monitor := true, mwatch := 2 ^ 22 }).tile 0).mwatch ∧
      (∀ b : Bool, ((sTile 3 { mfault := b }).tile 0).monitor = false ∧ ((sTile 3 { mfault := b }).tile 0).mfault = b) ∧
      (Instr.preemptInterrupt 0 0).wf = true ∧ ((sTile 0 {}).plane 0 0).state ≠ 3 ∧ ((sTile 0 {}).plane 0 0).state ≠ 4 ∧
      partnerOf (sTile 0 {}) 0 0 = none ∧ (Instr.preempt 0).wf = true ∧
      (∀ p < 2, ((sPre p).plane 0 p).preempt = some 0x511 ∧ ((sPre p).tile 0).monitor = false ∧ ((sPre p).tile 0).fenced = false) ∧
      ((sPre 1).plane 0 0).preempt = none ∧
      (Instr.cancelInterrupt 0 0 0).wf = true ∧ ((sTile 3 {}).plane 0 0).task.launch = 0 ∧
      (∀ b : Bool, ((sTile 3 { monitor := b }).tile 0).monitor = b) ∧ ((sTile 3 {}).plane 0 0).drains = false ∧
      (Instr.fenceNotice 1 0).wf = true ∧ (Instr.fenceNotice 0 0).wf = true ∧ (1 : Nat) ≠ 0 := by
  decide +kernel

theorem witness_InterruptSteps_noSpec :
    NoSpecAt (sTile 3 { dualDue := some (0, 1) }) 0 ∧ NoSpecAt (sBeat true) 0 ∧ NoSpecAt (sTile 3 {}) 0 ∧
      ∀ p < 2, NoSpecAt (sPre p) 0 :=
  ⟨noSpecAt_of (by decide +kernel), noSpecAt_of (by decide +kernel), noSpecAt_of (by decide +kernel),
    fun p hp => noSpecAt_of (by revert p; decide +kernel)⟩

/-- An operation of a pair that stood alone for 4,096 clk, with the partner there or gone; and a missed beat of a pair's tile. -/
theorem witness_InterruptSteps_dual :
    partnerOf (sDual false 10000) 0 0 = none ∧ ((sDual false 10000).plane 0 0).task.dual = true ∧
      partnerOut (sDual false 10000) 0 0 = false ∧ dualWaiting (sDual false 10000) 0 0 = [((2, 0), 0, .unlease 5)] ∧
      0 + clkNs (sDual false 10000) (pkgOf 0) 4096 < (sDual false 10000).podTime ∧
      partnerOf (sDual true 10000) 0 0 = some (1, 0) ∧ dualAlone (sDual true 10000) 0 0 1 0 = [(0, .unlease 5)] ∧
      0 + clkNs (sDual true 10000) (pkgOf 0) 4096 < (sDual true 10000).podTime := by
  decide +kernel

theorem witness_InterruptSteps_planes :
    (∀ p < 2, ((sPre p).plane 0 p).preemptDue = some 0x511) ∧ ((sPre 1).plane 0 0).preemptDue = none ∧
      (∀ st ∈ [1, 2, 3, 4], 1 ≤ ((sTile st {}).plane 0 0).state ∧ ((sTile st {}).plane 0 0).state ≤ 4) ∧
      partnerOf (sDual true 0) 0 0 = some (1, 0) ∧ runsLaunch ((sTile 3 {}).plane 0 0) 0 = true ∧
      runsLaunch ((sTile 0 {}).plane 0 0) 5 = false ∧ runsLaunch ((sTile 0 {}).plane 0 (1 - 0)) 5 = false ∧
      runsLaunch ((sTile 6 {}).plane 0 0) 0 = false ∧ ((on { state := 6, spec := some { (default : Spec) with committing := true } } {}).plane 0 0).drains = true ∧
      (let s : State := { sTile 0 {} with suspended := [{ rank := 0, plane := { task := { task0 with launch := 5 } } }] }
       (s.suspended.find? (fun u => decide (u.rank = 0 ∧ u.plane.task.launch = 5))).isSome = true) ∧ (sTile 0 {}).suspended = [] := by
  decide +kernel

theorem witness_InterruptSteps_peerDown :
    let pl : Plane := { regs := { regs0 with flag := regs0.flag.setIfInBounds 5 { bound := some 1 } },
                        prq := [{ id := 1, flag := 5, src := 1, tag := 0, group := 0, addr := 64, cap := 4 }] }
    pl.prq = [{ id := 1, flag := 5, src := 1, tag := 0, group := 0, addr := 64, cap := 4 }] ∧ pl.sends = [] ∧
      (pl.regs.fl 5).bound = some 1 := by
  decide +kernel

/-- A launch of 2 by 1 tasks in task grids of 1 by 1, with PLEN 4 at 65,536 and no data; gangs for bgroups 1. -/
def image0 (bg : Nat) : List Byte :=
  leBytes 8 65536 ++ leBytes 4 4 ++ leBytes 4 0 ++ leBytes 8 65536 ++ leBytes 8 131072 ++ leBytes 8 0 ++ leBytes 2 2 ++ leBytes 2 1
    ++ leBytes 2 1 ++ leBytes 2 1 ++ leBytes 1 0 ++ leBytes 1 32 ++ leBytes 1 0 ++ leBytes 1 bg ++ leBytes 2 0 ++ leBytes 2 16
    ++ leBytes 2 16 ++ leBytes 2 1 ++ leBytes 4 65536 ++ leBytes 64 0
def launch0 : Launch := { num := 1, job := 0, pkg := 0, image := image0 0, ntask := 2, left := 2 }

/-- Tile 0's plane 0 in a state with task 0 of launch 1, and package 0's TLBs hold the launch's pages. -/
def sTask (st : Nat) (run : Bool) : State :=
  let s := on { regs := { regs0 with tsbase := 0 }, state := st, resumeKind := true, task := { task0 with launch := 1 } }
  let s := if run then s else s.modTile 0 (fun t => { t with running := none })
  let s := s.modPkg 0 (fun p => { p with tlb := (List.range 4).map (fun d => (d, [{ tr0 with hi := 2 ^ 21 - 1 }])) })
  { s with launches := [launch0], jobs := [{ num := 0, pkg := 0, part := 0, addr := 0, nphase := 1, quota := 1, phaseva := 0,
                                             groupva := 0, doneva := 0, streamva := 0, left := 1 }] }

theorem witness_TaskSteps :
    (Instr.taskEnd 0 0).wf = true ∧ ((sTile 3 {}).plane 0 0).exiting = none ∧
      (∀ st ∈ ([3, 6] : List Nat), ((on { regs := regs0, state := st, exiting := some 8 }).plane 0 0).exiting = some 8 ∧
        ((on { regs := regs0, state := st, exiting := some 8 }).plane 0 0).state = st) ∧
      mayExit ((on { regs := regs0, state := 3, exiting := some 8 }).tile 0) 0 = true ∧
      mayExit ((on { regs := regs0, state := 3, exiting := some 8, mx := [mxE (.mma mma0)] }).tile 0) 0 = false ∧
      ((on { regs := regs0, state := 3, exiting := some 8 }).tile 0).monitor = false ∧
      (Instr.planeFree 0 0).wf = true ∧ ((sTile 6 {}).plane 0 0).state = 6 ∧ mayFree ((sTile 6 {}).tile 0) 0 = true ∧
      ((sTile 3 {}).plane 0 0).state ≠ 6 ∧
      mayFree ((on { regs := regs0, state := 6, mx := [mxE (.mma mma0)] }).tile 0) 0 = false ∧
      (Instr.spillHeadReadmit 0 0).wf = true ∧ ((sTile 3 {}).plane 0 0).diverted = false ∧
      ((on { regs := regs0, state := 3, diverted := true, readmit := true }).plane 0 0).diverted = true ∧
      ((on { regs := regs0, state := 3, diverted := true, readmit := true }).plane 0 0).readmit = true ∧
      ((on { regs := regs0, state := 3, diverted := true, readmit := true }).plane 0 0).spillq = [] ∧
      (Instr.windowStart 0).wf = true ∧ (Instr.loadComplete 0 0).wf = true ∧ ((sTask 3 true).plane 0 0).state ≠ 1 ∧
      ((sTask 1 true).plane 0 0).state = 1 ∧ (sTask 1 true).launchOf ((sTask 1 true).plane 0 0).task.launch = some launch0 ∧
      ((sTask 1 true).plane 0 0).resumeKind = true ∧ ((sTask 1 true).tile 0).running ≠ none ∧ ((sTask 1 true).plane 0 0).regs.tsbase < 2 ^ 32 := by
  decide +kernel

theorem witness_TaskSteps_readmit :
    (∀ ok full : Bool, ((sResumed ok full).plane 0 0).spillq = [.msg msgQ] ∧ ((sResumed ok full).plane 0 0).diverted = true ∧
      ((sResumed ok full).plane 0 0).readmit = true) ∧
    (∃ u, readmitHead (sResumed false false) 0 0 (.msg msgQ) = .error (4, u)) ∧
    (Config.memError = (fun _ _ => false) → ∀ full : Bool, ∃ b u,
      readmitHead (sResumed true full) 0 0 (.msg msgQ) = .ok (b, u) ∧ (b == !full) = true) := by
  refine ⟨by decide +kernel, failsWith_spec (by decide +kernel), fun h full => ?_⟩
  simp only [readmitHead, queueRead, spillRead, readBy_free h]
  cases full
  · exact okWith_spec (by decide +kernel)
  · exact okWith_spec (by decide +kernel)

theorem errOf {α : Type} {x : Except (Nat × State) α} (h : (match x with | .error _ => true | .ok _ => false) = true) : ∃ f, x = .error f := by
  cases x <;> simp_all

/-- The images of launch0, but for the free value. -/
def imagesF (s : State) : Except (Nat × State) (List Byte × State) :=
  readByF (fun s va => placeDie s 0 ((s.pkg 0).homeDie 0) 0 (schedRank 0) true false va) (pieces 65536 4) s

theorem readImages_free (h : Config.memError = fun _ _ => false) (s : State) (hj : s.jobPart 0 0 = 0) :
    readImages s launch0 true = match imagesF s with
      | .error f => .error f
      | .ok (b, u) => .ok (b, [], u) := by
  unfold readImages schedRead imagesF
  simp only [readBy_free h]
  rw [show launch0.job = 0 from rfl, show launch0.pkg = 0 from rfl, hj, show launch0.f 0 8 = 65536 by decide +kernel,
    show launch0.plen = 4 by decide +kernel]
  rfl

/-- The two outcomes of a load: its images are read, or its page does not let it read. -/
theorem witness_TaskSteps_load :
    Config.memError = (fun _ _ => false) →
      (∃ b d u, readImages (sTask 1 true) launch0 true = .ok (b, d, u)) ∧
      ∃ fc, readImages ((sTask 1 true).modPkg 0 (fun p => { p with tlb := p.tlb.map (fun e => (e.1, [{ tr0 with r := false }])) }))
        launch0 true = .error fc := by
  intro h
  have h1 : okWith (imagesF (sTask 1 true)) (fun _ _ => true) = true := by decide +kernel
  obtain ⟨b, u, e, -⟩ := okWith_spec h1
  have h2 := errOf (x := imagesF ((sTask 1 true).modPkg 0 (fun p =>
    { p with tlb := p.tlb.map (fun e => (e.1, [{ tr0 with r := false }])) }))) (by decide +kernel)
  obtain ⟨f, e2⟩ := h2
  refine ⟨⟨b, [], u, ?_⟩, f, ?_⟩
  · rw [readImages_free h _ (by decide +kernel), e]
  · rw [readImages_free h _ (by decide +kernel), e2]

theorem witness_TaskSteps_room : ((sTask 1 true).plane 0 0).regs.tsbase + ((sTask 1 true).plane 0 0).regs.tslen < 2 ^ 32 ∧ (sTask 1 true).Safe := by
  unfold State.Safe; decide +kernel

/-- A graph with nodes of kinds, each with its state. -/
def graph0 (l : List Node) (fin : Bool) : Graph := { num := 1, job := 0, pkg := 0, gstat := 0, nodes := l, fin := fin }
def node0 (kind st : Nat) : Node := { kind := kind, npred := 0, nback := 0, addr := 0, bodyLo := 0, bodyHi := 0, succ := [1, 2], count := 0, st := st }
def sGraph (g : Graph) : State := { sTask 3 true with graphs := [g] }

theorem witness_SchedulerSteps :
    (Instr.placementDecision 0 0).wf = true ∧
      ((decideQueue (sTask 3 true) 0 0).1.map (fun x => (x.1.num, x.2.length))) = some (1, 1) ∧
      (decideQueue s0 0 0).1 = none ∧ outAt (decideQueue s0 0 0).2 0 0 = [] ∧
      (∀ k < 4, served (sTask 3 true) 0 0 (60 + k) = none) ∧ (served (sTask 3 true) 0 0 0).isSome = true ∧
      launch0.gang = false ∧ (sTask 3 true).launchOf launch0.num = some launch0 ∧ afterLast [1, 4] 2 = some 4 := by
  decide +kernel

/-- A gang of two tasks holds a plane for each, or for one; a tile's test; a put of a graph's ended task that is out, or none. -/
theorem witness_SchedulerSteps_gang :
    (let l : Launch := { launch0 with image := image0 1 }
     let s : State := { sTask 3 true with launches := [l] }
     l.gang = true ∧ l.test = none ∧ s.launchOf l.num = some l ∧ gangReady s { l with heldPlanes := [(1, 0)] } = false ∧
       gangReady s { l with heldPlanes := [(1, 0), (2, 0)] } = true) ∧
      ({ launch0 with test := some 1 } : Launch).test = some 1 ∧
      (let g := graph0 [node0 1 0] false
       ∀ b : Bool, writesOut { (on { regs := regs0, state := if b then 6 else 0, task := { task0 with launch := 1 } }
         { reqs := [{ req := req0 .put 4 [1, 2, 3, 4] false, sent := true }] }) with
           launches := [{ launch0 with graph := some (1, 0) }], graphs := [g] } g = b) := by
  decide +kernel

/-- A launch in system queue 60, which has tickets, on a package whose generator holds 1. -/
def launchSys : Launch := { launch0 with image := (image0 0).set 48 60, queued := true }
def sSys (lage : Nat) : State :=
  { (sTask 3 true).modPkg 0 (fun p => (p.setReg (qcfgAddr 0 60) (2 ^ 31 + 2 ^ 16 + lage * 2 ^ 8)).setReg 0x10208 1) with launches := [launchSys] }

theorem witness_SchedulerSteps_draw :
    (∀ lage ∈ [0, 64], [60, 61, 62, 63].filter (fun q =>
      decide (bitsHL (((sSys lage).pkg 0).reg (qcfgAddr 0 q)) 23 16 ≠ 0) && (served (sSys lage) 0 0 q).isSome) = [60] ∧
      (draw ((sSys lage).pkg 0) 0 [60]).1 = some 60 ∧
      [60].find? (fun q => decide (lageOf (((sSys lage).pkg 0).reg (qcfgAddr 0 q)) = 64)) = (if lage = 64 then some 60 else none)) ∧
      (∀ q < 60, served (sSys 0) 0 0 q = none) ∧ byTicket [(60, 1), (61, 2)] 1 = some 61 ∧
      (let s : State := { sTask 3 true with agenda := [{ ev := .placementDecision 0 0 }] }
       lowerOffers s launch0 1 = true ∧ lowerOffers s launch0 0 = false) ∧
      [1, 4].Pairwise (· < ·) ∧ afterLast [1, 4] 4 = some 1 := by
  decide +kernel

/-- A launch record of one task at DPA 0, with its spill area at 1 MiB, in 16 leaves of 64 KiB that belong to rank 0. -/
def image1 : List Byte :=
  leBytes 8 65536 ++ leBytes 4 4 ++ leBytes 4 0 ++ leBytes 8 65536 ++ leBytes 8 131072 ++ leBytes 8 1048576 ++ leBytes 2 1 ++ leBytes 2 1
    ++ leBytes 2 1 ++ leBytes 2 1 ++ leBytes 1 0 ++ leBytes 1 32 ++ leBytes 1 0 ++ leBytes 1 0 ++ leBytes 2 0 ++ leBytes 2 16
    ++ leBytes 2 16 ++ leBytes 2 1 ++ leBytes 4 65536 ++ leBytes 64 0

def nodeL : Node := { kind := 0, npred := 0, nback := 0, addr := 65536, bodyLo := 0, bodyHi := 0, succ := [], count := 0, st := 1 }

/-- A graph with that launch node, and the page tables of its partition. -/
def sNode : State :=
  let s : State := { (sTask 3 true).modPkg 0 (fun p => p.setReg 0x30800 (1 + 8 * 8192)) with graphs := [graph0 [nodeL] false] }
  let put := fun (m : List Host.Cell) (dpa e : Nat) => memWrite m (s.dpaAddr 0 dpa) (leBytes 16 e)
  let m := put (put (put (memWrite [] (s.dpaAddr 0 0) image1) 65536 (1 + 2 ^ 8 + 17 * 2 ^ 62)) (17 * 4096) (1 + 2 ^ 8 + 18 * 2 ^ 62))
    (18 * 4096) (1 + 2 ^ 8 + 19 * 2 ^ 62)
  { s with mem := (List.range 16).foldl (fun m i => put m (19 * 4096 + 16 * 16 * (16 + i)) (1 + 2 + 4 + 32 + 64 + (i + 16) * 16 * 2 ^ 62)) m }

/-- The state in which the launch node reads its record. -/
def vNode : State := (freshNum (sNode.modGraph 1 (fun g => { g with nodes := g.nodes.modify 0 (fun n => { n with st := 2 }) }))).2

/-- The checks of a launch record, but for the free value. -/
def spillPageOkF (s : State) (pkg part va : Nat) : Bool :=
  decide (va < 2 ^ 48) &&
  match (let root := (s.pkg pkg).reg (0x30800 + 8 * part)
    if !root.testBit 0 then .error { code := fcWALKERR } else walkFromF s pkg part va 3 (bitsHL root 41 13 * 8192)) with
  | .error _ => false
  | .ok t => decide (t.hi - t.lo < 65536) && t.own.isSome && ((s.pkg pkg).rangeFor part va).isNone

theorem spillPageOk_free (h : Config.memError = fun _ _ => false) (s : State) (pkg part va : Nat) :
    spillPageOk s pkg part va = spillPageOkF s pkg part va := by
  simp only [spillPageOk, spillPageOkF, walk, walkFrom_free h] <;> rfl

def launchOneF (s : State) (l : Launch) (part : Nat) : Bool :=
  l.rangesOk && !l.fixed && !l.gang && decide (l.lw * l.lh = 1) &&
    (List.range 256).all (fun k => spillPageOkF s l.pkg part (l.f 32 8 + 4096 * k))

theorem launchOne_ok (h : Config.memError = fun _ _ => false) {s : State} {l : Launch} {part : Nat} (e : launchOneF s l part = true) :
    launchOk s l part = true := by
  simp only [launchOneF, Bool.and_eq_true, decide_eq_true_eq, ← spillPageOk_free h] at e
  simp [launchOk, e.1.1.1.1, e.1.1.1.2, e.1.1.2, e.1.2]
  simpa using e.2

theorem toOption_ok {ε α : Type} {x : Except ε α} {a : α} (h : x.toOption = some a) : x = .ok a := by
  cases x <;> simp_all [Except.toOption]

/-- The walk through three pointers to a leaf of 64 KiB. -/
theorem walkFromF_big {s : State} {pkg part va b3 b2 b1 b0 e3 e2 e1 e0 : Nat}
    (h3 : readPteF s pkg (b3 + 16 * (va / 2 ^ 39 % 512)) = .ok e3) (h2 : readPteF s pkg (b2 + 16 * (va / 2 ^ 30 % 512)) = .ok e2)
    (h1 : readPteF s pkg (b1 + 16 * (va / 2 ^ 21 % 512)) = .ok e1) (h0 : readPteF s pkg (b0 + 16 * (bitsHL va 20 16 * 16)) = .ok e0)
    (p3 : e3.testBit 0 = true ∧ bitsHL e3 61 9 = 0 ∧ e3.testBit 8 = true ∧ bitsHL e3 91 62 * 4096 = b2)
    (p2 : e2.testBit 0 = true ∧ bitsHL e2 61 9 = 0 ∧ e2.testBit 8 = true ∧ bitsHL e2 91 62 * 4096 = b1)
    (p1 : e1.testBit 0 = true ∧ bitsHL e1 61 9 = 0 ∧ e1.testBit 8 = true ∧ bitsHL e1 91 62 * 4096 = b0)
    (p0 : bigLeaf e0 = true ∧ e0.testBit 0 = true ∧ bitsHL e0 61 9 = 0 ∧ e0.testBit 8 = false ∧ bitsHL e0 91 62 % 16 = 0) :
    walkFromF s pkg part va 3 b3 = .ok (leafTr part va 65536 e0) := by
  obtain ⟨a3, c3, d3, rfl⟩ := p3
  obtain ⟨a2, c2, d2, rfl⟩ := p2
  obtain ⟨a1, c1, d1, rfl⟩ := p1
  obtain ⟨q0, q1, q2, q3, q4⟩ := p0
  simp only [walkFromF, Nat.reduceMul, Nat.reduceAdd, h3, h2, h1, h0, bind, Except.bind, a3, c3, d3, a2, c2, d2, a1, c1, d1]
  simp [Except.toOption, q0, q1, q2, q3, q4]

/-- The entries of the partition's tables that the pages of the spill area are walked through. -/
abbrev readsOk (u : State) : Prop :=
  (readPteF u 0 65536).toOption = some (1 + 2 ^ 8 + 17 * 2 ^ 62) ∧ (readPteF u 0 69632).toOption = some (1 + 2 ^ 8 + 18 * 2 ^ 62) ∧
    (readPteF u 0 73728).toOption = some (1 + 2 ^ 8 + 19 * 2 ^ 62) ∧
    (∀ i < 16, (readPteF u 0 (77824 + 16 * 16 * (16 + i))).toOption = some (103 + (16 + i) * 16 * 2 ^ 62)) ∧
    (u.pkg 0).reg 0x30800 = 65537 ∧ (u.pkg 0).rng = []

/-- Each page of the spill area is in one of the leaves. -/
theorem pages_in : ∀ k < 256, (1048576 + 4096 * k) / 2 ^ 39 % 512 = 0 ∧ (1048576 + 4096 * k) / 2 ^ 30 % 512 = 0 ∧
    (1048576 + 4096 * k) / 2 ^ 21 % 512 = 0 ∧ bitsHL (1048576 + 4096 * k) 20 16 = 16 + k / 16 ∧
    (leafTr 0 (1048576 + 4096 * k) 65536 (103 + (16 + k / 16) * 16 * 2 ^ 62)).own.isSome = true ∧
    (leafTr 0 (1048576 + 4096 * k) 65536 (103 + (16 + k / 16) * 16 * 2 ^ 62)).hi -
      (leafTr 0 (1048576 + 4096 * k) 65536 (103 + (16 + k / 16) * 16 * 2 ^ 62)).lo < 65536 := by
  decide +kernel

theorem leaves_big : ∀ i < 16, let e := 103 + (16 + i) * 16 * 2 ^ 62
    bigLeaf e = true ∧ e.testBit 0 = true ∧ bitsHL e 61 9 = 0 ∧ e.testBit 8 = false ∧ bitsHL e 91 62 % 16 = 0 := by
  decide +kernel

theorem no_ranges : ∀ n < 16, rangeTr 0 n 0 = none := by decide +kernel

theorem readsOk_pages {u : State} (h : readsOk u) (k : Nat) (hk : k < 256) : spillPageOkF u 0 0 (1048576 + 4096 * k) = true := by
  obtain ⟨r3, r2, r1, r0, hg, hn⟩ := h
  obtain ⟨a3, a2, a1, a0, o, w⟩ := pages_in k hk
  have e0 : 77824 + 16 * (bitsHL (1048576 + 4096 * k) 20 16 * 16) = 77824 + 16 * 16 * (16 + k / 16) := by rw [a0]; omega
  have h0 : readPteF u 0 (77824 + 16 * (bitsHL (1048576 + 4096 * k) 20 16 * 16)) = .ok (103 + (16 + k / 16) * 16 * 2 ^ 62) := by
    rw [e0]; exact toOption_ok (r0 (k / 16) (by omega))
  have h3 : readPteF u 0 (65536 + 16 * ((1048576 + 4096 * k) / 2 ^ 39 % 512)) = .ok (1 + 2 ^ 8 + 17 * 2 ^ 62) := by
    rw [a3]; exact toOption_ok r3
  have h2 : readPteF u 0 (69632 + 16 * ((1048576 + 4096 * k) / 2 ^ 30 % 512)) = .ok (1 + 2 ^ 8 + 18 * 2 ^ 62) := by
    rw [a2]; exact toOption_ok r2
  have h1 : readPteF u 0 (73728 + 16 * ((1048576 + 4096 * k) / 2 ^ 21 % 512)) = .ok (1 + 2 ^ 8 + 19 * 2 ^ 62) := by
    rw [a1]; exact toOption_ok r1
  have hw := walkFromF_big (part := 0) h3 h2 h1 h0 (by decide +kernel) (by decide +kernel) (by decide +kernel) (leaves_big (k / 16) (by omega))
  have hb : bitsHL 65537 41 13 * 8192 = 65536 := by decide
  have hr : (u.pkg 0).rangeFor 0 (1048576 + 4096 * k) = none := by
    simp only [Package.rangeFor, hn, List.find?_eq_none, List.mem_filterMap, List.mem_range]
    rintro t ⟨n, h1, h2⟩
    simp [ngetD, nget, no_ranges n h1] at h2
  simp only [spillPageOkF, Nat.mul_zero, Nat.add_zero, hg, hb, hr]
  rw [if_neg (by decide), hw]
  simp only [o, decide_eq_true w, Option.isNone_none, Bool.and_true, decide_eq_true_eq]
  omega

theorem record_read : okWith (readByF (fun s va => placeDie s 0 ((s.pkg 0).homeDie 0) 0 (schedRank 0) true false va) (pieces 65536 128) vNode)
    (fun b u => decide (b = image1 ∧ readsOk u)) = true := by decide +kernel

theorem launch_ok (h : Config.memError = fun _ _ => false) {u : State} (f : readsOk u) (l : Launch)
    (hl : l = { num := 1, job := 0, pkg := 0, image := image1, graph := some (1, 0) }) : launchOk u l 0 = true := by
  obtain ⟨h1, h2, h3, h4, h5, h6⟩ : l.rangesOk = true ∧ l.fixed = false ∧ l.gang = false ∧ l.lw * l.lh = 1 ∧ l.f 32 8 = 1048576 ∧ l.pkg = 0 := by
    rw [hl]; decide +kernel
  refine launchOne_ok h ?_
  simp only [launchOneF, h1, h2, h3, h4, h5, h6, Bool.not_false, Bool.true_and, decide_true, List.all_eq_true, List.mem_range]
  exact readsOk_pages f

theorem witness_SchedulerSteps_launch :
    vNode = (freshNum (sNode.modGraph 1 (fun g => { g with nodes := g.nodes.modify 0 (fun n => { n with st := 2 }) }))).2 ∧
    sNode.nextNum = 1 ∧ sNode.jobPart 0 0 = 0 ∧
    (Config.memError = (fun _ _ => false) → ∃ b u l, schedRead vNode 0 0 65536 128 = .ok (b, u) ∧
      l = { num := 1, job := 0, pkg := 0, image := b, graph := some (1, 0) } ∧ launchOk u l 0 = true) := by
  refine ⟨rfl, by decide +kernel, by decide +kernel, fun h => ?_⟩
  obtain ⟨b, u, e, f⟩ := okWith_spec record_read
  obtain ⟨hb, f⟩ := of_decide_eq_true f
  have hs : schedRead vNode 0 0 65536 128 = .ok (b, u) := by unfold schedRead; rw [readBy_free h]; exact e
  exact ⟨b, u, _, hs, rfl, launch_ok h f _ (by rw [hb])⟩

/-- A condition word that can be read. -/
theorem witness_SchedulerSteps_word :
    Config.memError = (fun _ _ => false) → ∃ b u, schedRead (sTask 3 true) 0 ((sTask 3 true).jobPart 0 0) 65536 8 = .ok (b, u) := by
  intro h
  have h1 : okWith (readByF (fun s va => placeDie s 0 ((s.pkg 0).homeDie 0) ((sTask 3 true).jobPart 0 0) (schedRank 0) true false va)
    (pieces 65536 8) (sTask 3 true)) (fun _ _ => true) = true := by decide +kernel
  obtain ⟨b, u, e, -⟩ := okWith_spec h1
  exact ⟨b, u, by unfold schedRead; simp only [readBy_free h]; exact e⟩

theorem witness_SchedulerSteps_graph :
    (Instr.graphNodeEval 0 1).wf = true ∧ s0.graphOf 1 = none ∧
      (sGraph (graph0 [node0 4 1] true)).graphOf 1 = some (graph0 [node0 4 1] true) ∧
      (sGraph (graph0 [node0 1 0, node0 4 1] false)).graphOf 1 = some (graph0 [node0 1 0, node0 4 1] false) ∧
      (graph0 [node0 1 0, node0 4 1] false).stopped = false ∧
      (graph0 [node0 1 0, node0 4 1] false).next = some 1 ∧ (graph0 [node0 1 0, node0 4 1] false).nodes[1]? = some (node0 4 1) ∧
      (∃ j < 1, (graph0 [node0 0 1, node0 4 1] false).nodes[j]? = some (node0 0 1)) ∧
      (node0 1 0).kind = 1 ∧ (node0 3 0).kind = 3 ∧ 1 < (node0 3 0).succ.length ∧ (node0 3 0).succ.length ≤ 2 ∧
      ({ node0 0 0 with count := 2 } : Node).st = 0 ∧ ({ node0 0 0 with count := 1 } : Node).count = 1 := by
  decide +kernel

/-- Package 0 with a request for 2 lanes to package 1 for 1 µs, or for none, or with its quota used up by a lease of lane 31. -/
def ask0 (lanes : Nat) : LeaseReq := { rank := 0, plane := 0, job := 0, fn := 5, id := 1, val := BitVec.ofNat 64 (1 + lanes * 2 ^ 12 + 2 ^ 22) }
def lease0 (rep : Bool) : Lease := { num := 1, job := 0, off := 1, lanes := [(31, 2)], endNs := 1000, fn := 5, id := 1, granted := 1, reported := rep }
def sLane (f : Package → Package) (now : Nat) : State :=
  { (on { regs := { regs0 with flag := regs0.flag.setIfInBounds 5 { bound := some 1 } }, state := 3, askIds := [1] }).modPkg 0 f with
    podTime := now }

theorem witness_LaneManagerSteps_lease :
    (Instr.leaseServe 0).wf = true ∧ (s0.pkg 0).nextReq = none ∧
      (∀ n < 3, ((sLane (fun p => { p with leaseReqs := [ask0 n] }) 0).pkg 0).nextReq = some (ask0 n)) ∧
      leaseBad (sLane id 0) 0 (ask0 0).val = true ∧ leaseBad (sLane id 0) 0 (ask0 2).val = false ∧
      (Instr.leaseRetuneEnd 0 1).wf = true ∧ (∀ x ∈ (s0.pkg 0).leases, x.num = 1 → x.reported = true) ∧
      ((sLane (fun p => { p with leases := [lease0 false] }) 0).pkg 0).leases.find? (fun x => decide (x.num = 1) && !x.reported)
        = some (lease0 false) ∧
      (((sLane id 0).plane 0 0).regs.fl 5).bound = some 1 ∧ ((sLane id 0).plane 0 0).task.dual = false ∧
      (Instr.leaseExpiry 0 1).wf = true ∧ (sLane id 0 |>.pkg 0).leases.find? (fun x => decide (x.num = 1) && x.live) = none ∧
      (∀ n < 2, ((sLane (fun p => { p with leases := [lease0 true] }) (1000 * n)).pkg 0).leases.find?
        (fun x => decide (x.num = 1) && x.live) = some (lease0 true)) ∧
      (sLane id 0).podTime < (lease0 true).endNs ∧ (lease0 true).endNs ≤ (sLane id 1000).podTime ∧ (31, 2) ∈ (lease0 true).lanes ∧
      (Instr.leaseRevocation 0 2).wf = true ∧ nget ((sLane id 0).pkg 0).highSince 2 = none := by
  decide +kernel

theorem witness_LaneManagerSteps_pairs :
    (let g : Regs := { regs0 with flag := regs0.flag.setIfInBounds 5 { bound := some 1 } }
     let s : State := { sLane (fun p => { p with leases := [{ lease0 false with twin := 1 }] }) 0 with
       suspended := [{ rank := 0, plane := { regs := g } }] }
     let s := s.setTile 1 { plane0 := { regs := g, state := 3 } }
     ((s.plane 1 0).regs.fl 5).bound = some 1 ∧ ({ lease0 false with twin := 1 } : Lease).twin ≠ 0 ∧
       ∃ u ∈ s.suspended, u.rank = 0 ∧ (u.plane.regs.fl 5).bound = some 1) ∧
      (∃ k < 8, 8 * (31 / 8) + k ≠ 31 ∧ (pk0.tune 24 (lanePos 31)).pos (8 * (31 / 8) + k) = lanePos 31) ∧
      (∀ k < 8, 8 * (31 / 8) + k ≠ 31 → pk0.pos (8 * (31 / 8) + k) ≠ lanePos 31) := by
  decide +kernel

/-- Package 0 with a lease of one of peer 2's lanes, whose queue has stood high since pod time 0, with an LTHRESH that it meets or
not. -/
def sHigh (high : Bool) (now : Nat) : State :=
  sLane (fun p => { p.setReg 0x20000 (if high then 0 else 2 ^ 48) with leases := [lease0 true], highSince := [(2, 0)] }) now

theorem witness_LaneManagerSteps_revocation :
    (∀ h : Bool, ∀ n < 2, nget ((sHigh h (50000 * n)).pkg 0).highSince 2 = some 0 ∧ queueHigh (sHigh h (50000 * n)) 0 2 = h) ∧
      (sHigh true 0).podTime < 0 + 50000 ∧ 0 + 50000 ≤ (sHigh true 50000).podTime ∧
      (((sHigh true 50000).pkg 0).leases.reverse).find? (fun x => x.lanes.any (fun l => decide (l.2 = 2))) = some (lease0 true) := by
  decide +kernel

/-- Where the donors' queues are short, a request is granted lanes; where the quota is used up, or every queue is high, none. -/
theorem witness_LaneManagerSteps_passes :
    let s := sLane (fun p => p.setReg 0x20000 (2 ^ 48)) 0
    (leasePasses s 0 1 2 64 64 127 (s.pkg 0, [])).2 = [] ∧ (leasePasses s 0 1 2 64 0 127 (s.pkg 0, [])).2 ≠ [] ∧
      (leasePasses (sHigh true 0) 0 1 2 64 0 127 ((sHigh true 0).pkg 0, [])).2 = [] := by
  decide +kernel

/-- Package 0 in slotted mode or not, with a table of one slot of 16 lanes to the next package for 2 µs, or with none. -/
def slot0 : Nat := 2 ^ 31 + 2 ^ 26 + 16 * 2 ^ 16 + 2
def pkSlot (slotted bit : Bool) (sw : Option Nat) (p : Package) : Package :=
  { (p.setReg 0x20100 slot0).setReg 0x20000 (if bit then 1 else 0) with
    slotted := slotted, switchAt := sw, rota := { slots := [(0, slot0)], guard := 250, start := 500 } }

theorem witness_LaneManagerSteps_slots :
    (Instr.slotStart 0 0).wf = true ∧ ((sLane (pkSlot false false none) 0).pkg 0).slotted = false ∧
      ((sLane (pkSlot true true none) 0).pkg 0).slotted = true ∧
      ((sLane (pkSlot true true none) 0).pkg 0).rota.slotAt (sLane (pkSlot true true none) 0).podTime = none ∧
      ((sLane (pkSlot true true none) 600).pkg 0).rota.slotAt (sLane (pkSlot true true none) 600).podTime = some (0, 500, slot0) ∧
      (sLane (pkSlot true true none) 600).podTime < 500 + 250 ∧
      nget (((sLane (fun p => { p with credit := [(1, 8)] }) 0).pkg (queueKey 0 1 / 4096))).credit (queueKey 0 1 % 4096) = some 8 ∧
      (Instr.modeSwitch 0).wf = true ∧ ((sLane (pkSlot false true none) 0).pkg 0).switchAt = none ∧
      (∀ b : Bool, ((sLane (pkSlot false b (some 500)) 0).pkg 0).switchAt = some 500 ∧ (sLane (pkSlot false b (some 500)) 0).podTime < 500 ∧
        500 ≤ (sLane (pkSlot false b (some 500)) 500).podTime ∧ ((sLane (pkSlot false b (some 500)) 0).pkg 0).slotBit = b) ∧
      (Instr.podTimeBeacon 0 0).wf = true ∧
      (Instr.laneManagerAnswer { rank := 0, plane := 0, fn := 5, id := 1, slot := true, what := 0 }).wf = true ∧
      1 ∈ ((sLane id 0).plane 0 0).askIds ∧ 2 ∉ ((sLane id 0).plane 0 0).askIds ∧
      bitsHL (((sLane (pkSlot false false none) 0).pkg 0).reg 0x20000) 41 32 = bitsHL 1 41 32 ∧
      tableBad ((sLane (pkSlot false false none) 0).pkg 0).slotRegs (guardOf (((sLane (pkSlot false false none) 0).pkg 0).reg 0x20000))
        = false ∧
      tableBad ((sLane id 0).pkg 0).slotRegs (guardOf (((sLane id 0).pkg 0).reg 0x20000)) = true ∧
      tableBad (((sLane (pkSlot true true none) 0).pkg 0).setReg 0x20108 0).slotRegs 250 = false ∧
      tableBad (((sLane (pkSlot true true none) 0).pkg 0).setReg 0x20100 0).slotRegs 250 = true := by
  decide +kernel

theorem witness_LaneManagerSteps_slotRuns :
    ((sLane (pkSlot true true none) 800).pkg 0).rota.slotAt (sLane (pkSlot true true none) 800).podTime = some (0, 500, slot0) ∧
      500 + 250 ≤ (sLane (pkSlot true true none) 800).podTime ∧ ((sLane (pkSlot true true none) 800).pkg 0).slotLanesUp slot0 ≠ 0 ∧
      ((s0.plane 0 0).askIds = [] ∧ 1 ∈ ((sLane id 0).plane 0 0).askIds ∧ (((sLane id 0).plane 0 0).regs.fl 5).bound = some 1) ∧
      ((sLane (pkSlot true true none) 0).pkg 0).slotBit = true ∧ ((sLane (pkSlot false true none) 0).pkg 0).slotted = false := by
  decide +kernel

theorem witness_LaneManagerSteps_writes :
    (Instr.slottedSet 0 1).wf = true ∧ (Instr.slottedClear 0 0).wf = true ∧ (Instr.slotTableWrite 0 1 0).wf = true := by
  decide +kernel

/-! ## Witnesses: the platform, its registers and the command channel -/

/-- Package 0 changed, with pod time 0. -/
def sPkg (f : Package → Package) : State := s0.modPkg 0 f

/-- Entry e of the health table is fenced. -/
def fencedE (e : Nat) (p : Package) : Package := { p with health := nset p.health e (2 ^ 63) }

theorem witness_PlatformSteps_tests :
    (Instr.crcReplay 0 3).wf = true ∧ ((sPkg (fencedE 1347)).pkg 0).isFenced 1347 = true ∧ (s0.pkg 0).isFenced 1347 = false ∧
      1 < bitsHL ((s0.pkg 0).reg 8) 51 40 ∧
      bitsHL (((sPkg (fun p => p.setReg 8 (2 ^ 40))).pkg 0).reg 8) 51 40 ≤ 1 ∧
      (ngetD (s0.pkg 0).windowCount 1347 (windowOf s0 1347, 0)) = (windowOf s0 1347, 0) ∧
      ngetD ((sPkg (fun p => { p with windowCount := [(1347, (7, 9))] })).pkg 0).windowCount 1347 (0, 0) ≠ (0, 0) ∧
      (Instr.limitWindowEnd 0 true).wf = true ∧ (Instr.fieldTest 0 1 true).wf = true ∧ (Instr.fieldTest 0 1 false).wf = true ∧
      ((sPkg (fencedE 1)).pkg 0).isFenced 1 = true ∧ (Instr.fieldTest 0 1347 true).wf = true ∧ unitIdle s0 0 1347 = true ∧
      unitIdle { s0 with agenda := [{ ev := .podTimeBeacon 0 0, via := some (queueKey 0 ((s0.pkg 0).pos 3), 1) }] } 0 1347 = false ∧
      (s0.pkg 0).isFenced 1 = false ∧ s0.launches = [] ∧
      (let l : Launch := { launch0 with test := some 1, heldPlanes := [(1, 0), (1, 1)] }
       let s : State := { s0 with launches := [l] }
       l ∈ s.launches ∧ l.pkg = 0 ∧ l.test = some 1 ∧ l.heldPlanes ≠ []) := by
  decide +kernel

theorem witness_PlatformSteps_repair :
    (Instr.spareRepair 0 17).wf = true ∧ (s0.pkg 0).isFenced 17 = false ∧ ((sPkg (fencedE 17)).pkg 0).isFenced 17 = true ∧
      spareFree (sPkg (fencedE 17)) (0 * 4096 + 17) = true ∧
      spareFree (sPkg (fun p => fencedE 1025 (fencedE 17 p))) (0 * 4096 + 17) = false ∧
      columnFree (sPkg (fencedE 17)) 0 17 = true ∧
      columnFree ((sPkg (fencedE 17)).modTile 33 (fun t => { t with plane0 := { t.plane0 with state := 3 } })) 0 17 = false ∧
      columnFree { sPkg (fencedE 17) with launches := [{ launch0 with test := some 33, heldPlanes := [(33, 0)] }] } 0 17 = false ∧
      ((sPkg (fencedE 17)).pkg 0).powered = true ∧ ((sPkg (fun p => { fencedE 17 p with powered := false })).pkg 0).powered = false ∧
      (∀ d ∈ (sPkg (fencedE 17)).agenda, d.ev ≠ .fenceNotice 17 17) ∧
      (∃ d ∈ ({ sPkg (fencedE 17) with agenda := [{ ev := .fenceNotice 17 17 }] } : State).agenda, d.ev = .fenceNotice 17 17) := by
  decide +kernel

/-- The core of stack 2 is down, with beats and failed restarts. -/
def down2 (beats fails : Nat) (p : Package) : Package :=
  { p with health := nset p.health 2370 (7 * 2 ^ 56), smcOff := [2], beats := nset p.beats 2 beats, smcFails := nset p.smcFails 2 fails }

theorem witness_PlatformSteps_cores :
    (Instr.refreshTakeover 0 2).wf = true ∧ (Instr.smcRestart 0 2 true).wf = true ∧ (Instr.smcRestart 0 2 false).wf = true ∧
      (Instr.smcup 0 2).wf = true ∧ (Instr.refreshSplit 0x400).wf = true ∧ (s0.pkg 0).smcDown 2 = false ∧
      ((sPkg (down2 0 0)).pkg 0).smcDown 2 = true ∧ ngetD ((sPkg (down2 0 0)).pkg 0).beats 2 0 = 0 ∧
      ngetD ((sPkg (down2 0 2)).pkg 0).smcFails 2 0 = 2 ∧ 3 ≤ ngetD ((sPkg (down2 0 3)).pkg 0).smcFails 2 0 ∧
      16 ≤ ngetD ((sPkg (down2 16 0)).pkg 0).beats 2 0 ∧ ngetD ((sPkg (down2 15 0)).pkg 0).beats 2 0 < 16 ∧
      (s0.pkg 0).isFenced (2368 + 2) = false ∧
      7 ≤ ((s0.modVault 0x400 (fun v => { v with postponed := 7 })).vault 0x400).postponed ∧ (s0.vault 0x400).postponed = 0 := by
  decide +kernel

/-- Page 1 stands in stack 1, and its exchange with page 0 is under way or not. -/
def moveP (m : Bool) (p : Package) : Package :=
  { p with slice := nset p.slice 1 (putBits (p.sliceOf 1) 30 28 1), moving := if m then [(0, 1)] else [] }

theorem witness_PlatformSteps_moves :
    (Instr.pageMove 0 0 1).wf = true ∧ (Instr.pageMoveEnd 0 0 1).wf = true ∧
      (let s := sPkg (moveP false)
       (s.pkg 0).stackOf 0 ≠ (s.pkg 0).stackOf 1 ∧ (pagePart s 0 0).isSome = true ∧ pagePart s 0 0 = pagePart s 0 1 ∧
         pageFree s 0 0 = true ∧ pageFree s 0 1 = true) ∧
      ¬ ((s0.pkg 0).stackOf 0 ≠ (s0.pkg 0).stackOf 0) ∧ (0, 1) ∉ ((sPkg (moveP false)).pkg 0).moving ∧
      (0, 1) ∈ ((sPkg (moveP true)).pkg 0).moving ∧
      (sPkg (moveP true)).dpaAddr 0 (0 * 65536) ≠ (sPkg (moveP true)).dpaAddr 0 (1 * 65536) ∧
      pageDirty (settleSums (settleSums (sPkg (moveP false)) 0 0) 0 1) 0 0 = false ∧
      moveFenced (sPkg (moveP true)) 0 0 1 = false ∧ moveFenced ((sPkg (moveP true)).modVault 0x400 (fun v => { v with fenced := true })) 0 0 1 = true ∧
      (Instr.throttle 0 0 true).wf = true ∧ (Instr.thermtrip 0 114).wf = true ∧ (Instr.thermtrip 0 115).wf = true ∧
      (sPkg (fencedE 1088) |>.pkg 0).replaceCond 2 = true ∧ 2 ∉ (sPkg (fencedE 1088) |>.pkg 0).replaceOn ∧ (Instr.powerOn 0 0 0).wf = true ∧
      (Instr.powerOn 0 3 0).wf = true ∧ (Instr.powerLoss 0).wf = true ∧
      ((sPkg (fun p => { p with ready := true })).pkg 0).ready = true ∧ (s0.pkg 0).ready = false ∧ (s0.pkg 0).failed = false := by
  decide +kernel

/-- Page 0 has a dirty object whose first granule cannot be read; 64 records wait for the store. -/
def sDirty : State :=
  (sPkg (fun p => { moveP false p with bbWait := List.replicate 64 0 })).modVault 0x400 (fun v =>
    { v with objects := [(0, true)], bad := [(sPkg (moveP false)).dpaAddr 0 0 / 16] })

theorem witness_PlatformSteps_dirty :
    pageFree sDirty 0 0 = true ∧ sDirty.holdingVault 0 0 = 0x400 ∧ pageDirty (settleSums (settleSums sDirty 0 0) 0 1) 0 0 = true := by
  decide +kernel

/-- Package 0 has an active job 1 in partition 0, and stands after bring-up. -/
def job1 : Job := { num := 1, pkg := 0, part := 0, addr := 65536, nphase := 1, quota := 64, phaseva := 65536, groupva := 0, doneva := 0, streamva := 0, left := 1 }
def sJobs (n : Nat) : State := { sPkg (fun p => { p with ready := true, stage := 6 }) with jobs := List.replicate n job1 }

theorem witness_RegisterWriteSteps :
    (Instr.plimitWrite 0 0).wf = true ∧ (Instr.lseedWrite 0 1 0).wf = true ∧ (Instr.replaceClear 0).wf = true ∧
      ((sPkg (fencedE 1088)).pkg 0).spareOrVault = true ∧ (s0.pkg 0).spareOrVault = false ∧ (Instr.ptrootWrite 0 0 1).wf = true ∧
      (sJobs 1).busyPart 0 0 = true ∧ (sJobs 0).busyPart 0 0 = false ∧ (Instr.srseedWrite 0 0 0).wf = true ∧
      (Instr.txvalWrite 0 5).wf = true ∧ (s0.tile 0).ctxPlane < 2 ∧
      (∀ k ∈ ([0, 1, 31, 32, 33, 34] : List Nat), ((s0.modTile 0 (fun t => { t with txidx := k })).tile 0).txidx = k) ∧
      (Instr.scancelWrite 0 (1 * 2 ^ 64 + 1)).wf = true ∧ ownLevel { sJobs 1 with launches := [launch0] } 1 0 1 = true ∧
      ownLevel (sJobs 1) 1 0 1 = false ∧ (2 ^ 63 + 2 ^ 62 + 1) / 2 ^ 62 = 3 ∧
      (Instr.rangeEntryWrite 0 0 0 1).wf = true ∧ (Instr.routineEntryWrite 0 (0 * 4096 + 0x400 + 0) 0 (2 ^ 31)).wf = true ∧
      (Instr.routineEntryWrite 0 (0 * 4096 + 0x400 + 0) 1 (2 ^ 28)).wf = true ∧
      routineBusy (sJobs 1) 0 0 = true ∧ routineBusy (sJobs 0) 0 0 = false ∧ (2 ^ 31) % 2 ^ 28 = 0 ∧
      (∀ i < 15, stepOk (((sJobs 0).pkg 0).reg (routineAddr 0 (0 + i + 1))) = true) ∧
      (Instr.registerWrite 0 8 0).wf = true ∧ (∀ k < 5, ((s0.pkg 0).setReg 8 0).replaceCond k = true → k ∈ (s0.pkg 0).replaceOn) ∧
      ((s0.pkg 0).setReg 8 17).replaceCond 0 = true ∧
      (Instr.registerWrite 0 0x20008 7).wf = true ∧ (Instr.registerWrite 0 0x10000 (2 ^ 31)).wf = true ∧ cfgReg 0x20008 ≠ none ∧
      cfgReg 0x18 = none := by
  decide +kernel

/-- A command with operands a and b. -/
def cmd1 (a b c : Nat) : Cmd := { pkg := 0, tag := 7, a := a, b := b, c := c, d := 0, old := false }
/-- The package with a RESYNC in progress. -/
def sResync : State := { s0 with agenda := [{ ev := .resync (cmd1 0 0 0) }] }

theorem witness_CommandSteps :
    (cmd1 1 255 1).wf = true ∧ (∀ i ∈ [Instr.jobrun (cmd1 1 255 1), .cfgrd (cmd1 1 255 1), .reset (cmd1 1 255 1)], i.wf = true) ∧
      resyncDue s0 0 = false ∧ (s0.pkg 0).ready = false ∧ resyncDue sResync 0 = true ∧ ((sJobs 0).pkg 0).ready = true ∧
      resyncDue (sJobs 0) 0 = false ∧ partNamed ((sJobs 0).pkg 0) 1 = none ∧ partNamed ((sJobs 0).pkg 0) 255 = some 0 ∧
      16 ≤ ((sJobs 16).jobs.filter (fun j => !j.fin && decide (j.pkg = 0 ∧ j.part = 0))).length ∧
      ((sJobs 15).jobs.filter (fun j => !j.fin && decide (j.pkg = 0 ∧ j.part = 0))).length < 16 ∧
      levelCount (sJobs 1) 0 3 1 ≠ none ∧ levelCount (sJobs 1) 0 0 9 = none ∧ 8 ≤ (cmd1 8 0 0).a ∧
      (s0.pkg 0).partValid 1 = false ∧ (s0.pkg 0).partValid 0 = true ∧ (invSpan 65536 65536).isSome = true ∧
      cfgReg 0x18 = none ∧ cfgReg 8 = some .hlimits ∧ 2376 < (cmd1 0 2376 1).b + (cmd1 0 2376 1).c ∧
      (cmd1 0 2375 1).b + (cmd1 0 2375 1).c ≤ 2376 ∧ (cmd1 4096 0 0).a % 4096 = 0 ∧ (cmd1 1 0 0).a % 4096 ≠ 0 := by
  decide +kernel

/-- The adapter's rings of 16 entries at 0 and 4,096 of host memory, with one CFGRD of PLIMIT, or an OP that is none. -/
def sRing (op : Nat) : State :=
  let s := sPkg (fun p => { p with ready := true, compAddr := 4096 })
  { s with mem := memWrite [] (hostAddr 0 0) (leBytes 1 op ++ leBytes 7 (7 * 2 ^ 8) ++ leBytes 8 16 ++ leBytes 48 0) }

theorem witness_CommandSteps_doorbell :
    (Instr.doorbell 0 1).wf = true ∧ (s0.pkg 0).linkOpen = false ∧ ((sRing 7).pkg 0).linkOpen = true ∧ 1 < ((sRing 7).pkg 0).cmdSize ∧
      ((sRing 7).pkg 0).cmdSize ≤ 16 ∧ ((sRing 7).pkg 0).cmdHead ≠ 1 ∧
      (((sRing 7).pkg 0).cmdHead + 1) % ((sRing 7).pkg 0).cmdSize = 1 ∧
      (∀ op ∈ ([7, 99] : List Nat), (memRead (sRing op).mem (hostAddr 0 0) 64).take 1 = leBytes 1 op ∧
        ((memRead (sRing op).mem (hostAddr 0 0) 64).drop 1).take 1 = [0] ∧
        ((memRead (sRing op).mem (hostAddr 0 0) 64).drop 4).take 4 = [0, 0, 0, 0] ∧
        ((memRead (sRing op).mem (hostAddr 0 0) 64).drop 40).take 24 = List.replicate 24 0) ∧
      cmdStep 7 (cmd1 16 0 0) = some (.cfgrd (cmd1 16 0 0)) ∧ cmdStep 99 (cmd1 16 0 0) = none ∧
      (Instr.ringReinit 0 0 16 4096 4096).wf = true ∧ ringSize 16 = true ∧ ringSize 4096 = true ∧ ringSize 17 = false := by
  decide +kernel

/-- Package 0 with a job record at 65,536, which its page lets it read or not. -/
def sRecord (r : Bool) : State :=
  let s := (sJobs 0).modPkg 0 (fun p => { p with tlb := (List.range 4).map (fun d => (d, [{ tr0 with r := r }])) })
  { s with mem := memWrite [] (s.dpaAddr 0 0) (leBytes 2 5 ++ leBytes 1 255 ++ leBytes 1 1 ++ leBytes 60 0) }

/-- Whether a read job record is one of the job 5, in a state in which no job has that number. -/
abbrev jobRecordOk (b : List Byte) (u : State) : Prop :=
  leNat (b.take 2) = 5 ∧ leNat ((b.drop 2).take 1) = 255 ∧ leNat ((b.drop 3).take 1) = 1 ∧ leNat ((b.drop 4).take 2) ≤ 992 ∧
    leNat ((b.drop 6).take 2) = 0 ∧ leNat ((b.drop 40).take 24) = 0 ∧ leNat ((b.drop 32).take 8) % 65536 = 0 ∧
    (u.jobAt (leNat (b.take 2)) 0).isNone = true

theorem job_read : okWith (readByF (fun s va => placeDie s 0 ((s.pkg 0).homeDie 0) 0 (schedRank 0) true false va) (pieces 65536 64)
    (sRecord true)) (fun b u => decide (jobRecordOk b u)) = true := by decide +kernel

theorem job_refused : isOk (readByF (fun s va => placeDie s 0 ((s.pkg 0).homeDie 0) 0 (schedRank 0) true false va) (pieces 65536 64)
    (sRecord false)) = false := by decide +kernel

theorem witness_CommandSteps_jobrun :
    Config.memError = (fun _ _ => false) →
      (∃ u, jobOf (sRecord false) 0 0 65536 255 = .error u) ∧
        (∃ j u, jobOf (sRecord true) 0 0 65536 255 = .ok (j, u) ∧ ∃ l w, readGroups u 0 0 j.groupva = (l, w)) := by
  intro h
  constructor
  · have e := job_refused
    unfold jobOf schedRead
    rw [readBy_free h]
    generalize readByF (fun s va => placeDie s 0 ((s.pkg 0).homeDie 0) 0 (schedRank 0) true false va) (pieces 65536 64)
      (sRecord false) = x at e ⊢
    cases x with
    | error y => exact ⟨_, rfl⟩
    | ok y => cases e
  · obtain ⟨b, u, e, f⟩ := okWith_spec job_read
    obtain ⟨h2, h3, h4, h5, h6, h7, h8, h9⟩ := of_decide_eq_true f
    rw [h2] at h9
    have hs : schedRead (sRecord true) 0 0 65536 64 = .ok (b, u) := by unfold schedRead; rw [readBy_free h]; exact e
    unfold jobOf
    rw [hs]
    simp [h2, h3, h4, h5, h6, h7, h8, Option.isNone_iff_eq_none.mp h9]
    exact ⟨_, _, rfl⟩

/-- A TLBINV command of partition 0 and 64 KiB at 0, under the number d of the requests it waits for, and the state in which it waits
for request 1, which is out or has ended. -/
def cmdInv (d : Nat) : Cmd := { pkg := 0, tag := 7, a := 0, b := 0, c := 65536, d := d, old := false }
def sInvWaits (out : Bool) : State :=
  (s0.modPkg 0 (fun p => { p with invWait := [(9, [1])] })).modTile 0 (fun t =>
    { t with reqs := if out then [{ req := req0 .get 16 [] false, sent := true }] else [] })

theorem witness_CommandSteps_tlbinv :
    translatedIn s0 0 0 0 65535 = [] ∧ nget (s0.pkg 0).invWait 0 = none ∧ invSpan (cmdInv 0).b (cmdInv 0).c = some (0, 65535) ∧
      (cmdInv 9).wf = true ∧ (s0.pkg 0).partValid (cmdInv 0).a = true ∧
      translatedIn (s0.modTile 0 (fun t => { t with reqs := [{ req := req0 .get 16 [] false, sent := true }] })) 0 0 0 131071 = [1] ∧
      (∀ out : Bool, nget ((sInvWaits out).pkg 0).invWait (cmdInv 9).d = some [1]) ∧
      (∀ i ∈ [1], ∀ e ∈ (sInvWaits false).tiles, ∀ q ∈ e.2.reqs, q.req.id ≠ i) ∧
      (∃ i ∈ [1], ∃ e ∈ (sInvWaits true).tiles, ∃ q ∈ e.2.reqs, q.req.id = i) := by
  decide +kernel

theorem witness_CommandSteps_units :
    (s0.pkg 0).isFenced (cmd1 5 0 0).a = false ∧ (cmd1 5 0 0).a < 1024 ∧ (s0.pkg 0).isFenced (cmd1 1088 0 0).a = false ∧
      ((cmd1 1088 0 0).a < 2376) ∧ (cmd1 2376 0 0).a = 2376 ∧ (cmd1 0 0 4097).c = 4097 ∧ (cmd1 0 0 1).c = 1 := by
  decide +kernel

/-! ## The last witnesses -/

theorem witness_DecodeOfEncode :
    (Instr.addi { g := 0, rd := 5, ra := 5, la := false, imm := { lent := false, raw := 1 } }).wf = true ∧
      (Instr.addi { g := 0, rd := 5, ra := 5, la := false, imm := { lent := false, raw := 1 } }).cls ≠ none ∧
      (Instr.vfma { g := 0, ty := 0, vd := 9, va := 8, vb := 3, la := false, lb := true, lv := 0x9B }).cls ≠ none ∧
      (Instr.idleHeader false 99).cls ≠ none := by
  decide +kernel

theorem witness_OtherWordsAreRefused :
    (∀ k ∈ ([0x2F, 0x3E] : List Nat), bitsOf (k * 2 ^ 21) 30 2 = 0 ∧ bitsOf (k * 2 ^ 21) 21 6 = k) ∧
      bitsOf (0x3F * 2 ^ 21 + 8) 30 2 = 0 ∧ bitsOf (0x3F * 2 ^ 21 + 8) 21 6 = 0x3F ∧ 8 ≤ bitsOf (0x3F * 2 ^ 21 + 8) 0 4 ∧
      (∀ k ∈ ([0x16, 0x29, 0x2F, 0x33, 0x37, 0x3D] : List Nat),
        bitsOf (2 ^ 30 + k * 2 ^ 20) 30 2 = 1 ∧ bitsOf (2 ^ 30 + k * 2 ^ 20) 20 7 = k) ∧
      (∀ k ∈ ([0x08, 0x0F, 0x14, 0x17, 0x27, 0x38] : List Nat),
        bitsOf (2 ^ 31 + k * 2 ^ 21) 30 2 = 2 ∧ bitsOf (2 ^ 31 + k * 2 ^ 21) 21 6 = k) ∧
      decodeWord 0x00030880 none = .ok (.add { g := 0, rd := 3, ra := 1, rb := 2, la := false, lb := false }) := by
  decide +kernel

/-- The state after reset has its memory in the canonical form, and so has one with a byte stored; a listed zero breaks it. -/
theorem witness_StepsKeepTheMemoryForm :
    State.reset.Safe ∧ Memory.wf (memWrite [] 5 [1, 0, 2]) = true ∧ Memory.wf [(5, 0)] = false ∧
      Memory.wf [(6, 1), (5, 1)] = false := by
  refine ⟨?_, ?_⟩
  · show Memory.wf [] = true
    rfl
  · decide +kernel

/-! ## Ill-formed terms are refused -/

def imm (n : Nat) : Imm := { lent := false, raw := n }

/-- One term for each range of the scalar layouts. -/
theorem wf_refuses_scalar :
    ∀ i ∈ [Instr.add { g := 8, rd := 0, ra := 0, rb := 0, la := false, lb := false },
      .add { g := 0, rd := 32, ra := 0, rb := 0, la := false, lb := false }, .clz { g := 0, rd := 0, ra := 32, la := false },
      .sel { g := 0, rd := 0, ra := 0, rb := 0, la := false, lb := false, pa := 8 }, .bri { g := 0, ra := 32, la := false },
      .tlbinv { g := 0, ra := 0, rb := 32, la := false, lb := false }, .exit { g := 8 },
      .addi { g := 0, rd := 0, ra := 0, la := false, imm := imm 1024 },
      .addi { g := 0, rd := 0, ra := 0, la := false, imm := { lent := true, raw := 2 ^ 19 } }, .limm { g := 0, rd := 32, imm := imm 0 },
      .yield { g := 0, imm := imm 0 }, .trap { g := 0, imm := imm 1024 }, .shli { g := 0, rd := 0, ra := 0, la := false, imm := imm 64 },
      .limms { g := 0, rd := 0, ra := 0, la := false, imm := { lent := true, raw := 65536 } },
      .cmpEq { g := 0, rd := 3, ra := 0, rb := 0, la := false, lb := false }, .cmpiLe { g := 0, rd := 0, ra := 0, la := false, imm := imm 0 },
      .pand { g := 0, rd := 1, ra := 0, rb := 0 }, .por { g := 0, rd := 2, ra := 8, rb := 0 }, .pmov { g := 0, rd := 8, ra := 0 },
      .ixset { g := 0, rd := 0, imm := imm 128 }, .ixadd { g := 0, rd := 4, imm := imm 0 }, .ixget { g := 0, rd := 0, ra := 4 },
      .br { g := 0, imm := imm (2 ^ 21) }, .loop { g := 0, rd := 0, imm := imm 0 }, .arrive { g := 0, n := 4 },
      .waitf { g := 0, fn := 64 }, .csrr { g := 0, rd := 0, csr := 1024 }, .csrw { g := 0, ra := 32, la := false, csr := 0 },
      .lendHeader { y := false, hs := false, hv := true, hm := false, ls := 1, lv := 0, lm := 0 }, .idleHeader false (2 ^ 25)],
      i.wf = false := by
  decide +kernel

/-- One term for each range of the vector layouts. -/
theorem wf_refuses_vector :
    ∀ i ∈ [Instr.vadd { g := 0, ty := 6, vd := 0, va := 0, vb := 0, la := false, lb := false, lv := 0 },
      .vand { g := 0, ty := 8, vd := 0, va := 0, vb := 0, la := false, lb := false, lv := 0 },
      .vand { g := 0, ty := 0, vd := 0, va := 0, vb := 0, la := false, lb := false, lv := 256 },
      .vminn { g := 0, ty := 0, vd := 0, va := 0, vb := 0, la := false, lb := false, lv := 0 },
      .vcmpEq { g := 0, ty := 0, vd := 3, va := 0, vb := 0, la := false, lb := false, lv := 0 },
      .vcmpUn { g := 0, ty := 3, vd := 2, va := 0, vb := 0, la := false, lb := false, lv := 0 },
      .vcmpLtn { g := 0, ty := 0, vd := 2, va := 0, vb := 0, la := false, lb := false, lv := 0 },
      .vabs { g := 0, ty := 0, vd := 0, va := 0, la := false, lv := 4 }, .vsqrt { g := 0, ty := 3, vd := 0, va := 0, la := false, lv := 0 },
      .vcvt { g := 0, ty := 0, vd := 0, va := 0, dt := 8, sat := false, alt := false, la := false, lv := 0 },
      .vbcast { g := 0, ty := 0, vd := 0, xa := 0, lv := 8 }, .vidx { g := 0, ty := 0, vd := 0, xa := 0, lv := 0 },
      .vins { g := 0, ty := 0, vd := 0, xa := 0, xb := 0, lv := 4 }, .vext { g := 0, ty := 0, xd := 0, va := 0, xb := 0, la := false, lv := 32 },
      .vrot { g := 0, ty := 0, vd := 0, va := 0, xb := 0, la := false, lv := 4 },
      .vdot4 { g := 0, ty := 4, vd := 0, va := 0, vb := 0, la := false, lb := false, lv := 0 },
      .vclass { g := 0, ty := 3, vd := 0, va := 0, la := false, lv := 0 }, .vlimm { g := 0, ty := 5, vd := 0, imm := 128, lv := 0 },
      .vlimm { g := 0, ty := 0, vd := 0, imm := 1024, lv := 0 }],
      i.wf = false := by
  decide +kernel

/-- One term for each range of the memory, message, vault and matrix layouts. -/
theorem wf_refuses_memory :
    ∀ i ∈ [Instr.ld { g := 0, rd := 0, xa := 0, w := 7, off := imm 0 }, .st { g := 0, rd := 0, xa := 0, w := 4, off := imm 0 },
      .ld { g := 0, rd := 0, xa := 0, w := 0, off := imm 256 }, .vld { g := 0, vd := 32, xa := 0, off := imm 0 },
      .vst { g := 0, vd := 64, xa := 0, off := { lent := true, raw := 0 } }, .vgath { g := 0, vd := 1, xa := 0, off := imm 0 },
      .vlds { g := 0, vd := 0, xa := 0, off := imm 2048 },
      .copy { g := 0, rd := 1, xa := 0, fn := 0, off := imm 0 }, .copym { g := 0, rd := 0, xa := 0, fn := 0, off := imm 32 },
      .copyq { g := 0, rd := 3, xa := 0, fn := 3, off := imm 0 }, .send { g := 0, rd := 0, xa := 0, xl := 0, fn := 0, n := 1 },
      .sendr { g := 0, rd := 0, xa := 0, xl := 0, fn := 0, n := 4 }, .recv { g := 0, rd := 0, xa := 0, xl := 0, fn := 64, n := 0 },
      .flset { g := 0, fn := 64 }, .probe { g := 0, rd := 32, fn := 0 }, .unlease { g := 0, rd := 32 },
      .mstat { g := 0, rd := 0, h := false, fn := 64 }, .atom { g := 0, rd := 0, xa := 0, op := 16, w := false, fn := 0 },
      .fship { g := 0, rd := 0, xa := 0, fn := 0, r := 64 }, .query { g := 0, xa := 32, fn := 0 },
      .tdset { g := 0, n := 16, xa := 0, er := false, ec := false, off := imm 0 },
      .mma { g := 0, xc := 0, acc := 4, p := 0, q := 0, fn := 0 }, .mzero { g := 0, acc := 4, mode := false },
      .mldacc { g := 0, xc := 0, acc := 0, t := 0, sat := true, fn := 0 }, .mstacc { g := 0, xc := 0, acc := 0, t := 16, sat := true, fn := 0 },
      .msend { g := 0, xt := 0, acc := 0, n := 0, ty := 8, sat := false, fn := 0 }, .fenceP { g := 0, tom := 16, frm := 0 },
      .fenceS { g := 0, scope := 5 }],
      i.wf = false := by
  decide +kernel

def badMsg : Msg := { (default : Msg) with tag := 65535 }
def badReq : Req := { (default : Req) with part := 8 }

/-- One term for each range of the packets of the steps. -/
theorem wf_refuses_steps :
    ∀ i ∈ [Instr.hbmiss (2 ^ 24), .taskEnd 0 2, .messageArrival badMsg, .abandon { badMsg with tag := 0, proto := 3 },
      .sendAcknowledgement { (default : Ack) with status := 8 }, .pullRequest { (default : Pull) with want := 16777217 },
      .releaseFlit { vault := 0, rank := 0, plane := 0, number := 256 }, .conflictNotice 0 0 256, .barrierPhaseComplete 0 4,
      .vaultGet badReq, .vaultReply { (default : Reply) with status := 8 }, .hopRequest { home := 2 ^ 24, qid := 0, vault := 0, node := 0, ids := [] },
      .hostAtomic { pkg := 0, part := 0, va := 4, op := 0, w := 8, a := 0, b := 0 },
      .hostAtomic { pkg := 0, part := 0, va := 0, op := 1, w := 8, a := 0, b := 0 }, .copyStart 0 0 4, .mmaStep 0 0 3,
      .placementDecision 0 4, .leaseServe 4096, .leaseRevocation 0 0, .slotStart 0 64, .crcReplay 0 1024, .refreshTakeover 0 8,
      .pageMove 0 (2 ^ 23) 0, .fieldTest 0 2376 true, .powerOn 0 6 0, .jobrun { (default : Cmd) with tag := 65536 },
      .slottedSet 0 (2 ^ 128), .rangeEntryWrite 0 8 0 0, .ptrootWrite 0 8 0, .lseedWrite 0 4 0, .srseedWrite 0 2 0, .txvalWrite 0 (2 ^ 128),
      .laneManagerAnswer { rank := 0, plane := 0, fn := 64, id := 0, slot := true, what := 0 }],
      i.wf = false := by
  decide +kernel

/-! ## Words of the spec, a few for each family -/

/-- Tables 9.2, 9.10, 9.13: scalar words. -/
theorem test_words_scalar :
    decodeWords [0x00030880] = .ok (.add { g := 0, rd := 3, ra := 1, rb := 2, la := false, lb := false }, []) ∧
      decodeWords [0x03C90145] = .ok (.limm { g := 0, rd := 9, imm := imm 0x145 }, []) ∧
      decodeWords [0x03E94891] = .ok (.limms { g := 0, rd := 9, ra := 9, la := false, imm := imm 0x91 }, []) ∧
      decodeWords [0x068503FF] = .ok (.loop { g := 0, rd := 5, imm := imm 0x3FF }, []) ∧
      decodeWords [0x04C23007] = .ok (.cmpiLt { g := 0, rd := 2, ra := 6, la := false, imm := imm 7 }, []) ∧
      decodeWords [0x07800005] = .ok (.trap { g := 0, imm := imm 5 }, []) ∧ decodeWords [0x07E00000] = .ok (.tret { g := 0 }, []) ∧
      decodeWords [0x07E00005] = .ok (.fenceall { g := 0 }, []) ∧ decodeWords [0x02C003E8] = .ok (.yield { g := 0, imm := imm 1000 }, []) := by
  decide +kernel

/-- Table 10.8 and spec/13_prog_comm.md: vector words. -/
theorem test_words_vector :
    decodeWords [0x42262280] = .ok (.vbcast { g := 0, ty := 3, vd := 2, xa := 5, lv := 0 }, []) ∧
      decodeWords [0x422A1680] = .ok (.vbcast { g := 0, ty := 5, vd := 1, xa := 13, lv := 0 }, []) ∧
      decodeWords [0xC8004000, 0x4000420C] = .ok (.vadd { g := 0, ty := 0, vd := 4, va := 4, vb := 3, la := false, lb := false, lv := 0x40 }, []) := by
  decide +kernel

/-- spec/11_isa_memory.md: memory, message and request words. -/
theorem test_words_memory :
    decodeWords [0x80090308] = .ok (.ld { g := 0, rd := 9, xa := 0, w := 3, off := imm 8 }, []) ∧
      decodeWords [0x80252300] = .ok (.st { g := 0, rd := 5, xa := 4, w := 3, off := imm 0 }, []) ∧
      decodeWords [0x86000081] = .ok (.fenceP { g := 0, tom := 8, frm := 1 }, []) ∧ decodeWords [0x86200002] = .ok (.fenceS { g := 0, scope := 2 }, []) ∧
      decodeWords [0x830621C1] = .ok (.send { g := 0, rd := 6, xa := 4, xl := 7, fn := 1, n := 0 }, []) ∧
      decodeWords [0x83EA0001] = .ok (.mstat { g := 0, rd := 10, h := false, fn := 1 }, []) ∧
      decodeWords [0x84494002] = .ok (.atom { g := 0, rd := 9, xa := 8, op := 0, w := false, fn := 2 }, []) ∧
      decodeWords [0x9B6BC401] = .ok (.recv { g := 3, rd := 11, xa := 24, xl := 16, fn := 1, n := 0 }, []) ∧
      decodeWords [0x842539C2] = .ok (.put { g := 0, rd := 5, xa := 7, xl := 7, fn := 2, n := 0 }, []) ∧
      decodeWords [0x840539C2] = .ok (.get { g := 0, rd := 5, xa := 7, xl := 7, fn := 2, n := 0 }, []) := by
  decide +kernel

/-- Table 12.7 and spec/12_isa_matrix.md: matrix words. -/
theorem test_words_matrix :
    decodeWords [0x85004000] = .ok (.tdset { g := 0, n := 0, xa := 8, er := false, ec := false, off := imm 0 }, []) ∧
      decodeWords [0x85014201] = .ok (.tdset { g := 0, n := 1, xa := 8, er := false, ec := true, off := imm 1 }, []) ∧
      decodeWords [0x852748C5] = .ok (.mma { g := 0, xc := 7, acc := 1, p := 2, q := 3, fn := 5 }, []) ∧
      decodeWords [0x85406000] = .ok (.mzero { g := 0, acc := 1, mode := true }, []) ∧
      decodeWords [0x85800802] = .ok (.mstacc { g := 0, xc := 0, acc := 0, t := 2, sat := false, fn := 2 }, []) ∧
      decodeWords [0xD1900000] ≠ .ok (.exit { g := 0 }, []) := by
  decide +kernel

/-! ## One step each -/

/-- The state after a word, and the registers it leaves. -/
def after (w : Nat) (s : State) : State :=
  match decodeWords [w] with
  | .ok (i, _) => (match exec i s with | .next t => t | _ => State.reset)
  | .error _ => State.reset
def xOf (s : State) (n : Nat) : Nat := (s.regs.bank.x.getD n 0).toNat
def pOf (s : State) (n : Nat) : Bool := s.regs.bank.p.getD n false

/-- Tile 0 with x1 = a and x2 = b. -/
def sAB (a b : Nat) : State :=
  on { regs := { regs0 with bank := { regs0.bank with x := (regs0.bank.x.setIfInBounds 1 (BitVec.ofNat 64 a)).setIfInBounds 2 (BitVec.ofNat 64 b) } } }

/-- Word of an SR instruction x3 := x1 op x2. -/
def sr (op : Nat) : Nat := op * 2 ^ 21 + 0x00030880

/-- Table 9.2: sums wrap, and a borrow does. -/
theorem test_add_sub : xOf (after (sr 0) (sAB (2 ^ 64 - 1) 2)) 3 = 1 ∧ xOf (after (sr 1) (sAB 0 1)) 3 = 2 ^ 64 - 1 := by decide +kernel
/-- Table 9.2: only b[5:0] counts, and SRA fills with the sign bit. -/
theorem test_shifts : xOf (after (sr 5) (sAB 1 65)) 3 = 2 ∧ xOf (after (sr 6) (sAB (2 ^ 63) 63)) 3 = 1 ∧
    xOf (after (sr 7) (sAB (2 ^ 63) 63)) 3 = 2 ^ 64 - 1 := by decide +kernel
/-- Table 9.2: (-1) * (-1) = 1 has the high half 0 signed and 2^64 - 2 unsigned. -/
theorem test_mul : xOf (after (sr 8) (sAB (2 ^ 64 - 1) (2 ^ 64 - 1))) 3 = 1 ∧ xOf (after (sr 9) (sAB (2 ^ 64 - 1) (2 ^ 64 - 1))) 3 = 0 ∧
    xOf (after (sr 10) (sAB (2 ^ 64 - 1) (2 ^ 64 - 1))) 3 = 2 ^ 64 - 2 := by decide +kernel
/-- R60: division by zero gives all ones and the dividend; the most negative value by -1 gives itself and 0. -/
theorem test_div_corners : xOf (after (sr 11) (sAB 7 0)) 3 = 2 ^ 64 - 1 ∧ xOf (after (sr 13) (sAB 7 0)) 3 = 7 ∧
    xOf (after (sr 14) (sAB 7 0)) 3 = 7 ∧ xOf (after (sr 11) (sAB (2 ^ 63) (2 ^ 64 - 1))) 3 = 2 ^ 63 ∧
    xOf (after (sr 13) (sAB (2 ^ 63) (2 ^ 64 - 1))) 3 = 0 := by decide +kernel
/-- Table 9.2: -7 / 2 = -3, and the remainder -1 takes the dividend's sign. -/
theorem test_div_signs : xOf (after (sr 11) (sAB (2 ^ 64 - 7) 2)) 3 = 2 ^ 64 - 3 ∧ xOf (after (sr 13) (sAB (2 ^ 64 - 7) 2)) 3 = 2 ^ 64 - 1 ∧
    xOf (after (sr 12) (sAB (2 ^ 64 - 7) 2)) 3 = 2 ^ 63 - 4 := by decide +kernel
/-- Table 9.2: signed and unsigned order. -/
theorem test_min_max : xOf (after (sr 15) (sAB (2 ^ 64 - 1) 1)) 3 = 2 ^ 64 - 1 ∧ xOf (after (sr 17) (sAB (2 ^ 64 - 1) 1)) 3 = 1 := by decide +kernel
/-- Table 9.2: CLZ of 0 is 64, and POPC of all ones is 64. -/
theorem test_counts : xOf (after (0x13 * 2 ^ 21 + 0x00030800) (sAB 0 0)) 3 = 64 ∧ xOf (after (0x14 * 2 ^ 21 + 0x00030800) (sAB (2 ^ 64 - 1) 0)) 3 = 64 := by
  decide +kernel
/-- R179: a write of x0 is discarded. -/
theorem test_x0 : xOf (after 0x00000880 (sAB 1 2)) 0 = 0 := by decide +kernel
/-- R182: CMP.LT p2 of -1 and 1, and of 1 and -1; p3 is the complement. -/
theorem test_cmp : pOf (after (0x21 * 2 ^ 21 + 0x00020880) (sAB (2 ^ 64 - 1) 1)) 2 = true ∧
    pOf (after (0x21 * 2 ^ 21 + 0x00020880) (sAB (2 ^ 64 - 1) 1)) 3 = false ∧
    pOf (after (0x22 * 2 ^ 21 + 0x00020880) (sAB (2 ^ 64 - 1) 1)) 2 = false := by decide +kernel
/-- R184: 127 + 1 gives -128, and IXGET extends the sign. -/
theorem test_index : ((after (0x2D * 2 ^ 21 + 1) (after (0x2C * 2 ^ 21 + 127) s0)).regs.bank.ix.getD 0 0).toNat = 128 ∧
    xOf (after (0x2E * 2 ^ 21 + 3 * 2 ^ 16) (after (0x2C * 2 ^ 21 + 0x3FF) s0)) 3 = 2 ^ 64 - 1 := by decide +kernel
/-- R186: LOOP x1 with a count of 1 falls through; with 0 it wraps and branches. -/
theorem test_loop : (after (0x34 * 2 ^ 21 + 2 ^ 16) (sAB 1 0)).bundle.jump = none ∧ xOf (after (0x34 * 2 ^ 21 + 2 ^ 16) (sAB 0 0)) 1 = 2 ^ 64 - 1 ∧
    (after (0x34 * 2 ^ 21 + 2 ^ 16) (sAB 0 0)).bundle.jump = some 0 := by decide +kernel
/-- R181: LIMMS shifts by 16; the constant of Table 9.13. -/
theorem test_limms : xOf (after (0x03E00000 + 3 * 2 ^ 16 + 2 ^ 11 + 0x91) (sAB 0x2545F491 0)) 3 = 0x2545F4910091 := by decide +kernel
/-- R162: a word whose guard p2 is false has no effect. -/
theorem test_guard : xOf (after (2 * 2 ^ 27 + 0x00030880) (sAB 5 6)) 3 = 0 := by decide +kernel

/-- Lane j of v register n, in elements of w bytes. -/
def lane (s : State) (n w j : Nat) : Nat := ((s.regs.v.getD n 0).toNat / 2 ^ (8 * w * j)) % 2 ^ (8 * w)
/-- Tile 0 with v1 = a, v2 = b, and q2 covering the lanes of m bytes. -/
def sV (a b : Nat) (q : Nat) : State :=
  on { regs := { regs0 with v := (regs0.v.setIfInBounds 1 (BitVec.ofNat 1024 a)).setIfInBounds 2 (BitVec.ofNat 1024 b),
                            q := regs0.q.setIfInBounds 2 (BitVec.ofNat 128 q) } }
/-- Word of a vector instruction v3 := v1 op v2 of a type. -/
def vr (op ty : Nat) : Nat := 2 ^ 30 + op * 2 ^ 20 + ty * 2 ^ 17 + 3 * 2 ^ 12 + 2 ^ 7 + 2 * 2 ^ 2

/-- spec/10_isa_vector.md, "an edge mask and a masked add": 1.0 + 0.5 is 1.5, and no flag is raised. -/
theorem test_vadd : lane (after (vr 0 0) (sV 0x3F800000 0x3F000000 0)) 3 4 0 = 0x3FC00000 ∧
    (after (vr 0 0) (sV 0x3F800000 0x3F000000 0)).regs.fflags = 0 := by decide +kernel
/-- R59: overflow under RNE gives infinity, with OF and NX. -/
theorem test_vadd_overflow : lane (after (vr 0 0) (sV 0x7F7FFFFF 0x7F7FFFFF 0)) 3 4 0 = 0x7F800000 ∧
    (after (vr 0 0) (sV 0x7F7FFFFF 0x7F7FFFFF 0)).regs.fflags = 5#6 := by decide +kernel
/-- R59: infinity less infinity is the canonical NaN, with NV. -/
theorem test_vsub_invalid : lane (after (vr 1 0) (sV 0x7F800000 0x7F800000 0)) 3 4 0 = 0x7FC00000 ∧
    (after (vr 1 0) (sV 0x7F800000 0x7F800000 0)).regs.fflags = 16#6 := by decide +kernel
/-- Integer lanes wrap: i8 127 + 1. -/
theorem test_vadd_i8 : lane (after (vr 0 5) (sV 0x7F 1 0)) 3 1 0 = 0x80 := by decide +kernel
/-- spec/10_isa_vector.md, "maxima, zeros and NaN". -/
theorem test_vredmax :
    let v := 0x80000000 + 0x7FC00000 * 2 ^ 64 + 0xC0A00000 * 2 ^ 96 + ((List.range 28).map (fun k => 0xFF800000 * 2 ^ (32 * (k + 4)))).sum
    lane (after (2 ^ 30 + 0x31 * 2 ^ 20 + 3 * 2 ^ 12 + 2 ^ 7) (sV v 0 0)) 3 4 0 = 0 := by decide +kernel
/-- spec/10_isa_vector.md, VCVT.e4m3.f32.sat of 1.0, 500.0, infinity and NaN: 0x38, 0x7E, 0x7E and 0x7F, with SV and NX. -/
theorem test_vcvt :
    let t := after (2 ^ 30 + 0x20 * 2 ^ 20 + 3 * 2 ^ 12 + 2 ^ 7 + 26 * 4) (sV (0x3F800000 + 0x43FA0000 * 2 ^ 32 + 0x7F800000 * 2 ^ 64 + 0x7FC00000 * 2 ^ 96) 0 0)
    lane t 3 4 0 = 0x7F7E7E38 ∧ lane t 3 4 1 = 0 ∧ t.regs.fflags = 33#6 := by decide +kernel
/-- R216: VLIMM.bf16 of 257 writes 256 and sets NX. -/
theorem test_vlimm :
    let t := after (2 ^ 30 + 0x3C * 2 ^ 20 + 2 ^ 17 + 3 * 2 ^ 12 + 257 * 4) s0
    lane t 3 2 0 = 0x4380 ∧ t.regs.fflags = 1#6 := by decide +kernel
/-- R64: 2^x of the integer 3 is 8 exactly. -/
theorem test_vexp2 : lane (after (2 ^ 30 + 0x0F * 2 ^ 20 + 3 * 2 ^ 12 + 2 ^ 7) (sV 0x40400000 0 0)) 3 4 0 = 0x41000000 := by decide +kernel
/-- R59: 1 / -0 is minus infinity with DZ. -/
theorem test_vdiv : lane (after (vr 0x0B 0) (sV 0x3F800000 0x80000000 0)) 3 4 0 = 0xFF800000 ∧
    (after (vr 0x0B 0) (sV 0x3F800000 0x80000000 0)).regs.fflags &&& 8 = 8 := by decide +kernel

/-- R295, R296, Table 19.9: the monitor returns from MONCALL 2, whose record stands at 64. -/
def sLog : State :=
  let g : Regs := { tslen := 4096, tillsz := 0, myrank := 5, plen := 64, bank := { x := (Vector.replicate 32 0).setIfInBounds 1 64 } }
  let s := on { state := 4, regs := g } { monitor := true, mtcause := 0x11, mtinfo := 2, mtpc := 4 }
  { s with mem := [(tsAddr 0 64, 0xAB), (tsAddr 0 95, 0xCD)] }
/-- The SEQ, CODE, UNIT and DATA of the three records of a log: byte 0 of the first sixteen, byte 15 of the second. -/
theorem test_userlog (h : Config.storeBusy = fun _ => true) :
    let p := (userLog sLog 0 64).pkg 0
    p.bbSeq = 3 ∧ bitsHL (ngetD p.bb 0 0).toNat 191 0 = 0x0030 * 2 ^ 144 + 5 * 2 ^ 120 + 2 ∧
    bitsHL (ngetD p.bb 1 0).toNat 191 0 = 2 ^ 160 + 0x0031 * 2 ^ 144 + 2 ^ 136 + 0xAB ∧
    bitsHL (ngetD p.bb 2 0).toNat 191 0 = 2 * 2 ^ 160 + 0x0031 * 2 ^ 144 + 2 * 2 ^ 136 + 0xCD * 2 ^ 120 := by
  simp only [userLog, bbPut, h]
  decide +kernel

/-- R251, R297: the engine record of a COPYM with its follow-on and of an MZERO says what they are: the word, the x values, the
channel, the flag and the block. -/
theorem test_engine_record :
    let m : MMm := { g := 0, xc := 4, acc := 1, p := 2, q := 3, fn := 9 }
    let f : MC := { g := 0, rd := 5, xa := 6, fn := 8, off := default }
    let c : CopyCmd := { id := 0, kind := 3, flag := 8, blk := 77, follow := some (m, 11), word := (Instr.copym f).word, xs := [64, 12, 11] }
    let z : Mx := { id := 0, op := .mzero { g := 0, acc := 2, mode := true }, xv := 0 }
    unstartedOfEntries {} ([Unstarted.copy 2 c, Unstarted.matrix z].flatMap engineEntries) = [.copy 2 c, .matrix z] := by
  decide +kernel

end Sys2Proof.Tests
end

section
/-! SUPPORT. Numbers by their bits and bytes (R5, R6): what a field of a number of 64 bits reads as, and the little-endian bytes of a
number and back. -/

namespace Sys2Proof.Machine

/-! ## Fields of a word -/

/-- A field of a number's word is a field of the number. -/
theorem extractLsb'_ofNat (x i w : Nat) (h : i + w ≤ 64) :
    (BitVec.ofNat 64 x).extractLsb' i w = BitVec.ofNat w (x / 2 ^ i) := by
  apply BitVec.eq_of_getLsbD_eq
  intro k hk
  rw [BitVec.getLsbD_extractLsb', BitVec.getLsbD_ofNat, BitVec.getLsbD_ofNat, Nat.testBit_div_two_pow]
  simp [hk, show i + k < 64 by omega, Nat.add_comm]

/-- A bit of a number's word, as a remainder of the number. -/
theorem getLsbD_ofNat_div (x i : Nat) (h : i < 64) : (BitVec.ofNat 64 x).getLsbD i = decide (x / 2 ^ i % 2 = 1) := by
  rw [BitVec.getLsbD_ofNat, Nat.testBit_eq_decide_div_mod_eq]
  simp [h]

/-- A field of a number's word, where the number's digits there are known. -/
theorem extractLsb'_ofNat_eq {x i w y : Nat} (h : i + w ≤ 64) (hx : x / 2 ^ i % 2 ^ w = y % 2 ^ w) :
    (BitVec.ofNat 64 x).extractLsb' i w = BitVec.ofNat w y := by
  rw [extractLsb'_ofNat x i w h]
  exact BitVec.eq_of_toNat_eq (by simpa using hx)

/-- A field of a number's word that is zero. -/
theorem extractLsb'_ofNat_zero {x i w : Nat} (h : i + w ≤ 64) (hx : x / 2 ^ i % 2 ^ w = 0) :
    (BitVec.ofNat 64 x).extractLsb' i w = 0 :=
  extractLsb'_ofNat_eq (y := 0) h (by simpa using hx)

/-- The bits [hi:lo] of a number, put back in their place, keep those bits and clear the others. -/
theorem testBit_bitsHL_mul (x hi lo n : Nat) (h : lo ≤ hi) :
    (bitsHL x hi lo * 2 ^ lo).testBit n = (decide (lo ≤ n ∧ n ≤ hi) && x.testBit n) := by
  rw [bitsHL, Nat.mul_comm, Nat.testBit_two_pow_mul, Nat.testBit_mod_two_pow, Nat.testBit_div_two_pow]
  by_cases hl : lo ≤ n
  · rw [show n - lo + lo = n by omega]
    by_cases hn : n ≤ hi
    · simp [hl, hn, show n - lo < hi + 1 - lo by omega]
    · simp [hl, hn, show ¬ n - lo < hi + 1 - lo by omega]
  · simp [hl]

/-- A number from its binary digits has those digits. -/
theorem testBit_boolsNat (l : List Bool) (n : Nat) : (boolsNat l).testBit n = (l[n]?).getD false := by
  induction l generalizing n with
  | nil => simp [boolsNat]
  | cons b r ih =>
    cases n with
    | zero => cases b <;> simp [boolsNat, Nat.testBit_zero, Nat.add_mod]
    | succ n =>
      rw [boolsNat, Nat.testBit_succ, List.getElem?_cons_succ, ← ih]
      congr 1
      cases b <;> simp
      omega

/-! ## Little-endian bytes -/

/-- The byte k of a number from bytes. -/
theorem leNat_byte (l : List Byte) (k : Nat) : leNat l / 2 ^ (8 * k) % 2 ^ 8 = ((l[k]?).getD 0).toNat := by
  induction l generalizing k with
  | nil => simp [leNat]
  | cons b r ih =>
    have hb := b.isLt
    cases k with
    | zero => simp only [leNat, List.getElem?_cons_zero, Option.getD_some]; omega
    | succ k =>
      rw [List.getElem?_cons_succ, ← ih, leNat, show 8 * (k + 1) = 8 + 8 * k by omega, Nat.pow_add, ← Nat.div_div_eq_div_mul]
      congr 2
      omega

/-- A number from n bytes lies below 2^(8n). -/
theorem leNat_lt (l : List Byte) : leNat l < 2 ^ (8 * l.length) := by
  induction l with
  | nil => simp [leNat]
  | cons b r ih =>
    have hb := b.isLt
    rw [leNat, List.length_cons, show 8 * (r.length + 1) = 8 * r.length + 8 by omega, Nat.pow_add]
    omega

/-- A number whose bytes are those of a list has the list's number as its low part. -/
theorem leNat_eq_mod {l : List Byte} {x : Nat} (h : ∀ k < l.length, x / 2 ^ (8 * k) % 2 ^ 8 = ((l[k]?).getD 0).toNat) :
    leNat l = x % 2 ^ (8 * l.length) := by
  induction l generalizing x with
  | nil => simp [leNat, Nat.mod_one]
  | cons b r ih =>
    have h0 := h 0 (by simp)
    have hr : leNat r = x / 2 ^ 8 % 2 ^ (8 * r.length) := by
      refine ih (fun k hk => ?_)
      have hs := h (k + 1) (by simpa using hk)
      rw [List.getElem?_cons_succ] at hs
      rw [Nat.div_div_eq_div_mul, ← Nat.pow_add, show 8 + 8 * k = 8 * (k + 1) by omega, hs]
    simp only [Nat.mul_zero, pow_zero, Nat.div_one, List.getElem?_cons_zero, Option.getD_some] at h0
    rw [leNat, hr, ← h0, List.length_cons, show 8 * (r.length + 1) = 8 + 8 * r.length by omega, Nat.pow_add, Nat.mod_mul]

/-- As many bytes as asked for. -/
@[simp] theorem leBytes_length (n v : Nat) : (leBytes n v).length = n := by
  induction n generalizing v with
  | zero => rfl
  | succ n ih => simp [leBytes, ih]

/-- The byte k of a number's bytes. -/
theorem leBytes_getElem? {n k : Nat} (v : Nat) (h : k < n) :
    (leBytes n v)[k]? = some (BitVec.ofNat 8 (v / 2 ^ (8 * k))) := by
  induction n generalizing v k with
  | zero => omega
  | succ n ih =>
    cases k with
    | zero => simp [leBytes]
    | succ k =>
      rw [leBytes, List.getElem?_cons_succ, ih _ (by omega), show 256 = 2 ^ 8 by norm_num, Nat.div_div_eq_div_mul, ← Nat.pow_add,
        show 8 + 8 * k = 8 * (k + 1) by omega]

/-- The two's-complement reading of the low n bits of a number, as a word. -/
theorem wrap64_sextN {n : Nat} (x : Nat) (h : 0 < n) : wrap64 (sextN n x) = (BitVec.ofNat n x).signExtend 64 := by
  unfold wrap64
  rw [BitVec.signExtend, BitVec.toInt_eq_toNat_cond, BitVec.toNat_ofNat, sextN]
  have hn : 2 ^ n = 2 * 2 ^ (n - 1) := by
    rw [← Nat.pow_succ']
    congr 1
    omega
  by_cases hx : x % 2 ^ n < 2 ^ (n - 1)
  · rw [if_pos hx, if_pos (by omega)]
  · rw [if_neg hx, if_neg (by omega)]

end Sys2Proof.Machine
end

section
/-! PROOFS. The CSR words (R193, R194) and the CSRs as they read and take a write (Tables 9.5 to 9.9, 16.1, 17.6). -/

namespace Sys2Proof.Machine

/-! ## What a change of the current tile leaves -/

/-- A change of the current tile touches nothing outside it, and issues nothing. -/
theorem sameOutside_modTile (s : State) (f : Tile → Tile) : SameOutside s (s.modTile s.cur f) :=
  ⟨⟨fun _ h => State.modTile_tile_ne s f h, rfl, rfl, rfl, rfl, rfl, rfl, rfl, rfl, rfl, rfl, rfl, rfl⟩, rfl, rfl⟩

/-- Where the memory is the same, every byte reads as before. -/
theorem sameMem_of_mem_eq {s t : State} (h : t.mem = s.mem) : SameMem s t := fun a => by rw [h]

/-- The current tile after a change of it. -/
theorem modTile_curTile (s : State) (f : Tile → Tile) : (s.modTile s.cur f).curTile = f s.curTile := by
  simp [State.curTile]

/-- A word that waits for the end of a speculation goes on where none is open. -/
theorem noSpec_ok {s : State} (h : s.ctx.spec = none) : noSpec s = .ok () := by simp [noSpec, specOpen, orStall, h]

/-- A word that waits for the end of a speculation stalls while one is open. -/
theorem noSpec_stall {s : State} (h : s.ctx.spec ≠ none) : noSpec s = .error .stall := by
  have : s.ctx.spec.isSome = true := Option.isSome_iff_ne_none.2 h
  simp [noSpec, specOpen, orStall, stallW, this]

/-! ## The words -/

/-- An assigned number at a level that may use it passes the check. -/
theorem needCsr_ok {s : State} {n : Nat} {i : Instr} (h : csrCause s.mon n = none) : needCsr s n i = .ok () := by
  rw [needCsr, h]

/-- Any other number traps with its cause, and the word in MTINFO. -/
theorem needCsr_trap {s : State} {n c : Nat} {i : Instr} (h : csrCause s.mon n = some c) :
    needCsr s n i = .error (.trap { cause := c, info := BitVec.ofNat 64 (i.word % 2 ^ 32) }) := by
  rw [needCsr, h]; rfl

theorem exec_csrr_eq (f : CR) (s : State) : exec (.csrr f) s = execCsrr f s := rfl

theorem exec_csrw_eq (f : CW) (s : State) : exec (.csrw f) s = execCsrw f s := rfl

/-- R193: CSRR writes what the CSR reads as. -/
theorem exec_csrr {f : CR} {s : State} (h : Runs s f.g) (hc : csrCause s.mon f.csr = none) :
    exec (.csrr f) s = .next (setX s f.rd (csrRead s f.csr)) := by
  rw [exec_csrr_eq, execCsrr]
  exact runWord_ok h (by simp [needCsr_ok hc, bind, Except.bind])

/-- R193: CSRR of a number that the level may not use. -/
theorem exec_csrr_trap {f : CR} {s : State} {c : Nat} (h : Runs s f.g) (hc : csrCause s.mon f.csr = some c) :
    exec (.csrr f) s = .next (raiseTrap s { cause := c, slot := 0, info := BitVec.ofNat 64 ((Instr.csrr f).word % 2 ^ 32) }) := by
  rw [exec_csrr_eq, execCsrr, runWord_trap h (by rw [needCsr_trap hc]; rfl)]

/-- R193: CSRW writes the CSR. -/
theorem exec_csrw {f : CW} {s : State} {a : Word} (h : Runs s f.g) (ha : readX s f.ra = .ok a) (hc : csrCause s.mon f.csr = none)
    (hs : f.csr ≠ 4 ∨ s.ctx.spec = none) : exec (.csrw f) s = .next (csrWrite (killX s f.la f.ra) f.csr a) := by
  rw [exec_csrw_eq, execCsrw]
  refine runWord_ok h ?_
  by_cases h4 : f.csr = 4
  · have hn := noSpec_ok (hs.resolve_left (not_not.2 h4))
    have hc4 : csrCause s.mon 4 = none := rfl
    simp [needCsr_ok hc4, ha, h4, hn, bind, Except.bind]
  · simp [needCsr_ok hc, ha, h4, bind, Except.bind]

/-- R194: CSRW of SPECST under a speculation. -/
theorem exec_csrw_stall {f : CW} {s : State} {a : Word} (h : Runs s f.g) (ha : readX s f.ra = .ok a) (hs : s.ctx.spec ≠ none)
    (h4 : f.csr = 4) : exec (.csrw f) s = .next { s with bundle := { s.bundle with status := .stalled } } := by
  have hc4 : csrCause s.mon 4 = none := rfl
  rw [exec_csrw_eq, execCsrw]
  exact runWord_stall h (by simp [needCsr_ok hc4, ha, h4, noSpec_stall hs, bind, Except.bind])

/-- R193: CSRW of a number that the level may not use. -/
theorem exec_csrw_trap {f : CW} {s : State} {c : Nat} (h : Runs s f.g) (hc : csrCause s.mon f.csr = some c) :
    exec (.csrw f) s = .next (raiseTrap s { cause := c, slot := 0, info := BitVec.ofNat 64 ((Instr.csrw f).word % 2 ^ 32) }) := by
  rw [exec_csrw_eq, execCsrw, runWord_trap h (by rw [needCsr_trap hc]; rfl)]

/-- Which numbers are assigned, and which of them to the monitor alone. -/
theorem csrCause_eq (m : Bool) (n : Nat) : csrCause m n =
    (if n < 0x0E ∨ 0x10 ≤ n ∧ n ≤ 0x22 then none
      else if 0x100 ≤ n ∧ n ≤ 0x10B ∨ n = 0x110 ∨ n = 0x111 then (if m = true then none else some 0x08) else some 0x01) := by
  simp only [csrCause, csrUser, csrPriv, decide_eq_true_eq, Nat.lt_succ_iff, cPRIV, cILLEGAL]

/-! ## Writes of the user CSRs -/

/-- A write of a user CSR changes registers of the context alone. -/
theorem csrWrite_user (s : State) {n : Nat} (v : Word) (h : n < 0x100) :
    csrWrite s n v = s.modRegs (fun r => csrWriteRegs r n v) := by
  rw [csrWrite, if_pos h]

theorem csrWrite_user_regs (s : State) {n : Nat} (v : Word) (h : n < 0x100) :
    (csrWrite s n v).regs = csrWriteRegs s.regs n v := by
  rw [csrWrite_user s v h, State.modRegs_regs]

theorem csrWrite_user_frame (s : State) {n : Nat} (v : Word) (h : n < 0x100) :
    SameOutside s (csrWrite s n v) ∧ SameMem s (csrWrite s n v) := by
  rw [csrWrite_user s v h]
  exact ⟨sameOutside_modTile s _, sameMem_of_mem_eq rfl⟩

/-- A read-only CSR, and one whose every field is, ignores a write. -/
theorem csrWriteRegs_readOnly (r : Regs) (v : Word) : ∀ n ∈ [0x05, 0x07, 0x0B, 0x0C, 0x0D, 0x10, 0x11, 0x12, 0x13, 0x14, 0x15, 0x16,
    0x17, 0x18, 0x19, 0x1A, 0x1F, 0x20, 0x21, 0x22], csrWriteRegs r n v = r := by
  simp only [List.forall_mem_cons, csrWriteRegs]
  simp

/-- Of UTCAUSE a write changes ACTIVE alone. -/
theorem csrWriteRegs_utcause (r : Regs) (v : Word) {b : Nat} (h : b < 64) :
    (csrWriteRegs r 0x0A v).utcause.getLsbD b = (if b = 16 then v else r.utcause).getLsbD b := by
  have hm : (1#64 <<< 16).getLsbD b = decide (b = 16) := by
    rw [BitVec.getLsbD_shiftLeft, BitVec.getLsbD_one]
    by_cases hb : b = 16
    · simp [hb]
    · simp [hb]; omega
  change ((r.utcause &&& ~~~(1#64 <<< 16)) ||| (v &&& (1#64 <<< 16))).getLsbD b = _
  rw [BitVec.getLsbD_or, BitVec.getLsbD_and, BitVec.getLsbD_and, BitVec.getLsbD_not, hm]
  by_cases hb : b = 16
  · simp [hb]
  · simp [hb, h]

/-- A ROUTE register takes the low 32 bits. -/
theorem csrWriteRegs_route (r : Regs) (v : Word) {n : Nat} (h : n < 4) :
    csrWriteRegs r (0x1B + n) v = { r with route := r.route.setIfInBounds n (v.toNat % 2 ^ 32) } := by
  have h1 : 0x1B + n < 0x1F := by omega
  simp [csrWriteRegs, h1, show ∀ k, k < 0x1B → 0x1B + n ≠ k by omega]

/-- R193, Table 9.5: a user CSR after a write. -/
theorem csrWrite_user_values (s : State) (v : Word) :
    (csrWrite s 0x00 v).regs = { s.regs with frm := v.toNat % 4 } ∧
    (csrWrite s 0x01 v).regs = { s.regs with fflags := v.extractLsb' 0 6 } ∧
    (csrWrite s 0x02 v).regs = { s.regs with srseed := if v = 0 then 1 else v } ∧
    (csrWrite s 0x03 v).regs = { s.regs with retrylim := v.toNat / 256 % 16, boff := v.toNat % 16 } ∧
    (csrWrite s 0x04 v).regs = { s.regs with specst := v } ∧
    (csrWrite s 0x06 v).regs = { s.regs with deadchk := v.getLsbD 8 } ∧
    (csrWrite s 0x08 v).regs = { s.regs with utvec := v.toNat / 4 % 2 ^ 14 * 4 } ∧
    (csrWrite s 0x09 v).regs = { s.regs with utpc := v.toNat / 4 % 2 ^ 14 * 4 } := by
  refine ⟨?_, ?_, ?_, ?_, ?_, ?_, ?_, ?_⟩ <;> exact csrWrite_user_regs s v (by omega)

/-! ## Reads of the user CSRs -/

theorem csrRead_user (s : State) {n : Nat} (h : n < 0x100) : csrRead s n = csrReadUser s n := by
  rw [csrRead, if_pos h]

/-- Table 4.3: the fields of CSR 0x03. -/
theorem csrRead_retry (s : State) (h1 : s.regs.retrylim < 16) (h2 : s.regs.boff < 16) :
    (csrRead s 0x03).extractLsb' 8 4 = BitVec.ofNat 4 s.regs.retrylim ∧
      (csrRead s 0x03).extractLsb' 0 4 = BitVec.ofNat 4 s.regs.boff ∧ (csrRead s 0x03).extractLsb' 4 4 = 0 ∧
      (csrRead s 0x03).extractLsb' 12 52 = 0 := by
  have e : csrRead s 0x03 = BitVec.ofNat 64 (s.regs.retrylim * 256 + s.regs.boff) := rfl
  rw [e]
  exact ⟨extractLsb'_ofNat_eq (by omega) (by omega),
    extractLsb'_ofNat_eq (by omega) (by omega),
    extractLsb'_ofNat_zero (by omega) (by omega),
    extractLsb'_ofNat_zero (by omega) (by omega)⟩

/-- A bit of a value, as its weight times a truth value. -/
theorem ite_two_pow (b : Bool) (k : Nat) : (if b = true then 2 ^ k else 0) = 2 ^ k * b.toNat := by
  cases b <;> simp

/-- Table 2.5: BSTAT is the outcomes of the four groups, below the four phase bits. -/
theorem bstat_eq (s : State) : bstat s = BitVec.ofNat 64
    (65536 * ((s.regs.ph[0]?).getD false).toNat + 131072 * ((s.regs.ph[1]?).getD false).toNat +
      262144 * ((s.regs.ph[2]?).getD false).toNat + 524288 * ((s.regs.ph[3]?).getD false).toNat +
      s.groupOut s.ctx.task.launch 3 * 2 ^ 12 + s.groupOut s.ctx.task.launch 2 * 2 ^ 8 +
      s.groupOut s.ctx.task.launch 1 * 2 ^ 4 + s.groupOut s.ctx.task.launch 0) := by
  have h4 : List.range 4 = [0, 1, 2, 3] := rfl
  unfold bstat
  rw [h4]
  simp only [List.foldl_cons, List.foldl_nil, ite_two_pow]
  norm_num

/-- Table 2.5: the fields of BSTAT. -/
theorem csrRead_bstat (s : State) (h : ∀ n < 4, s.groupOut s.ctx.task.launch n < 16) {n : Nat} (hn : n < 4) :
    (csrRead s 0x05).extractLsb' (4 * n) 4 = BitVec.ofNat 4 (s.groupOut s.ctx.task.launch n) ∧
      (csrRead s 0x05).getLsbD (16 + n) = (s.regs.ph[n]?).getD false ∧ (csrRead s 0x05).extractLsb' 20 44 = 0 := by
  have h0 := h 0 (by omega)
  have h1 := h 1 (by omega)
  have h2 := h 2 (by omega)
  have h3 := h 3 (by omega)
  have hb : ∀ (b : Bool) (x : Nat), (x % 2 = b.toNat) → decide (x % 2 = 1) = b := by
    intro b x hx; cases b <;> simp_all
  have e : csrRead s 0x05 = bstat s := rfl
  rw [e, bstat_eq]
  have p0 := ((s.regs.ph[0]?).getD false).toNat_le
  have p1 := ((s.regs.ph[1]?).getD false).toNat_le
  have p2 := ((s.regs.ph[2]?).getD false).toNat_le
  have p3 := ((s.regs.ph[3]?).getD false).toNat_le
  refine ⟨?_, ?_, ?_⟩
  · refine extractLsb'_ofNat_eq (by omega) ?_
    interval_cases n <;> omega
  · rw [getLsbD_ofNat_div _ _ (by omega)]
    refine hb _ _ ?_
    interval_cases n <;> omega
  · exact extractLsb'_ofNat_zero (by omega) (by omega)

/-- Table 9.6: CSR 0x06 at the user level. -/
theorem csrRead_valloc (s : State) (hm : s.mon = false) (hv : s.regs.valloc ≤ 64) :
    (csrRead s 0x06).getLsbD 8 = s.regs.deadchk ∧ (csrRead s 0x06).extractLsb' 0 8 = BitVec.ofNat 8 s.regs.valloc ∧
      (csrRead s 0x06).extractLsb' 9 55 = 0 := by
  have e : csrRead s 0x06 = BitVec.ofNat 64 ((if s.regs.deadchk && !s.mon then 256 else 0) + vallocOf s) := rfl
  have hvo : vallocOf s = s.regs.valloc := by simp [vallocOf, hm, hv]
  rw [e, hvo, hm, getLsbD_ofNat_div _ _ (by omega)]
  refine ⟨?_, extractLsb'_ofNat_eq (by omega) (by split <;> omega), extractLsb'_ofNat_zero (by omega) (by split <;> omega)⟩
  cases s.regs.deadchk <;> simp <;> omega

/-- R288: at the monitor level it reads VALLOC 64 and DEADCHK 0. -/
theorem csrRead_valloc_mon (s : State) (hm : s.mon = true) : csrRead s 0x06 = 64 := by
  have e : csrRead s 0x06 = BitVec.ofNat 64 ((if s.regs.deadchk && !s.mon then 256 else 0) + vallocOf s) := rfl
  rw [e]
  simp [vallocOf, hm]

/-- XDEAD: the marks of x1 to x31. -/
theorem csrRead_xdead (s : State) {n : Nat} (h : n < 64) :
    (csrRead s 0x0C).getLsbD n = (decide (1 ≤ n ∧ n < 32) && s.regs.bank.dead.getLsbD n) := by
  have e : csrRead s 0x0C = BitVec.ofNat 64 (s.regs.bank.dead.toNat / 2 * 2) := rfl
  have e2 : s.regs.bank.dead.toNat / 2 * 2 = 2 ^ 1 * (s.regs.bank.dead.toNat / 2 ^ 1) := by omega
  rw [e, e2, BitVec.getLsbD_ofNat, Nat.testBit_two_pow_mul, Nat.testBit_div_two_pow, ← BitVec.testBit_toNat]
  by_cases h1 : 1 ≤ n
  · rw [show n - 1 + 1 = n by omega]
    by_cases h2 : n < 32
    · simp [h, h1, h2]
    · have hd : s.regs.bank.dead.toNat.testBit n = false := by
        rw [BitVec.testBit_toNat]; exact BitVec.getLsbD_of_ge _ _ (by omega)
      simp [hd]
  · simp [h1]

/-- VDEAD: the marks of the vector registers below VALLOC. -/
theorem csrRead_vdead (s : State) {n : Nat} (h : n < 64) :
    (csrRead s 0x0D).getLsbD n = (decide (n < (if s.mon then 64 else s.regs.valloc)) && s.regs.vdead.getLsbD n) := by
  have e : csrRead s 0x0D = BitVec.ofNat 64 (s.regs.vdead.toNat % 2 ^ vallocOf s) := rfl
  have hv : n < vallocOf s ↔ n < (if s.mon then 64 else s.regs.valloc) := by
    unfold vallocOf
    split <;> omega
  rw [e, BitVec.getLsbD_ofNat, Nat.testBit_mod_two_pow, ← BitVec.testBit_toNat]
  simp only [h, decide_true, Bool.true_and, hv]

/-- The numbers of ROUTE0 to ROUTE3 and of WMARK0 to WMARK3. -/
theorem csrRead_route_wmark (s : State) {n : Nat} (h : n < 4) :
    csrRead s (0x1B + n) = BitVec.ofNat 64 ((s.regs.route[n]?).getD 0) ∧
      csrRead s (0x1F + n) = BitVec.ofNat 64 ((s.regs.wmark[n]?).getD 0) := by
  interval_cases n <;> exact ⟨rfl, rfl⟩

/-! ## Reads of the privileged CSRs -/

/-- Table 16.1: MTPC. -/
theorem csrRead_mtpc (s : State) (h : s.curTile.mtpcPlane < 2) :
    (csrRead s 0x101).extractLsb' 0 16 = BitVec.ofNat 16 s.curTile.mtpc ∧
      (csrRead s 0x101).getLsbD 16 = decide (s.curTile.mtpcPlane = 1) ∧ (csrRead s 0x101).extractLsb' 17 47 = 0 := by
  have e : csrRead s 0x101 = BitVec.ofNat 64 (s.curTile.mtpcPlane * 2 ^ 16 + s.curTile.mtpc % 2 ^ 16) := rfl
  rw [e, getLsbD_ofNat_div _ _ (by omega)]
  exact ⟨extractLsb'_ofNat_eq (by omega) (by omega), decide_eq_decide.2 (by omega), extractLsb'_ofNat_zero (by omega) (by omega)⟩

/-- Table 16.1: MEND. -/
theorem csrRead_mend (s : State) (h : s.curTile.mendAct < 16) :
    (csrRead s 0x103).extractLsb' 32 32 = BitVec.ofNat 32 s.curTile.mendCode ∧
      (csrRead s 0x103).extractLsb' 0 4 = BitVec.ofNat 4 s.curTile.mendAct ∧ (csrRead s 0x103).extractLsb' 4 28 = 0 := by
  have e : csrRead s 0x103 = BitVec.ofNat 64 (s.curTile.mendCode * 2 ^ 32 + s.curTile.mendAct) := rfl
  rw [e]
  exact ⟨extractLsb'_ofNat_eq (by omega) (by omega),
    extractLsb'_ofNat_eq (by omega) (by omega),
    extractLsb'_ofNat_zero (by omega) (by omega)⟩

/-- Table 16.1: SPILLVA and LSTATVA keep the bits of an aligned address of 48 bits. -/
theorem csrRead_spillva_lstatva (s : State) {n : Nat} (h : n < 64) :
    (csrRead s 0x105).getLsbD n = (decide (20 ≤ n ∧ n < 48) && s.ctx.task.spillva.testBit n) ∧
      (csrRead s 0x106).getLsbD n = (decide (5 ≤ n ∧ n < 48) && s.ctx.task.lstatva.testBit n) := by
  have e1 : csrRead s 0x105 = BitVec.ofNat 64 (bitsHL s.ctx.task.spillva 47 20 * 2 ^ 20) := rfl
  have e2 : csrRead s 0x106 = BitVec.ofNat 64 (bitsHL s.ctx.task.lstatva 47 5 * 2 ^ 5) := rfl
  rw [e1, e2, BitVec.getLsbD_ofNat, BitVec.getLsbD_ofNat, testBit_bitsHL_mul _ _ _ _ (by omega),
    testBit_bitsHL_mul _ _ _ _ (by omega)]
  simp [h, Nat.lt_succ_iff]

/-- Table 16.1: the fields of a plane's state word. -/
theorem planest_fields (pl : Plane) (h : pl.state < 8) :
    (planest pl).extractLsb' 48 16 = BitVec.ofNat 16 pl.task.launch ∧
      (planest pl).extractLsb' 16 32 = BitVec.ofNat 32 pl.regs.gridpos ∧ (planest pl).extractLsb' 4 12 = 0 ∧
      (planest pl).getLsbD 3 = pl.token ∧ (planest pl).extractLsb' 0 3 = BitVec.ofNat 3 pl.state := by
  have ht : (if pl.token then 8 else 0) = pl.token.toNat * 8 := by cases pl.token <;> rfl
  have hl := pl.token.toNat_le
  rw [planest, ht]
  refine ⟨extractLsb'_ofNat_eq (by omega) (by omega), extractLsb'_ofNat_eq (by omega) (by omega),
    extractLsb'_ofNat_zero (by omega) (by omega), ?_, extractLsb'_ofNat_eq (by omega) (by omega)⟩
  rw [getLsbD_ofNat_div _ _ (by omega)]
  cases pl.token <;> simp <;> omega

/-- The state words of both planes stand at 0x109 and 0x10A. -/
theorem csrRead_planest (s : State) {p : Nat} (h : p < 2) : csrRead s (0x109 + p) = planest (s.curTile.pl p) := by
  interval_cases p <;> rfl

/-- Table 16.1: SYSSTAT. -/
theorem csrRead_sysstat (s : State) (h1 : s.curTile.sysStatus < 256) (h2 : s.curTile.sysFcode < 256) :
    (csrRead s 0x10B).extractLsb' 0 8 = BitVec.ofNat 8 s.curTile.sysStatus ∧
      (csrRead s 0x10B).extractLsb' 8 8 = BitVec.ofNat 8 s.curTile.sysFcode ∧ (csrRead s 0x10B).extractLsb' 16 48 = 0 := by
  have e : csrRead s 0x10B = BitVec.ofNat 64 (s.curTile.sysFcode * 256 + s.curTile.sysStatus) := rfl
  rw [e]
  exact ⟨extractLsb'_ofNat_eq (by omega) (by omega),
    extractLsb'_ofNat_eq (by omega) (by omega),
    extractLsb'_ofNat_zero (by omega) (by omega)⟩

/-- Table 17.6: ARBST. -/
theorem csrRead_arbst (s : State) (h1 : s.ctx.pass < 16) (h2 : s.curTile.wrem < 2 ^ 15) :
    (csrRead s 0x110).extractLsb' 60 4 = BitVec.ofNat 4 s.ctx.task.trank ∧
      (csrRead s 0x110).extractLsb' 56 4 = BitVec.ofNat 4 s.ctx.pass ∧
      (csrRead s 0x110).extractLsb' 34 22 = BitVec.ofNat 22 s.ctx.debt ∧
      (csrRead s 0x110).extractLsb' 15 19 = BitVec.ofNat 19 s.ctx.decl ∧
      (csrRead s 0x110).extractLsb' 0 15 = BitVec.ofNat 15 s.curTile.wrem := by
  have e : csrRead s 0x110 = BitVec.ofNat 64 (s.ctx.task.trank * 2 ^ 60 + s.ctx.pass * 2 ^ 56 + s.ctx.debt % 2 ^ 22 * 2 ^ 34
    + s.ctx.decl % 2 ^ 19 * 2 ^ 15 + s.curTile.wrem) := rfl
  rw [e]
  exact ⟨extractLsb'_ofNat_eq (by omega) (by omega),
    extractLsb'_ofNat_eq (by omega) (by omega),
    extractLsb'_ofNat_eq (by omega) (by omega),
    extractLsb'_ofNat_eq (by omega) (by omega),
    extractLsb'_ofNat_eq (by omega) (by omega)⟩

/-! ### TXVAL (R290) -/

theorem csrRead_txval (s : State) : csrRead s 0x108 = txRead s := rfl

/-- TXIDX 0 to 31 names an x register. -/
theorem txRead_x (s : State) (h : s.curTile.txidx < 32) : txRead s =
    (if s.regs.bank.dead.getLsbD s.curTile.txidx = true then 0 else (s.regs.bank.x[s.curTile.txidx]?).getD 0) := by
  rw [txRead, if_pos h]

/-- TXIDX 32 names the predicates, p0 true and p1 false. -/
theorem txRead_p (s : State) (h : s.curTile.txidx = 32) {n : Nat} (hn : n < 64) :
    (txRead s).getLsbD n = (decide (n = 0) || (decide (2 ≤ n) && (s.regs.bank.p[n]?).getD false)) := by
  have e : txRead s = BitVec.ofNat 64 (1 + 4 * boolsNat ((s.regs.bank.p.toList).drop 2)) := by
    simp [txRead, h]
  rw [e, BitVec.getLsbD_ofNat]
  simp only [hn, decide_true, Bool.true_and]
  match n with
  | 0 => simp [Nat.testBit_zero]; omega
  | 1 =>
    rw [Nat.testBit_eq_decide_div_mod_eq]
    simp; omega
  | k + 2 =>
    have hk : (1 + 4 * boolsNat ((s.regs.bank.p.toList).drop 2)).testBit (k + 2) =
        (boolsNat ((s.regs.bank.p.toList).drop 2)).testBit k := by
      rw [Nat.testBit_succ, Nat.testBit_succ]
      congr 1
      omega
    rw [hk, testBit_boolsNat, List.getElem?_drop, Nat.add_comm 2 k]
    simp

/-- TXIDX 33 names the index registers. -/
theorem txRead_ix (s : State) (h : s.curTile.txidx = 33) :
    (∀ n < 4, (txRead s).extractLsb' (8 * n) 8 = (s.regs.bank.ix[n]?).getD 0) ∧ (txRead s).extractLsb' 32 32 = 0 := by
  have e : txRead s = BitVec.ofNat 64 (leNat s.regs.bank.ix.toList) := by simp [txRead, h]
  rw [e]
  constructor
  · intro n hn
    rw [extractLsb'_ofNat _ _ _ (by omega)]
    apply BitVec.eq_of_toNat_eq
    rw [BitVec.toNat_ofNat, leNat_byte]
    simp
  · have hl := leNat_lt s.regs.bank.ix.toList
    rw [Vector.length_toList] at hl
    exact extractLsb'_ofNat_zero (by omega) (by omega)

/-- TXIDX above 33 names nothing. -/
theorem txRead_none (s : State) (h : 33 < s.curTile.txidx) : txRead s = 0 := by
  simp [txRead, show ¬ s.curTile.txidx < 32 by omega, show s.curTile.txidx ≠ 32 by omega, show s.curTile.txidx ≠ 33 by omega]

/-! ## Writes of the privileged CSRs -/

theorem csrWrite_mtpc_eq (s : State) (v : Word) : csrWrite s 0x101 v =
    s.modTile s.cur (fun t => { t with mtpcPlane := bitsHL v.toNat 16 16, mtpc := bitsHL v.toNat 15 2 * 4 }) := rfl

theorem csrWrite_mend_eq (s : State) (v : Word) : csrWrite s 0x103 v = s.modTile s.cur (fun t =>
    { t with mendCode := bitsHL v.toNat 63 32, mendAct := if v.toNat % 16 < 3 then v.toNat % 16 else 1 }) := rfl

theorem csrWrite_mscratch_eq (s : State) (v : Word) :
    csrWrite s 0x104 v = s.modTile s.cur (fun t => { t with mscratch := v }) := rfl

theorem csrWrite_txidx_eq (s : State) (v : Word) :
    csrWrite s 0x107 v = s.modTile s.cur (fun t => { t with txidx := v.toNat % 64 }) := rfl

/-- Table 16.1: MTPC takes the plane and the word-aligned address. -/
theorem csrWrite_mtpc (s : State) (v : Word) : (csrWrite s 0x101 v).curTile =
    { s.curTile with mtpcPlane := if v.getLsbD 16 = true then 1 else 0, mtpc := v.toNat / 4 % 2 ^ 14 * 4 } := by
  have hp : bitsHL v.toNat 16 16 = if v.getLsbD 16 = true then 1 else 0 := by
    rw [← BitVec.testBit_toNat, Nat.testBit_eq_decide_div_mod_eq, bitsHL]
    simp only [decide_eq_true_eq]
    split <;> omega
  rw [csrWrite_mtpc_eq, modTile_curTile, hp]
  rfl

/-- Table 16.1: MEND; an ACT above 2 stores 1. -/
theorem csrWrite_mend (s : State) (v : Word) : (csrWrite s 0x103 v).curTile =
    { s.curTile with mendCode := v.toNat / 2 ^ 32, mendAct := if v.toNat % 16 < 3 then v.toNat % 16 else 1 } := by
  have hc : bitsHL v.toNat 63 32 = v.toNat / 2 ^ 32 := by
    have := v.isLt
    rw [bitsHL]
    omega
  rw [csrWrite_mend_eq, modTile_curTile, hc]

theorem csrWrite_mscratch (s : State) (v : Word) : (csrWrite s 0x104 v).curTile = { s.curTile with mscratch := v } := by
  rw [csrWrite_mscratch_eq, modTile_curTile]

theorem csrWrite_txidx (s : State) (v : Word) : (csrWrite s 0x107 v).curTile = { s.curTile with txidx := v.toNat % 64 } := by
  rw [csrWrite_txidx_eq, modTile_curTile]

/-- A write of MTPC, MEND, MSCRATCH or TXIDX changes the current tile alone. -/
theorem csrWrite_priv_frame (s : State) (v : Word) :
    ∀ n ∈ [0x101, 0x103, 0x104, 0x107], SameOutside s (csrWrite s n v) ∧ SameMem s (csrWrite s n v) := by
  have frame : ∀ f, SameOutside s (s.modTile s.cur f) ∧ SameMem s (s.modTile s.cur f) :=
    fun f => ⟨sameOutside_modTile s f, sameMem_of_mem_eq rfl⟩
  simp only [List.forall_mem_cons, List.not_mem_nil, false_implies, implies_true, and_true]
  rw [csrWrite_mtpc_eq, csrWrite_mend_eq, csrWrite_mscratch_eq, csrWrite_txidx_eq]
  exact ⟨frame _, frame _, frame _, frame _⟩

/-- The read-only privileged CSRs ignore a write. -/
theorem csrWrite_priv_readOnly (s : State) (v : Word) :
    ∀ n ∈ [0x100, 0x102, 0x105, 0x106, 0x109, 0x10A, 0x10B, 0x110], csrWrite s n v = s := by
  simp only [List.forall_mem_cons, List.not_mem_nil, false_implies, implies_true, and_true]
  exact ⟨rfl, rfl, rfl, rfl, rfl, rfl, rfl, rfl⟩

/-- R313: a write of SCANCEL makes its step due, with the launch of the task that the context names. -/
theorem csrWrite_scancel (s : State) (v : Word) :
    ∃ e, csrWrite s 0x111 v = emit s (.scancelWrite s.cur e) ∧ e / 2 ^ 64 = s.ctx.task.launch ∧ e % 2 ^ 64 = v.toNat := by
  have := v.isLt
  exact ⟨s.ctx.task.launch * 2 ^ 64 + v.toNat, rfl, by omega, by omega⟩

/-- Settles O14. The words by what their checks answer, then the CSRs of each table, field by field. -/
theorem csrWords : Obligations.CsrWords := by
  unfold Obligations.CsrWords
  refine ⟨⟨fun f s h => ⟨exec_csrr h, fun c => exec_csrr_trap h⟩,
      fun f s a h ha => ⟨exec_csrw h ha, exec_csrw_stall h ha, fun c => exec_csrw_trap h⟩,
      fun n _ m => csrCause_eq m n⟩, fun s v => ?userWrites, fun s => ?userReads, fun s => ?privReads, fun s v => ?privWrites⟩
  case userWrites =>
    obtain ⟨h0, h1, h2, h3, h4, h6, h8, h9⟩ := csrWrite_user_values s v
    refine ⟨h0, h1, h2, h3, h4, h6, h8, h9, fun b hb => ?_, fun n hn => ?_, fun n hn => ?_, fun n hn => csrWrite_user_frame s v hn⟩
    · rw [csrWrite_user_regs s v (by omega), csrWriteRegs_utcause _ _ hb]
    · rw [csrWrite_user_regs s v (by omega), csrWriteRegs_route _ _ hn]
    · have hlt : n < 0x100 := by fin_cases hn <;> omega
      rw [csrWrite_user_regs s v hlt, csrWriteRegs_readOnly _ _ n hn]
  case userReads =>
    exact ⟨rfl, rfl, rfl, csrRead_retry s, rfl, fun h n hn => csrRead_bstat s h hn, csrRead_valloc s, csrRead_valloc_mon s, rfl, rfl,
      rfl, rfl, rfl, fun n hn => ⟨csrRead_xdead s hn, csrRead_vdead s hn⟩, rfl, rfl, rfl, rfl, rfl, rfl, rfl, rfl, rfl, rfl, rfl,
      fun n hn => csrRead_route_wmark s hn⟩
  case privReads =>
    refine ⟨rfl, rfl, rfl, csrRead_mtpc s, csrRead_mend s, fun n hn => csrRead_spillva_lstatva s hn, rfl, fun p hp h => ?_,
      csrRead_sysstat s, csrRead_arbst s, txRead_x s, fun h n hn => txRead_p s h hn, txRead_ix s, txRead_none s⟩
    rw [csrRead_planest s hp]
    exact planest_fields _ h
  case privWrites =>
    exact ⟨csrWrite_priv_frame s v, csrWrite_mtpc s v, csrWrite_mend s v, csrWrite_mscratch s v, csrWrite_txidx s v, rfl,
      csrWrite_priv_readOnly s v, csrWrite_scancel s v⟩

end Sys2Proof.Machine
end

section
/-! PROOFS. The reset state (R1, R177, R195, R54, R256), and the writes of the platform registers. -/

namespace Sys2Proof.Machine

/-! ## The reset state -/

/-- Every tile stands at its defaults. -/
theorem reset_tile (r : Nat) : State.reset.tile r = {} := rfl

/-- Every plane stands at its defaults. -/
theorem reset_plane (r p : Nat) : State.reset.plane r p = {} := by
  rw [State.plane, reset_tile, Tile.pl]
  split <;> rfl

/-- An entry of a vector of equal values is that value, or the default outside it. -/
theorem getD_replicate {α : Type} (n k : Nat) (a : α) : ((Vector.replicate n a)[k]?).getD a = a := by
  rw [Vector.getElem?_replicate]
  split <;> rfl

/-- Settles O40. The tables of the reset state are empty, so every unit reads as its defaults, field by field. -/
theorem resetState : Obligations.ResetState := by
  unfold Obligations.ResetState
  refine ⟨rfl, fun a => rfl, rfl, rfl, rfl, rfl, fun r => ⟨rfl, rfl, rfl, fun p => ?_⟩⟩
  rw [reset_plane]
  refine ⟨rfl, rfl, fun g hg => ?_⟩
  subst hg
  have hfl : ∀ n, ({} : Regs).fl n = {} := fun n => getD_replicate 64 n ({} : Flag)
  have htd : ∀ n, ({} : Regs).td n = {} := fun n => getD_replicate 16 n ({} : TDesc)
  have hacc : ∀ n : Nat, ((({} : Regs).acc[n]?).getD {}) = {} := fun n => getD_replicate 4 n ({} : Acc)
  exact ⟨rfl, rfl, rfl, fun n => getD_replicate 32 n 0, fun n => BitVec.getLsbD_zero, fun n => getD_replicate 8 n false,
    fun n => getD_replicate 4 n 0, fun n => getD_replicate 64 n 0, fun n => BitVec.getLsbD_zero, fun n => getD_replicate 8 n 0,
    fun n => by rw [hfl]; exact ⟨rfl, rfl, rfl⟩, fun n => getD_replicate 4 n 0, fun n => getD_replicate 4 n 0,
    fun n => by rw [htd], fun n => by rw [hacc], rfl, rfl, rfl, rfl, rfl, rfl, rfl, rfl, rfl, rfl⟩

/-! ## Writes of the platform registers -/

/-- A write of a range entry whose number the partition does not have stops with a fault, whatever else its packet holds. -/
theorem exec_rangeEntryWrite_fault {pkg p n v : Nat} (s : State) (h : 16 ≤ n) :
    exec (.rangeEntryWrite pkg p n v) s = .fault .noSuchUnit := by
  have e : exec (.rangeEntryWrite pkg p n v) s = execRangeEntryWrite pkg p n v s := rfl
  rw [e, execRangeEntryWrite, runEvent, show decide (p < 8 ∧ n < 16 ∧ v < 2 ^ 128) = false by simp; omega]
  simp

/-- Refutes O59. Instr.wf bounds the package, the partition and the value of a RANGE_ENTRY_WRITE packet, but not its entry number n,
and the statement asks for a next state whenever the packet is well formed; the step has one only for the 16 entries of a partition.
Counterexample: entry 16 of partition 0 of package 0, written with 0 in the reset state. -/
theorem not_registerWriteSteps : ¬ Obligations.RegisterWriteSteps := by
  unfold Obligations.RegisterWriteSteps
  rintro ⟨-, -, -, -, -, -, -, -, hrange, -⟩
  obtain ⟨t, hnext, -⟩ := hrange State.reset 0 0 16 0 _ _ _ (by decide) rfl rfl rfl
  rw [exec_rangeEntryWrite_fault _ (le_refl 16)] at hnext
  cases hnext

end Sys2Proof.Machine
end

section
/-! SUPPORT. Tile store as the M slot's words use it (R18 to R20, R91 to R93, R110): what a read leaves, which bytes a store changes,
and what an escrow holds. -/

namespace Sys2Proof.Machine

/-! ## Frames in a row -/

/-- What two moves leave as it was is what both leave. -/
theorem SameElsewhere.trans {s t u : State} (h : SameElsewhere s t) (k : SameElsewhere t u) : SameElsewhere s u := by
  obtain ⟨h1, h2, h3, h4, h5, h6, h7, h8, h9, h10, hc, h11, h12⟩ := h
  obtain ⟨k1, k2, k3, k4, k5, k6, k7, k8, k9, k10, kc, k11, k12⟩ := k
  exact ⟨fun r hr => (k1 r (by rwa [hc])).trans (h1 r hr), k2.trans h2, k3.trans h3, k4.trans h4, k5.trans h5, k6.trans h6,
    k7.trans h7, k8.trans h8, k9.trans h9, k10.trans h10, kc.trans hc, k11.trans h11, k12.trans h12⟩

/-- The current tile is the same one. -/
theorem SameElsewhere.cur_eq {s t : State} (h : SameElsewhere s t) : t.cur = s.cur := by
  obtain ⟨-, -, -, -, -, -, -, -, -, -, hc, -, -⟩ := h
  exact hc

theorem SameOutside.refl (s : State) : SameOutside s s :=
  ⟨⟨fun _ _ => rfl, rfl, rfl, rfl, rfl, rfl, rfl, rfl, rfl, rfl, rfl, rfl, rfl⟩, rfl, rfl⟩

theorem SameOutside.trans {s t u : State} (h : SameOutside s t) (k : SameOutside t u) : SameOutside s u :=
  ⟨h.1.trans k.1, k.2.1.trans h.2.1, k.2.2.trans h.2.2⟩

theorem StoreFrame.trans {s t u : State} (h : StoreFrame s t) (k : StoreFrame t u) : StoreFrame s u := by
  obtain ⟨he, ha, hb, ht⟩ := h
  obtain ⟨ke, ka, kb, kt⟩ := k
  refine ⟨he.trans ke, ka.trans ha, kb.trans hb, ?_⟩
  rw [← ht, ← kt]

/-! ## A change of the speculation and of the marks of racing writes -/

/-- A plane with another speculation. -/
def Plane.withSpec (pl : Plane) (sp : Option Spec) : Plane := { pl with spec := sp }

/-- A tile with other marks of racing writes. -/
def Tile.withStale (t : Tile) (l : List Stale) : Tile := { t with stale := l }

@[simp] theorem Plane.withSpec_self (pl : Plane) : pl.withSpec pl.spec = pl := rfl

@[simp] theorem Plane.withSpec_withSpec (pl : Plane) (a b : Option Spec) : (pl.withSpec a).withSpec b = pl.withSpec b := rfl

@[simp] theorem Plane.withSpec_spec (pl : Plane) (sp : Option Spec) : (pl.withSpec sp).spec = sp := rfl

@[simp] theorem Tile.withStale_self (t : Tile) : t.withStale t.stale = t := rfl

@[simp] theorem Tile.withStale_withStale (t : Tile) (a b : List Stale) : (t.withStale a).withStale b = t.withStale b := rfl

@[simp] theorem Tile.withStale_pl (t : Tile) (l : List Stale) (p : Nat) : (t.withStale l).pl p = t.pl p := rfl

@[simp] theorem Tile.withStale_ctxPlane (t : Tile) (l : List Stale) : (t.withStale l).ctxPlane = t.ctxPlane := rfl

@[simp] theorem Tile.setPl_mbank (t : Tile) (p : Nat) (x : Plane) : (t.setPl p x).mbank = t.mbank := by
  by_cases h : p = 0 <;> simp [Tile.setPl, h]

@[simp] theorem Tile.setPl_stale (t : Tile) (p : Nat) (x : Plane) : (t.setPl p x).stale = t.stale := by
  by_cases h : p = 0 <;> simp [Tile.setPl, h]

theorem Tile.withStale_setPl (t : Tile) (l : List Stale) (p : Nat) (x : Plane) :
    (t.withStale l).setPl p x = (t.setPl p x).withStale l := by
  by_cases h : p = 0 <;> simp [Tile.setPl, Tile.withStale, h]

/-- Only the current tile's marks of racing writes and its context's speculation have changed, and no speculation is open that was
not. -/
def SpecMoves (s t : State) : Prop :=
  SameOutside s t ∧ t.mem = s.mem ∧ t.bundle = s.bundle ∧
    ∃ st sp, t.curTile = (s.curTile.setPl s.ctxP (s.ctx.withSpec sp)).withStale st ∧ (s.ctx.spec = none → sp = none)

section
variable {s t : State} {st : List Stale} {sp : Option Spec}
  (h : t.curTile = (s.curTile.setPl s.ctxP (s.ctx.withSpec sp)).withStale st)
include h

theorem mon_of_specMoves : t.mon = s.mon := by
  rw [State.mon, h]
  exact Tile.setPl_monitor _ _ _

theorem ctxP_of_specMoves : t.ctxP = s.ctxP := by
  rw [State.ctxP, h, Tile.withStale_ctxPlane, Tile.setPl_ctxPlane, State.ctxP]

theorem ctx_of_specMoves : t.ctx = s.ctx.withSpec sp := by
  rw [State.ctx, ctxP_of_specMoves h, h, Tile.withStale_pl, Tile.setPl_pl]

theorem regs_of_specMoves : t.regs = s.regs := by
  rw [State.regs, ctx_of_specMoves h]
  rfl

theorem bank_of_specMoves : t.bank = s.bank := by
  have hm : t.curTile.mbank = s.curTile.mbank := by
    rw [h]
    exact Tile.setPl_mbank _ _ _
  rw [State.bank, State.bank, mon_of_specMoves h, regs_of_specMoves h, hm]

end

theorem SpecMoves.refl (s : State) : SpecMoves s s := by
  refine ⟨SameOutside.refl s, rfl, rfl, s.curTile.stale, s.ctx.spec, ?_, id⟩
  have hp : s.curTile.setPl s.ctxP s.ctx = s.curTile := Tile.setPl_self _ _
  rw [Plane.withSpec_self, hp, Tile.withStale_self]

theorem SpecMoves.trans {s t u : State} (h : SpecMoves s t) (k : SpecMoves t u) : SpecMoves s u := by
  obtain ⟨ho, hm, hb, st, sp, ht, hs⟩ := h
  obtain ⟨ko, km, kb, st', sp', kt, ks⟩ := k
  refine ⟨ho.trans ko, km.trans hm, kb.trans hb, st', sp', ?_, fun hn => ks (by rw [ctx_of_specMoves ht]; exact hs hn)⟩
  rw [kt, ctx_of_specMoves ht, ctxP_of_specMoves ht, ht, Tile.withStale_setPl, Tile.setPl_setPl, Tile.withStale_withStale,
    Plane.withSpec_withSpec]

theorem SpecMoves.cur_eq {s t : State} (h : SpecMoves s t) : t.cur = s.cur := h.1.1.cur_eq

/-- Such a change leaves what a read leaves. -/
theorem SpecMoves.readOnly {s t : State} (h : SpecMoves s t) : ReadOnly s t := by
  obtain ⟨ho, hm, hb, st, sp, ht, hs⟩ := h
  refine ⟨ho, sameMem_of_mem_eq hm, hb, regs_of_specMoves ht, bank_of_specMoves ht, ?_, fun hn => ?_⟩
  · rw [ctx_of_specMoves ht]
    rfl
  · have hp : s.curTile.setPl s.ctxP (s.ctx.withSpec s.ctx.spec) = s.curTile := Tile.setPl_self _ _
    rw [ht, hs hn, ← hn, hp]
    rfl

/-- Such a change leaves what a store to escrow leaves. -/
theorem SpecMoves.escrowFrame {s t : State} (h : SpecMoves s t) : EscrowFrame s t := by
  obtain ⟨ho, hm, hb, hr, hk, hc, -⟩ := h.readOnly
  exact ⟨ho, hm, hb, hr, hk, hc⟩

/-- A change of the context's speculation. -/
theorem specMoves_modPlane (s : State) (f : Plane → Plane) {sp : Option Spec} (hf : f s.ctx = s.ctx.withSpec sp)
    (hs : s.ctx.spec = none → sp = none) : SpecMoves s (s.modPlane s.cur s.ctxP f) := by
  refine ⟨sameOutside_modTile s _, rfl, rfl, s.curTile.stale, sp, ?_, hs⟩
  have ht : (s.modPlane s.cur s.ctxP f).curTile = s.curTile.setPl s.ctxP (f s.ctx) := State.modCtx_curTile s f
  have hst : (s.curTile.setPl s.ctxP (s.ctx.withSpec sp)).stale = s.curTile.stale := Tile.setPl_stale _ _ _
  rw [ht, hf, ← hst, Tile.withStale_self]

/-- A change of the marks of racing writes. -/
theorem specMoves_stale (s : State) (l : List Stale) : SpecMoves s (s.modTile s.cur (fun t => t.withStale l)) := by
  refine ⟨sameOutside_modTile s _, rfl, rfl, l, s.ctx.spec, ?_, id⟩
  have hp : s.curTile.setPl s.ctxP s.ctx = s.curTile := Tile.setPl_self _ _
  rw [modTile_curTile, Plane.withSpec_self, hp]

/-! ## Reads -/

/-- R41: a read under a speculation changes its tracked lines alone. -/
theorem track_specMoves (s : State) (a n : Nat) : SpecMoves s (track s s.cur s.ctxP a n) := by
  unfold track
  split
  · exact SpecMoves.refl s
  · cases hsp : s.ctx.spec with
    | none => exact specMoves_modPlane s _ (sp := s.ctx.spec) (by simp only [hsp]; rw [← hsp, Plane.withSpec_self]) id
    | some sp => exact specMoves_modPlane s _ (by simp only [hsp]; rfl) (by simp [hsp])

/-- R111: a read changes the marks of racing writes alone. -/
theorem tsSeen_specMoves (s : State) (path a n : Nat) : SpecMoves s (tsSeen s s.cur path a n) := by
  unfold tsSeen
  split
  · exact SpecMoves.refl s
  · exact specMoves_stale s _

/-- The state after an M-slot read of n bytes at a task address. -/
def afterRead (s : State) (t n : Nat) : State :=
  tsSeen (track s s.cur s.ctxP (tsPhys s t) n) s.cur pathP (tsPhys s t) n

theorem afterRead_readOnly (s : State) (t n : Nat) : ReadOnly s (afterRead s t n) := by
  have h := track_specMoves s (tsPhys s t) n
  have k := tsSeen_specMoves (track s s.cur s.ctxP (tsPhys s t) n) pathP (tsPhys s t) n
  rw [h.cur_eq] at k
  exact (h.trans k).readOnly

/-- An M-slot read whose address has no window or drain to wait for. -/
theorem mRead_ok {s : State} {t n : Nat} (h : mGate s (tsPhys s t) n = .ok ()) :
    mRead s t n = .ok (tsBytes s s.cur s.ctxP pathP (tsPhys s t) n, afterRead s t n) := by
  simp [mRead, h, bind, Except.bind, afterRead]

/-- Where no write races and no speculation is open, a byte reads as memory holds it. -/
theorem tsByte_of_plain {s : State} (h : Plain s) (path a : Nat) : tsByte s s.cur s.ctxP path a = memGet s.mem (tsAddr s.cur a) := by
  obtain ⟨hst, hsp⟩ := h
  have h1 : (s.plane s.cur s.ctxP).spec = none := hsp
  have h2 : (s.tile s.cur).stale = [] := hst
  simp [tsByte, oldGran, h1, h2]

theorem tsBytes_length (s : State) (r p path a n : Nat) : (tsBytes s r p path a n).length = n := by
  simp [tsBytes]

theorem tsBytes_getElem? (s : State) (r p path a : Nat) {n k : Nat} (h : k < n) :
    (tsBytes s r p path a n)[k]? = some (tsByte s r p path (a + k)) := by
  simp [tsBytes, h]

/-- The address of the k-th byte from a task address. -/
theorem taskByte_add (s : State) (t k : Nat) : tsAddr s.cur (tsPhys s t + k) = taskByte s t + k := by
  simp [taskByte, tsAddr, Nat.add_assoc]

/-! ## Escrow (R44, R110) -/

/-- The byte that the lines of an escrow hold at a physical address. -/
def escByte (ls : List (Nat × NMap Byte)) (a : Nat) : Option Byte :=
  (ls.find? (fun l => decide (l.1 = a / 64))).bind (fun l => nget l.2 (a % 64))

/-- What an escrow holds is what every path of the plane reads. -/
theorem tsByte_of_escByte {s : State} {r p a : Nat} {sp : Spec} {b : Byte} (path : Nat) (h : (s.plane r p).spec = some sp)
    (hb : escByte sp.escrow a = some b) : tsByte s r p path a = b := by
  unfold escByte at hb
  simp [tsByte, h, hb]

/-- An escrow after a byte was written to it. -/
theorem escByte_escPut (ls : List (Nat × NMap Byte)) (a x : Nat) (b : Byte) :
    escByte (escPut ls a b) x = if x = a then some b else escByte ls x := by
  unfold escPut escByte
  by_cases hany : ls.any (fun l => decide (l.1 = a / 64)) = true
  · rw [if_pos hany, List.find?_map]
    have hp : ((fun l : Nat × NMap Byte => decide (l.1 = x / 64)) ∘
        fun l => if l.1 = a / 64 then (l.1, nset l.2 (a % 64) b) else l) = fun l => decide (l.1 = x / 64) := by
      funext l
      simp only [Function.comp]
      split <;> rfl
    rw [hp]
    cases hf : ls.find? (fun l => decide (l.1 = x / 64)) with
    | none =>
      have hx : x ≠ a := by
        rintro rfl
        simp only [List.find?_eq_none, List.any_eq_true] at hf hany
        obtain ⟨l, hl, hd⟩ := hany
        exact hf l hl hd
      simp [hx]
    | some l =>
      have hl : l.1 = x / 64 := by simpa using List.find?_some hf
      by_cases hx : x = a
      · subst hx; simp [hl]
      · by_cases hd : x / 64 = a / 64
        · have hm : x % 64 ≠ a % 64 := by omega
          simp [hl, hd, hx, nget_nset_ne _ _ hm]
        · simp [hl, hd, hx]
  · rw [if_neg hany, List.find?_append]
    have hno : ∀ l ∈ ls, l.1 ≠ a / 64 := by
      intro l hl e
      exact hany (List.any_eq_true.2 ⟨l, hl, by simpa using e⟩)
    by_cases hd : x / 64 = a / 64
    · have hf : ls.find? (fun l => decide (l.1 = x / 64)) = none := by
        rw [List.find?_eq_none]
        intro l hl
        simpa [hd] using hno l hl
      rw [hf]
      by_cases hx : x = a
      · simp [hx, nget]
      · have hm : a % 64 ≠ x % 64 := by omega
        simp [hd, hx, nget, hm]
    · have hx : x ≠ a := by rintro rfl; exact hd rfl
      have hd' : ¬ a / 64 = x / 64 := fun e => hd e.symm
      simp [hx, hd']

/-- An escrow after a list of bytes was written to it. -/
theorem escByte_escWrite (ls : List (Nat × NMap Byte)) (a x : Nat) (bs : List Byte) :
    escByte (escWrite ls a bs) x = if a ≤ x ∧ x < a + bs.length then bs[x - a]? else escByte ls x := by
  induction bs generalizing ls a with
  | nil => simp [escWrite]
  | cons b r ih =>
    rw [escWrite, ih, escByte_escPut, List.length_cons]
    by_cases hx : x = a
    · simp [hx]
    · by_cases hin : a + 1 ≤ x ∧ x < a + 1 + r.length
      · rw [if_pos hin, if_pos (by omega), show x - a = x - (a + 1) + 1 by omega, List.getElem?_cons_succ]
      · rw [if_neg hin, if_neg hx, if_neg (by omega)]

/-! ## Stores to tile store (R93) -/

/-- A path of Table 5.1, as a mask bit. -/
def IsPath (q : Nat) : Prop := q ∈ [pathP, pathC, pathX, pathN]

theorem isPath_iff (q : Nat) : IsPath q ↔ q = 1 ∨ q = 2 ∨ q = 4 ∨ q = 8 := by
  simp [IsPath, pathP, pathC, pathX, pathN]

/-- A mask without a path holds no path that it did not hold. -/
theorem hasPath_dropPath {m p q : Nat} (hp : IsPath p) (hq : IsPath q) (h : hasPath m p = false) :
    hasPath (dropPath m q) p = false := by
  unfold dropPath
  split
  · rename_i hm
    simp only [hasPath, decide_eq_true_eq, decide_eq_false_iff_not] at *
    rcases (isPath_iff p).1 hp with rfl | rfl | rfl | rfl <;> rcases (isPath_iff q).1 hq with rfl | rfl | rfl | rfl <;> omega
  · exact h

/-- The mask of the paths that may miss a path's write does not hold that path. -/
theorem hasPath_others {p : Nat} (hp : IsPath p) : hasPath (15 - p) p = false := by
  rcases (isPath_iff p).1 hp with rfl | rfl | rfl | rfl <;> decide

theorem hasPath_dropPaths {m d p : Nat} (hp : IsPath p) (h : hasPath m p = false) : hasPath (dropPaths m d) p = false := by
  have one : ∀ q k, IsPath q → hasPath k p = false → hasPath (if hasPath d q then dropPath k q else k) p = false := by
    intro q k hq hk
    split
    · exact hasPath_dropPath hp hq hk
    · exact hk
  have all : ∀ q ∈ [pathP, pathC, pathX, pathN], IsPath q := fun q hq => hq
  simp only [dropPaths, List.foldl_cons, List.foldl_nil]
  exact one _ _ (all _ (by simp)) (one _ _ (all _ (by simp)) (one _ _ (all _ (by simp)) (one _ _ (all _ (by simp)) h)))

/-- No write of a list may be missed by a path. -/
def SeenBy (path : Nat) (l : List Stale) : Prop := ∀ e ∈ l, hasPath e.paths path = false

theorem SeenBy.orderUpTo {path : Nat} {l : List Stale} (hp : IsPath path) (hit : Stale → Bool) (drop : Nat) (h : SeenBy path l) :
    SeenBy path (orderUpTo hit drop l) := by
  induction l with
  | nil => intro e he; simp [Machine.orderUpTo] at he
  | cons e r ih =>
    have hr : SeenBy path (Machine.orderUpTo hit drop r) := ih (fun f hf => h f (List.mem_cons_of_mem _ hf))
    have he : hasPath e.paths path = false := h e List.mem_cons_self
    have hm : hasPath (if hit e || r.any (fun f => decide (f.gran = e.gran) && hit f) then dropPaths e.paths drop else e.paths) path
        = false := by
      split
      · exact hasPath_dropPaths hp he
      · exact he
    simp only [Machine.orderUpTo]
    by_cases h0 : (if hit e || r.any (fun f => decide (f.gran = e.gran) && hit f) then dropPaths e.paths drop else e.paths) = 0
    · rw [if_pos h0]; exact hr
    · rw [if_neg h0]
      intro f hf
      rcases List.mem_cons.1 hf with rfl | hf
      · exact hm
      · exact hr f hf

/-- The writing path has seen every write of the list with its own put last. -/
theorem SeenBy.pushWrite {path : Nat} {l : List Stale} (hp : IsPath path) (h : SeenBy path l) (g op : Nat) (old : List Byte)
    (mx : Bool) : SeenBy path (pushWrite l g path op old mx) := by
  unfold Machine.pushWrite
  by_cases hc : path = pathC
  · rw [if_pos hc]
    intro e he
    rcases List.mem_append.1 he with he | he
    · exact h e (List.mem_filter.1 he).1
    · cases mx with
      | false => simp at he
      | true =>
        rw [if_pos rfl, List.mem_singleton] at he
        have hx : hasPath pathX pathC = false := by decide
        rw [he, hc]
        exact hx
  · rw [if_neg hc]
    have hmap : SeenBy path (l.map (fun e => if e.gran = g then { e with seen := e.seen ||| path } else e)) := by
      intro e he
      obtain ⟨f, hf, rfl⟩ := List.mem_map.1 he
      have := h f hf
      split <;> exact this
    intro e he
    rcases List.mem_append.1 he with he | he
    · exact hmap.orderUpTo hp _ _ e he
    · rw [List.mem_singleton.1 he]; exact hasPath_others hp

/-- The bytes of a list from address a on that fall in granule g. -/
def granPart (a : Nat) (bytes : List Byte) (g : Nat) : List Byte :=
  (bytes.drop (max a (16 * g) - a)).take (min (a + bytes.length) (16 * g + 16) - max a (16 * g))

theorem granPart_length (a : Nat) (bytes : List Byte) (g : Nat) :
    (granPart a bytes g).length = min (a + bytes.length) (16 * g + 16) - max a (16 * g) := by
  rw [granPart, List.length_take, List.length_drop]
  omega

theorem granPart_getElem? {a : Nat} {bytes : List Byte} {g k : Nat} (h : k < (granPart a bytes g).length) :
    (granPart a bytes g)[k]? = bytes[max a (16 * g) - a + k]? := by
  rw [granPart_length] at h
  rw [granPart, List.getElem?_take_of_lt h, List.getElem?_drop]

theorem overGran_length (old : List Byte) (a : Nat) (bytes : List Byte) (g : Nat) : (overGran old a bytes g).length = 16 := by
  simp [overGran]

/-- What the write of a granule can do: some bytes of that granule change, and the marks of racing writes. -/
theorem tsWriteGran_eq (s : State) (r path op a : Nat) (bytes : List Byte) (g : Nat) :
    ∃ m st, tsWriteGran s r path op a bytes g = ({ s with mem := m } : State).modTile r (fun t => t.withStale st) ∧
      ∀ b, b < tsAddr r (16 * g) ∨ tsAddr r (16 * g) + 16 ≤ b → memGet m b = memGet s.mem b := by
  cases hf : (s.tile r).stale.find? (fun e => decide (e.gran = g) && hasPath e.paths path) with
  | none =>
    refine ⟨memWrite s.mem (tsAddr r (max a (16 * g))) (granPart a bytes g), pushWrite (s.tile r).stale g path op
      (memRead s.mem (tsAddr r (16 * g)) 16) ((s.tile r).plane0.mxReads || (s.tile r).plane1.mxReads),
      by simp only [tsWriteGran, hf]; rfl, fun b hb => ?_⟩
    refine memGet_memWrite_out _ _ ?_
    rw [granPart_length]
    unfold tsAddr at *
    omega
  | some e =>
    by_cases hr : Config.raceOld s.tick e.key = true
    · exact ⟨s.mem, underWrite (s.tile r).stale e path op (overGran e.old a bytes g),
        by simp only [tsWriteGran, hf, hr]; rfl, fun b _ => rfl⟩
    · refine ⟨memWrite s.mem (tsAddr r (16 * g)) (overGran e.old a bytes g), pushWrite (s.tile r).stale g path op
        (memRead s.mem (tsAddr r (16 * g)) 16) ((s.tile r).plane0.mxReads || (s.tile r).plane1.mxReads),
        by simp only [tsWriteGran, hf, hr]; rfl, fun b hb => ?_⟩
      refine memGet_memWrite_out _ _ ?_
      rwa [overGran_length]

/-- A path that has seen every write writes its own bytes, and has seen every write still. -/
theorem tsWriteGran_of_allSeen {s : State} {r path : Nat} (hp : IsPath path) (h : AllSeen s r path) (op a : Nat) (bytes : List Byte)
    (g : Nat) : (tsWriteGran s r path op a bytes g).mem = memWrite s.mem (tsAddr r (max a (16 * g))) (granPart a bytes g) ∧
      AllSeen (tsWriteGran s r path op a bytes g) r path := by
  have hf : (s.tile r).stale.find? (fun e => decide (e.gran = g) && hasPath e.paths path) = none := by
    rw [List.find?_eq_none]
    intro e he
    simp [h e he]
  have e : tsWriteGran s r path op a bytes g =
      ({ s with mem := memWrite s.mem (tsAddr r (max a (16 * g))) (granPart a bytes g) } : State).modTile r (fun t =>
        t.withStale (pushWrite t.stale g path op (memRead s.mem (tsAddr r (16 * g)) 16) (t.plane0.mxReads || t.plane1.mxReads))) := by
    simp only [tsWriteGran, hf]
    rfl
  rw [e]
  refine ⟨rfl, ?_⟩
  unfold AllSeen
  rw [State.modTile_tile]
  exact SeenBy.pushWrite hp h g op _ _

/-- Writes of the first n granules of a byte list, in ascending order. -/
def writeGrans (s : State) (r path op a : Nat) (bytes : List Byte) : Nat → State
  | 0 => s
  | n + 1 => tsWriteGran (writeGrans s r path op a bytes n) r path op a bytes (a / 16 + n)

/-- A store writes each granule that its bytes touch. -/
theorem tsStore_eq (s : State) (r path op a : Nat) {bytes : List Byte} (h : 0 < bytes.length) :
    tsStore s r path op a bytes = writeGrans s r path op a bytes ((a + bytes.length - 1) / 16 + 1 - a / 16) := by
  have fold : ∀ n, (List.range n).foldl (fun s i => tsWriteGran s r path op a bytes (a / 16 + i)) s =
      writeGrans s r path op a bytes n := by
    intro n
    induction n with
    | zero => rfl
    | succ n ih => rw [List.range_succ, List.foldl_append, ih]; rfl
  have hne : bytes.isEmpty = false := by cases bytes <;> simp_all
  rw [tsStore, hne, fold]
  rfl

/-- The write of a granule leaves what a store leaves. -/
theorem tsWriteGran_frame (s : State) (path op a : Nat) (bytes : List Byte) (g : Nat) :
    StoreFrame s (tsWriteGran s s.cur path op a bytes g) := by
  obtain ⟨m, st, e, -⟩ := tsWriteGran_eq s s.cur path op a bytes g
  rw [e]
  refine ⟨(sameOutside_modTile ({ s with mem := m } : State) _).1, rfl, rfl, ?_⟩
  have ht := modTile_curTile ({ s with mem := m } : State) (fun t => t.withStale st)
  rw [ht]
  rfl

theorem writeGrans_frame (s : State) (path op a : Nat) (bytes : List Byte) (n : Nat) :
    StoreFrame s (writeGrans s s.cur path op a bytes n) := by
  induction n with
  | zero => exact ⟨(SameOutside.refl s).1, rfl, rfl, rfl⟩
  | succ n ih =>
    have step := tsWriteGran_frame (writeGrans s s.cur path op a bytes n) path op a bytes (a / 16 + n)
    rw [ih.1.cur_eq] at step
    exact ih.trans step

/-- Memory outside the granules written is as before. -/
theorem writeGrans_mem_out (s : State) (r path op a : Nat) (bytes : List Byte) (n : Nat) {b : Nat}
    (h : b < tsAddr r (a / 16 * 16) ∨ tsAddr r (a / 16 * 16) + 16 * n ≤ b) :
    memGet (writeGrans s r path op a bytes n).mem b = memGet s.mem b := by
  induction n with
  | zero => rfl
  | succ n ih =>
    obtain ⟨m, st, e, hm⟩ := tsWriteGran_eq (writeGrans s r path op a bytes n) r path op a bytes (a / 16 + n)
    have hmem : (writeGrans s r path op a bytes (n + 1)).mem = m := by rw [writeGrans, e]; rfl
    unfold tsAddr at *
    rw [hmem, hm b (by omega), ih (by omega)]

/-- Granule by granule, a path that has seen every write changes the bytes that it names, to those given, and no others. -/
theorem writeGrans_of_allSeen {s : State} {r path : Nat} (hp : IsPath path) (h : AllSeen s r path) (op a : Nat) (bytes : List Byte)
    (n : Nat) : AllSeen (writeGrans s r path op a bytes n) r path ∧ (s.Safe → (writeGrans s r path op a bytes n).Safe) ∧
      SameMemBut s (writeGrans s r path op a bytes n) (tsAddr r a) bytes.length ∧
      (s.Safe → ∀ k < bytes.length, (a + k) / 16 < a / 16 + n →
        memGet (writeGrans s r path op a bytes n).mem (tsAddr r a + k) = (bytes[k]?).getD 0) := by
  induction n with
  | zero => exact ⟨h, id, fun _ _ => rfl, fun _ k hk hg => absurd hg (by omega)⟩
  | succ n ih =>
    obtain ⟨hseen, hsafe, hout, hin⟩ := ih
    obtain ⟨hmem, hseen'⟩ := tsWriteGran_of_allSeen hp hseen op a bytes (a / 16 + n)
    have hlen := granPart_length a bytes (a / 16 + n)
    refine ⟨hseen', fun hs => ?_, fun b hb => ?_, fun hs k hk hg => ?_⟩
    · rw [writeGrans, State.Safe, hmem]
      exact wf_memWrite (hsafe hs)
    · rw [writeGrans, hmem, memGet_memWrite_out _ _ (by unfold tsAddr at *; omega)]
      exact hout b hb
    · rw [writeGrans, hmem]
      by_cases hlast : (a + k) / 16 = a / 16 + n
      · have hlt : tsAddr r a + k - tsAddr r (max a (16 * (a / 16 + n))) < (granPart a bytes (a / 16 + n)).length := by
          unfold tsAddr; omega
        rw [memGet_memWrite_in (hsafe hs) (by unfold tsAddr; omega) (by unfold tsAddr at *; omega), granPart_getElem? hlt]
        congr 2
        unfold tsAddr
        omega
      · rw [memGet_memWrite_out _ _ (by unfold tsAddr; omega)]
        exact hin hs k hk (by omega)

/-- R91, R93: what a store of bytes at a physical address leaves, and what it changes where no write races with it. -/
theorem tsStore_spec (s : State) {path : Nat} (hp : IsPath path) (op a : Nat) {bytes : List Byte} (h : 0 < bytes.length) :
    StoreFrame s (tsStore s s.cur path op a bytes) ∧ SameGransBut s (tsStore s s.cur path op a bytes) s.cur a bytes.length ∧
      (AllSeen s s.cur path → SameMemBut s (tsStore s s.cur path op a bytes) (tsAddr s.cur a) bytes.length ∧
        (s.Safe → ∀ k < bytes.length, memGet (tsStore s s.cur path op a bytes).mem (tsAddr s.cur a + k) = (bytes[k]?).getD 0)) := by
  rw [tsStore_eq _ _ _ _ _ h]
  refine ⟨writeGrans_frame _ _ _ _ _ _, fun b hb => writeGrans_mem_out _ _ _ _ _ _ _ (by omega), fun hs => ?_⟩
  obtain ⟨-, -, hout, hin⟩ := writeGrans_of_allSeen hp hs op a bytes ((a + bytes.length - 1) / 16 + 1 - a / 16)
  exact ⟨hout, fun hw k hk => hin hw k hk (by omega)⟩

end Sys2Proof.Machine
end

section
/-! PROOFS. Loads and stores (R18 to R20, R44, R110, R221, R222). -/

namespace Sys2Proof.Machine

/-! ## Addresses -/

/-- R157: an immediate, sign-extended from the width it has. -/
theorem wrap64_sval {lo hi : Nat} {i : Imm} (h : i.wf lo hi = true) (hlo : 0 < lo) : wrap64 (i.sval lo hi) =
    if i.lent then (BitVec.ofNat (lo + hi) i.raw).signExtend 64 else (BitVec.ofNat lo i.raw).signExtend 64 := by
  have key : ∀ n, 0 < n → i.raw < 2 ^ n →
      wrap64 (if i.raw < 2 ^ (n - 1) then (i.raw : Int) else (i.raw : Int) - (2 ^ n : Nat)) = (BitVec.ofNat n i.raw).signExtend 64 := by
    intro n hn hr
    rw [← wrap64_sextN i.raw hn, sextN, Nat.mod_eq_of_lt hr]
  unfold Imm.wf at h
  unfold Imm.sval
  cases hl : i.lent <;> simp only [hl, Bool.false_eq_true, if_true, if_false, decide_eq_true_eq] at h ⊢
  · exact key lo hlo h
  · exact key (lo + hi) (by omega) h

/-- R221: the offset of LD and ST counts in accesses. -/
theorem ldAddr_eq {f : ML} (x : Word) (h : (Instr.ld f).wf = true) : ldAddr x f = (x + (if f.off.lent
    then (BitVec.ofNat 16 f.off.raw).signExtend 64 else (BitVec.ofNat 8 f.off.raw).signExtend 64) *
      BitVec.ofNat 64 (2 ^ (f.w % 4))).toNat := by
  have hw : f.off.wf 8 8 = true := by
    simp only [Instr.wf, ML.wf, Bool.and_eq_true] at h
    exact h.1.2
  have hm : wrap64 (f.off.sval 8 8 * (wSize f.w : Nat)) = wrap64 (f.off.sval 8 8) * BitVec.ofNat 64 (wSize f.w) := by
    rw [wrap64, BitVec.ofInt_mul, BitVec.ofInt_natCast]
    rfl
  rw [ldAddr, taskAddr, hm, wrap64_sval hw (by omega)]
  rfl

/-- R222: the offset of VLD and VST counts in bytes. -/
theorem vldAddr_eq {f : MV} (x : Word) (h : (Instr.vld f).wf = true) : vldAddr x f = (x + (if f.off.lent
    then (BitVec.ofNat 18 f.off.raw).signExtend 64 else (BitVec.ofNat 11 f.off.raw).signExtend 64)).toNat := by
  have hw : f.off.wf 11 7 = true := by
    simp only [Instr.wf, MV.wf, Bool.and_eq_true] at h
    exact h.2
  rw [vldAddr, taskAddr, wrap64_sval hw (by omega)]

/-! ## Checks -/

theorem needAlign_ok {t n : Nat} (h : t % n = 0) : needAlign t n = .ok () := by
  simp [needAlign, need, h]

theorem needRange_ok {s : State} {t n : Nat} (h : t + n ≤ tsLimit s) : needRange s t n = .ok () := by
  simp [needRange, need, h]

/-- A word that runs and finds no room in the escrow leaves the bundle so (R44). -/
theorem runWord_overflow {slot g : Nat} {s : State} {body : State → Chk State} (h : Runs s g)
    (hb : body s = .error .overflow) :
    runWord slot g s body = .next { s with bundle := { s.bundle with status := .overflow } } := by
  simp [runWord, h.1, h.2, hb]

/-- Of a word's body only what it does in the state counts. -/
theorem runWord_congr {slot g : Nat} {s : State} {body body' : State → Chk State} (h : body s = body' s) :
    runWord slot g s body = runWord slot g s body' := by
  simp only [runWord, h]

/-! ## What an M-slot write does -/

theorem mWrite_plain {s : State} {t : Nat} {bytes : List Byte} (hg : mGate s (tsPhys s t) bytes.length = .ok ())
    (hb : guarded s s.cur (tsPhys s t) bytes.length = false) (hs : s.ctx.spec = none) : mWrite s t bytes =
      .ok (tsStore { s with nextId := s.nextId + 1 } s.cur pathP s.nextId (tsPhys s t) bytes) := by
  simp [mWrite, hg, hb, specOpen, hs, orStall, freshId, bind, Except.bind]

theorem mWrite_spec {s : State} {t : Nat} {bytes : List Byte} (hg : mGate s (tsPhys s t) bytes.length = .ok ())
    (hb : guarded s s.cur (tsPhys s t) bytes.length = false) (hs : s.ctx.spec ≠ none) : mWrite s t bytes =
      if escRoom s.ctx (tsPhys s t) bytes.length then .ok (escStore s s.cur s.ctxP (tsPhys s t) bytes) else .error .overflow := by
  have ho : s.ctx.spec.isSome = true := Option.isSome_iff_ne_none.2 hs
  simp [mWrite, hg, hb, specOpen, ho, orStall, overflowW, bind, Except.bind]

/-- R44: a store to escrow changes the speculation alone, and every path of the plane reads its bytes from there (R110). -/
theorem escStore_spec {s : State} (a : Nat) (bytes : List Byte) (hs : s.ctx.spec ≠ none) :
    EscrowFrame s (escStore s s.cur s.ctxP a bytes) ∧ ∀ k < bytes.length,
      tsByte (escStore s s.cur s.ctxP a bytes) s.cur s.ctxP pathP (a + k) = (bytes[k]?).getD 0 := by
  obtain ⟨sp, hsp⟩ := Option.ne_none_iff_exists'.1 hs
  have hp : (s.plane s.cur s.ctxP).spec = some sp := hsp
  constructor
  · exact (specMoves_modPlane s _ (by simp only [hsp]; rfl) (fun hn => absurd hn hs)).escrowFrame
  · intro k hk
    have hpl : ((escStore s s.cur s.ctxP a bytes).plane s.cur s.ctxP).spec =
        some { sp with escrow := escWrite sp.escrow a bytes } := by
      rw [escStore, State.modPlane_plane]
      simp only [hp]
    refine tsByte_of_escByte pathP hpl ?_
    rw [escByte_escWrite, if_pos (by omega), Nat.add_sub_cancel_left]
    simp [hk]

/-- A store's word, once its operands are read and its checks have passed: outside a speculation its bytes stand in tile store,
under one they stand in the escrow, and without room there the bundle stalls. P says what byte k must be. -/
theorem exec_store {i : Instr} {s : State} {g t n : Nat} {bytes : List Byte} (P : Nat → Byte → Prop) (hrun : Runs s g)
    (hi : exec i s = runWord 2 g s (fun s => mWrite s t bytes)) (hlen : bytes.length = n) (hn : 0 < n)
    (hP : ∀ k < n, P k ((bytes[k]?).getD 0)) (hgate : mGate s (tsPhys s t) n = .ok ())
    (hfree : guarded s s.cur (tsPhys s t) n = false) :
    (s.ctx.spec = none → ∃ u, exec i s = .next u ∧ StoreFrame s u ∧ SameGransBut s u s.cur (tsPhys s t) n ∧
      (AllSeen s s.cur pathP → SameMemBut s u (taskByte s t) n ∧
        (s.Safe → ∀ k < n, P k (memGet u.mem (taskByte s t + k))))) ∧
    (s.ctx.spec ≠ none → escRoom s.ctx (tsPhys s t) n = true → ∃ u, exec i s = .next u ∧ EscrowFrame s u ∧
      ∀ k < n, P k (tsByte u s.cur s.ctxP pathP (tsPhys s t + k))) ∧
    (s.ctx.spec ≠ none → escRoom s.ctx (tsPhys s t) n = false → Overflows i s) := by
  subst hlen
  refine ⟨fun hs => ?_, fun hs hroom => ?_, fun hs hroom => ?_⟩
  · refine ⟨_, by rw [hi, runWord_ok hrun (mWrite_plain hgate hfree hs)], ?_⟩
    obtain ⟨hf, hg, ha⟩ :=
      tsStore_spec { s with nextId := s.nextId + 1 } (path := pathP) (by simp [IsPath]) s.nextId (tsPhys s t) hn
    have hid : StoreFrame s { s with nextId := s.nextId + 1 } := ⟨(SameOutside.refl s).1, rfl, rfl, rfl⟩
    refine ⟨hid.trans hf, hg, fun hseen => ⟨(ha hseen).1, fun hsafe k hk => ?_⟩⟩
    have hb : memGet _ (taskByte s t + k) = _ := (ha hseen).2 hsafe k hk
    rw [hb]
    exact hP k hk
  · obtain ⟨hf, hb⟩ := escStore_spec (tsPhys s t) bytes hs
    refine ⟨_, by rw [hi, runWord_ok hrun (by rw [mWrite_spec hgate hfree hs, if_pos hroom])], hf, fun k hk => ?_⟩
    rw [hb k hk]
    exact hP k hk
  · rw [Overflows, hi]
    exact runWord_overflow hrun (by rw [mWrite_spec hgate hfree hs, hroom]; rfl)

/-! ## Bytes of registers -/

/-- A byte of a word, as its number's. -/
theorem leBytes_word {n k : Nat} (v : Word) (h : k < n) : ((leBytes n v.toNat)[k]?).getD 0 = v.extractLsb' (8 * k) 8 := by
  rw [leBytes_getElem? _ h, BitVec.extractLsb', Nat.shiftRight_eq_div_pow]
  rfl

/-- A byte of a vector register, as its element. -/
theorem vBytes_elem {k : Nat} (v : VReg) (h : k < 128) : (((vBytes v 0 128)[k]?).getD 0).toNat = elem 1 k v := by
  rw [vBytes, leBytes_getElem? _ h, Option.getD_some, BitVec.toNat_ofNat, elem]
  simp

/-- A value as wide as its bytes is their number. -/
theorem toNat_ofNat_leNat {l : List Byte} {w : Nat} (h : 8 * l.length = w) : (BitVec.ofNat w (leNat l)).toNat = leNat l := by
  subst h
  rw [BitVec.toNat_ofNat, Nat.mod_eq_of_lt (leNat_lt l)]

/-- A vector register from 128 bytes holds them as its elements. -/
theorem elem_vOfBytes {l : List Byte} (h : l.length = 128) (k : Nat) : elem 1 k (vOfBytes l) = ((l[k]?).getD 0).toNat := by
  rw [← leNat_byte, elem, vOfBytes, toNat_ofNat_leNat (by omega)]

/-- Table 11.2: the value that LD writes, from any word whose low bytes are those read. -/
theorem ldValue_eq {w : Nat} {l : List Byte} {b : Word} (hl : l.length = wSize w)
    (h : ∀ k < wSize w, b.extractLsb' (8 * k) 8 = (l[k]?).getD 0) : ldValue w l =
      (if w < 4 then (b.extractLsb' 0 (8 * wSize w)).zeroExtend 64 else (b.extractLsb' 0 (8 * wSize w)).signExtend 64) := by
  have hle : leNat l = b.toNat % 2 ^ (8 * wSize w) := by
    rw [← hl]
    refine leNat_eq_mod (fun k hk => ?_)
    rw [← h k (hl ▸ hk), BitVec.extractLsb'_toNat, Nat.shiftRight_eq_div_pow]
  have hx : BitVec.ofNat (8 * wSize w) (leNat l) = b.extractLsb' 0 (8 * wSize w) := by
    apply BitVec.eq_of_toNat_eq
    rw [hle, BitVec.toNat_ofNat, Nat.mod_mod, BitVec.extractLsb'_toNat, Nat.shiftRight_zero]
  unfold ldValue
  split
  · apply BitVec.eq_of_toNat_eq
    rw [BitVec.toNat_ofNat, BitVec.zeroExtend, BitVec.toNat_setWidth, BitVec.extractLsb'_toNat, Nat.shiftRight_zero, hle]
  · have hpos : 0 < 8 * wSize w := by have : 0 < wSize w := Nat.two_pow_pos _; omega
    rw [wrap64_sextN _ hpos, hx]

/-! ## The words -/

section
variable {f : ML} {s : State} {x : Word} (hx : readX s f.xa = .ok x) (hal : ldAddr x f % wSize f.w = 0)
  (hlim : ldAddr x f + wSize f.w ≤ tsLimit s)
include hx hal hlim

/-- R221: LD writes the value of the bytes that it reads. -/
theorem exec_ld (hrun : Runs s f.g) (hgate : mGate s (tsPhys s (ldAddr x f)) (wSize f.w) = .ok ()) :
    exec (.ld f) s = .next (setX (afterRead s (ldAddr x f) (wSize f.w)) f.rd
      (ldValue f.w (tsBytes s s.cur s.ctxP pathP (tsPhys s (ldAddr x f)) (wSize f.w)))) := by
  have e : exec (.ld f) s = execLd f s := rfl
  rw [e, execLd]
  exact runWord_ok hrun (by simp [hx, needAlign_ok hal, needRange_ok hlim, mRead_ok hgate, bind, Except.bind])

/-- R221: ST writes the low bytes of its register. -/
theorem exec_st {v : Word} (hv : readX s f.rd = .ok v) :
    exec (.st f) s = runWord 2 f.g s (fun s => mWrite s (ldAddr x f) (leBytes (wSize f.w) v.toNat)) := by
  have e : exec (.st f) s = execSt f s := rfl
  rw [e, execSt]
  exact runWord_congr (by simp [hx, hv, needAlign_ok hal, needRange_ok hlim, bind, Except.bind])

end

section
variable {f : MV} {s : State} {x : Word} {nd : Nat} (hd : checkV s f.vd = .ok nd) (hx : readX s f.xa = .ok x)
  (hal : vldAddr x f % 64 = 0) (hlim : vldAddr x f + 128 ≤ tsLimit s)
include hd hx hal hlim

/-- R222: VLD writes the 128 bytes that it reads. -/
theorem exec_vld (hrun : Runs s f.g) (hgate : mGate s (tsPhys s (vldAddr x f)) 128 = .ok ()) :
    exec (.vld f) s = .next (setV (afterRead s (vldAddr x f) 128) nd
      (vOfBytes (tsBytes s s.cur s.ctxP pathP (tsPhys s (vldAddr x f)) 128))) := by
  have e : exec (.vld f) s = execVld f s := rfl
  rw [e, execVld]
  exact runWord_ok hrun (by simp [hd, hx, needAlign_ok hal, needRange_ok hlim, mRead_ok hgate, bind, Except.bind])

/-- R222: VST writes its register's 128 bytes. -/
theorem exec_vst {v : VReg} (hv : readV s nd = .ok v) :
    exec (.vst f) s = runWord 2 f.g s (fun s => mWrite s (vldAddr x f) (vBytes v 0 128)) := by
  have e : exec (.vst f) s = execVst f s := rfl
  rw [e, execVst]
  exact runWord_congr (by simp [hd, hx, hv, needAlign_ok hal, needRange_ok hlim, bind, Except.bind])

end

/-- Where no write races and no speculation is open, the bytes read are those of memory. -/
theorem tsBytes_of_plain {s : State} (h : Plain s) (t : Nat) {n k : Nat} (hk : k < n) :
    ((tsBytes s s.cur s.ctxP pathP (tsPhys s t) n)[k]?).getD 0 = memGet s.mem (taskByte s t + k) := by
  rw [tsBytes_getElem? _ _ _ _ _ hk, Option.getD_some, tsByte_of_plain h, taskByte_add]

/-- Settles O33. A load reads its bytes through mRead and a store writes them through mWrite, so that what is left to say is how a
register's value and its bytes correspond. -/
theorem loadsAndStores : Obligations.LoadsAndStores := by
  unfold Obligations.LoadsAndStores
  refine ⟨fun x f => ldAddr_eq x, fun x f => vldAddr_eq x, fun f s x n hrun hx hn hal hlim hgate => ?scalar,
    fun f s x nd hrun hd hx hal hlim hgate => ?vector⟩
  case scalar =>
    obtain rfl : n = wSize f.w := hn
    refine ⟨⟨_, _, exec_ld hx hal hlim hrun hgate, afterRead_readOnly _ _ _, fun hp b hb => ?_⟩, fun v hv hfree => ?_⟩
    · refine ldValue_eq (tsBytes_length _ _ _ _ _ _) (fun k hk => ?_)
      rw [hb k hk, tsBytes_of_plain hp _ hk]
    · exact exec_store (fun k b => b = v.extractLsb' (8 * k) 8) hrun (exec_st hx hal hlim hv) (leBytes_length _ _)
        (Nat.two_pow_pos _) (fun k hk => leBytes_word v hk) hgate hfree
  case vector =>
    refine ⟨⟨_, _, exec_vld hd hx hal hlim hrun hgate, afterRead_readOnly _ _ _, fun hp k hk => ?_⟩, fun v hv hfree => ?_⟩
    · rw [elem_vOfBytes (tsBytes_length _ _ _ _ _ _), tsBytes_of_plain hp _ hk]
    · exact exec_store (fun k b => b.toNat = elem 1 k v) hrun (exec_vst hd hx hal hlim hv) (leBytes_length _ _)
        (by omega) (fun k hk => vBytes_elem v hk) hgate hfree

end Sys2Proof.Machine
end

section
/-! PROOFS. The time of a step (R34, R35, R289, R310). -/

namespace Sys2Proof.Machine

/-- The registers g are the registers r but for CYCLE and HBCNT. -/
def SameButClock (r g : Regs) : Prop := ({ g with cycle := r.cycle, hbcnt := r.hbcnt } : Regs) = r

theorem SameButClock.refl (r : Regs) : SameButClock r r := rfl

theorem SameButClock.trans {r g h : Regs} (a : SameButClock r g) (b : SameButClock g h) : SameButClock r h := by
  unfold SameButClock at *
  rw [← a, ← b]

/-- A tile through which time has passed: of its levels, banks and registers only CYCLE and HBCNT have moved. -/
def TimePassed (t u : Tile) : Prop :=
  u.mbank = t.mbank ∧ u.monitor = t.monitor ∧ ∀ p, SameButClock (t.pl p).regs (u.pl p).regs

theorem TimePassed.refl (t : Tile) : TimePassed t t := ⟨rfl, rfl, fun _ => rfl⟩

theorem TimePassed.trans {t u v : Tile} (a : TimePassed t u) (b : TimePassed u v) : TimePassed t v :=
  ⟨b.1.trans a.1, b.2.1.trans a.2.1, fun p => (a.2.2 p).trans (b.2.2 p)⟩

/-- A window's start touches the arbiter's values alone. -/
theorem timePassed_newWindow (t : Tile) : TimePassed t t.newWindow := by
  refine ⟨rfl, rfl, fun p => ?_⟩
  by_cases h : p = 0 <;> simp [Tile.pl, h, Tile.newWindow, Tile.windowIf, Plane.windowIf, SameButClock]

/-- R310: the windows that n clk bring. -/
theorem timePassed_passWindows (t : Tile) (n : Nat) : TimePassed t (t.passWindows n) := by
  have fold : ∀ l : List Nat, TimePassed t (l.foldl (fun t _ => t.newWindow) t) := by
    intro l
    induction l using List.reverseRecOn with
    | nil => exact TimePassed.refl t
    | append_singleton l a ih =>
      rw [List.foldl_append]
      exact ih.trans (timePassed_newWindow _)
  unfold Tile.passWindows
  split
  · exact ⟨rfl, rfl, fun p => rfl⟩
  · exact (fold _).trans ⟨rfl, rfl, fun p => rfl⟩

/-- A change of a plane that leaves its registers but CYCLE and HBCNT. -/
theorem timePassed_setPl (t : Tile) (p : Nat) {x : Plane} (h : SameButClock (t.pl p).regs x.regs) : TimePassed t (t.setPl p x) := by
  refine ⟨Tile.setPl_mbank t p x, Tile.setPl_monitor t p x, fun q => ?_⟩
  by_cases hq : p = 0 ↔ q ≠ 0
  · rw [Tile.setPl_pl_ne t x hq]
    exact SameButClock.refl _
  · have e : ∀ u : Tile, u.pl q = u.pl p := fun u => by by_cases h0 : p = 0 <;> simp_all [Tile.pl]
    rw [e, e, Tile.setPl_pl]
    exact h

/-- R34, R289: the clk of a step pass at one tile, and touch neither memory nor another kind of unit. -/
theorem passClk_spec (s : State) (old : Tile) (r n : Nat) :
    (∀ q, TimePassed (s.tile q) ((passClk s old r n).tile q)) ∧ (passClk s old r n).mem = s.mem ∧
      (passClk s old r n).vaults = s.vaults ∧ (passClk s old r n).pkgs = s.pkgs ∧ (passClk s old r n).podTime = s.podTime ∧
      (passClk s old r n).tick = s.tick := by
  have set : ∀ t : Tile, TimePassed (s.tile r) t → ∀ q, TimePassed (s.tile q) ((s.setTile r t).tile q) := by
    intro t ht q
    by_cases hq : q = r
    · subst hq
      rwa [State.setTile_tile]
    · rw [State.setTile_tile_ne s t hq]
      exact TimePassed.refl _
  have win := timePassed_passWindows (s.tile r) n
  generalize hu : passClk s old r n = u
  simp only [passClk] at hu
  split at hu
  · subst hu
    exact ⟨fun q => TimePassed.refl _, rfl, rfl, rfl, rfl, rfl⟩
  · split at hu
    · have mon : TimePassed ((s.tile r).passWindows n) (((s.tile r).passWindows n).setPl old.mtpcPlane
          ((((s.tile r).passWindows n).pl old.mtpcPlane).passMon n)) := timePassed_setPl _ _ (SameButClock.refl _)
      subst hu
      exact ⟨set _ ((win.trans mon).trans ⟨rfl, rfl, fun p => rfl⟩), rfl, rfl, rfl, rfl, rfl⟩
    · split at hu <;> subst hu
      · exact ⟨set _ win, rfl, rfl, rfl, rfl, rfl⟩
      · refine ⟨set _ ?_, rfl, rfl, rfl, rfl, rfl⟩
        split
        · exact win.trans (timePassed_setPl _ _ rfl)
        · exact win

/-- R107: the host's agents write host memory alone. -/
theorem memGet_hostActs (m : List Host.Cell) (tick : Nat) {a : Nat} (h : a < spaceBase 4 0) :
    memGet (hostActs m tick) a = memGet m a := by
  unfold hostActs
  induction Config.hostStores tick generalizing m with
  | nil => rfl
  | cons x l ih =>
    rw [List.foldl_cons, ih]
    refine memGet_memPut_ne _ _ ?_
    unfold hostAddr spaceBase at *
    omega

/-- Settles O22. The clk of a step reach one tile, through passClk, and the host's agents reach host memory. -/
theorem timePasses : Obligations.TimePasses := by
  unfold Obligations.TimePasses
  intro s o
  have key : (∀ q, TimePassed (s.tile q) ((passTime s o).tile q)) ∧ (passTime s o).vaults = s.vaults ∧
      (passTime s o).pkgs = s.pkgs ∧ s.podTime ≤ (passTime s o).podTime ∧ (passTime s o).tick = s.tick + 1 ∧
      ∀ a, a < spaceBase 4 0 → memGet (passTime s o).mem a = memGet s.mem a := by
    cases o with
    | none => exact ⟨fun q => TimePassed.refl _, rfl, rfl, Nat.le_add_right _ _, rfl, fun a h => memGet_hostActs _ _ h⟩
    | some x =>
      obtain ⟨ht, hm, hv, hp, hpod, htick⟩ := passClk_spec s x.2 x.1 (Config.elapsed s.tick)
      refine ⟨ht, hv, hp, hpod.symm.le.trans (Nat.le_add_right _ _), congrArg (· + 1) htick, fun a h => ?_⟩
      exact (memGet_hostActs _ _ h).trans (by rw [hm])
  obtain ⟨ht, hv, hp, hpod, htick, hm⟩ := key
  exact ⟨fun r p => (ht r).2.2 p, htick, hpod, hm, fun r => ⟨(ht r).1, (ht r).2.1⟩, hv, hp⟩

end Sys2Proof.Machine
end

section
/-! PROOFS. ARRIVE, WAIT and WAITF (R36, R37, R40, R41, R43, R122, R191, R192, R282). -/

namespace Sys2Proof.Machine

/-! ## Groups of the launch -/

theorem needGroup_ok {s : State} {n : Nat} {i : Instr} (h : s.ctx.task.bgroups.testBit n = true) : needGroup s n i = .ok () := by
  simp [needGroup, h]

/-- The trap of a word on a group outside BGROUPS (R191): ILLEGAL, with the word. -/
def badGroup (i : Instr) : TrapInfo := { cause := 0x01, info := BitVec.ofNat 64 (i.word % 2 ^ 32) }

theorem needGroup_trap {s : State} {n : Nat} {i : Instr} (h : s.ctx.task.bgroups.testBit n = false) :
    needGroup s n i = .error (.trap (badGroup i)) := by
  simp [needGroup, h, illegal, trapW, cILLEGAL, badGroup]

/-- A group's outcome stands in its launch. -/
theorem groupOut_congr {s t : State} (h : t.launches = s.launches) (num n : Nat) : t.groupOut num n = s.groupOut num n := by
  rw [State.groupOut, State.launchOf, h]
  rfl

/-- An element of a vector after a write of one. -/
theorem getD_setIfInBounds {α : Type} {m : Nat} (v : Vector α m) {n k : Nat} (hk : k < m) (b d : α) :
    ((v.setIfInBounds n b)[k]?).getD d = if k = n then b else (v[k]?).getD d := by
  by_cases h : k = n
  · subst h
    simp [hk]
  · simp [h, Ne.symm h]

/-! ## ARRIVE -/

/-- A tile with other operations that wait for a DUAL partner's. -/
def Tile.withDualq (t : Tile) (l : List (Nat × Nat × DualOp)) : Tile := { t with dualq := l }

@[simp] theorem Tile.withDualq_pl (t : Tile) (l : List (Nat × Nat × DualOp)) (p : Nat) : (t.withDualq l).pl p = t.pl p := rfl

@[simp] theorem Tile.withDualq_ctxPlane (t : Tile) (l : List (Nat × Nat × DualOp)) : (t.withDualq l).ctxPlane = t.ctxPlane := rfl

theorem Tile.withDualq_setPl (t : Tile) (l : List (Nat × Nat × DualOp)) (p : Nat) (x : Plane) :
    (t.withDualq l).setPl p x = (t.setPl p x).withDualq l := by
  by_cases h : p = 0 <;> simp [Tile.setPl, Tile.withDualq, h]

/-- A plane that has made an ARRIVE on group n: its phase bit is inverted, and the ARRIVE is counted. -/
def Plane.flips (pl : Plane) (n : Nat) : Plane :=
  { pl with regs := { pl.regs with ph := pl.regs.ph.setIfInBounds n (!((pl.regs.ph[n]?).getD false)) },
            arrives := pl.arrives.setIfInBounds n ((pl.arrives[n]?).getD 0 + 1) }

/-- A plane with one more signal that waits to leave. -/
def Plane.holding (pl : Plane) (h : Held) : Plane := { pl with held := pl.held ++ [h] }

/-- The signal that an ARRIVE of plane p on group n leaves, of the phase before it (R37). -/
def signalOf (s : State) (r p n : Nat) : Held :=
  { group := n, phase := ((s.plane r p).regs.ph[n]?).getD false, waits := arriveWaits (s.tile r) p }

/-- The plane p of the tile r after an ARRIVE on group n, which takes no signal once it is released (R36, R37, R40). -/
def arrivedPlane (s : State) (r p n : Nat) : Plane :=
  if s.groupOut (s.plane r p).task.launch n ≠ 0 then (s.plane r p).flips n
  else ((s.plane r p).flips n).holding (signalOf s r p n)

/-- An operation that waits for the DUAL partner's stands in the tile's list. -/
theorem pushDual_tile (s : State) (r p : Nat) (op : DualOp) :
    (pushDual s r p op).tile r = (s.tile r).withDualq ((s.tile r).dualq ++ [(p, s.podTime, op)]) := by
  simp [pushDual, Tile.withDualq]

/-- It changes tiles and what is due alone. -/
theorem pushDual_frame (s : State) (r p : Nat) (op : DualOp) : (pushDual s r p op).launches = s.launches ∧
    (pushDual s r p op).mem = s.mem ∧ (pushDual s r p op).bundle = s.bundle ∧ (pushDual s r p op).cur = s.cur := by
  unfold pushDual
  obtain h | h := emitOnce_eq (s.modTile r (fun t => { t with dualq := t.dualq ++ [(p, s.podTime, op)] })) (.dualTimeout r p) <;>
    rw [h] <;> exact ⟨rfl, rfl, rfl, rfl⟩

/-- R36, R37, R39: what an ARRIVE does at its tile. -/
theorem arriveAt_spec (s : State) (r p n : Nat) :
    (∃ q, (arriveAt s r p n).tile r = ((s.tile r).setPl p (arrivedPlane s r p n)).withDualq q) ∧
      (arriveAt s r p n).mem = s.mem ∧ (arriveAt s r p n).bundle = s.bundle ∧ (arriveAt s r p n).cur = s.cur := by
  let flipped := s.modPlane r p (fun pl => { pl with
    regs := { pl.regs with ph := pl.regs.ph.setIfInBounds n (!(((s.plane r p).regs.ph[n]?).getD false)) },
    arrives := pl.arrives.setIfInBounds n ((pl.arrives[n]?).getD 0 + 1) })
  let compared := if (s.plane r p).task.dual then pushDual flipped r p (.arrive n) else flipped
  have htile : ∃ q, compared.tile r = ((s.tile r).setPl p ((s.plane r p).flips n)).withDualq q := by
    have hf : flipped.tile r = (s.tile r).setPl p ((s.plane r p).flips n) := State.modPlane_tile _ _ _ _
    by_cases hd : (s.plane r p).task.dual
    · exact ⟨_, by rw [show compared = _ from if_pos hd, pushDual_tile, hf]⟩
    · exact ⟨((s.tile r).setPl p ((s.plane r p).flips n)).dualq, by rw [show compared = _ from if_neg hd, hf]; rfl⟩
  have hframe : compared.launches = s.launches ∧ compared.mem = s.mem ∧ compared.bundle = s.bundle ∧ compared.cur = s.cur := by
    by_cases hd : (s.plane r p).task.dual
    · rw [show compared = _ from if_pos hd]
      exact pushDual_frame flipped r p (.arrive n)
    · rw [show compared = _ from if_neg hd]
      exact ⟨rfl, rfl, rfl, rfl⟩
  obtain ⟨q, hq⟩ := htile
  obtain ⟨hl, hm, hb, hc⟩ := hframe
  have e : arriveAt s r p n = (if s.groupOut (s.plane r p).task.launch n ≠ 0 then compared
      else emitOnce (compared.modPlane r p (fun pl => pl.holding (signalOf s r p n))) (.arriveSignalRelease r p)) := by
    rw [← groupOut_congr hl]
    rfl
  rw [e]
  by_cases ho : s.groupOut (s.plane r p).task.launch n ≠ 0
  · rw [if_pos ho, arrivedPlane, if_pos ho]
    exact ⟨⟨q, hq⟩, hm, hb, hc⟩
  · rw [if_neg ho, arrivedPlane, if_neg ho]
    refine ⟨⟨q, ?_⟩, by simpa using hm, ?_, by simpa using hc⟩
    · rw [emitOnce_tile, State.modPlane_tile, hq, Tile.withDualq_pl, Tile.setPl_pl, Tile.withDualq_setPl, Tile.setPl_setPl]
    · obtain h | h := emitOnce_eq (compared.modPlane r p (fun pl => pl.holding (signalOf s r p n))) (.arriveSignalRelease r p) <;>
        rw [h] <;> exact hb

theorem exec_arrive_eq (f : GB) (s : State) : exec (.arrive f) s = execArrive f s := rfl

/-- Settles O12. The checks of the group and of the speculation, and then what an ARRIVE does at its tile. -/
theorem arriveWord : Obligations.ArriveWord := by
  unfold Obligations.ArriveWord
  intro f s hwf hrun
  have hn : f.n < 4 := by
    simp only [GB.wf, decide_eq_true_eq] at hwf
    omega
  refine ⟨fun hg => ?_, fun hg hs => ?_, fun hg hs => ?_⟩
  · rw [exec_arrive_eq, execArrive]
    exact runWord_trap (t := badGroup (.arrive f)) hrun (by simp [needGroup_trap hg, bind, Except.bind])
  · rw [exec_arrive_eq, execArrive]
    exact runWord_stall hrun (by simp [needGroup_ok hg, noSpec_stall hs, bind, Except.bind])
  · let u := s.modCtx (fun p => { p with rollbacks := 0 })
    have hexec : exec (.arrive f) s = .next (arriveAt u s.cur s.ctxP f.n) := by
      rw [exec_arrive_eq, execArrive]
      exact runWord_ok hrun (by simp [needGroup_ok hg, noSpec_ok hs, bind, Except.bind, u])
    have hu : u.plane s.cur s.ctxP = { s.ctx with rollbacks := 0 } := State.modPlane_plane _ _ _ _
    obtain ⟨⟨q, ht⟩, hm, hb, hc⟩ := arriveAt_spec u s.cur s.ctxP f.n
    have hctx : (arriveAt u s.cur s.ctxP f.n).ctx = arrivedPlane u s.cur s.ctxP f.n := by
      have hcur : (arriveAt u s.cur s.ctxP f.n).cur = s.cur := hc
      have hp : (arriveAt u s.cur s.ctxP f.n).ctxP = s.ctxP := by
        rw [State.ctxP, State.curTile, hcur, ht, Tile.withDualq_ctxPlane, Tile.setPl_ctxPlane]
        exact State.modCtx_ctxP s _
      rw [State.ctx, hp, State.curTile, hcur, ht, Tile.withDualq_pl, Tile.setPl_pl]
    refine ⟨_, hexec, hm, hb, ?_⟩
    have hout : u.groupOut (u.plane s.cur s.ctxP).task.launch f.n = s.groupOut s.ctx.task.launch f.n := by rw [hu]; rfl
    have hph : ∀ k < 4, ((s.regs.ph.setIfInBounds f.n (!((s.regs.ph[f.n]?).getD false)))[k]?).getD false =
        if k = f.n then !((s.regs.ph[k]?).getD false) else (s.regs.ph[k]?).getD false := by
      intro k hk
      rw [getD_setIfInBounds _ hk]
      by_cases h : k = f.n
      · rw [if_pos h, if_pos h, h]
      · rw [if_neg h, if_neg h]
    rw [State.regs, hctx, arrivedPlane, hout, hu]
    by_cases ho : s.groupOut s.ctx.task.launch f.n ≠ 0
    · rw [if_pos ho]
      exact ⟨rfl, rfl, hph, rfl, fun h => absurd h ho, fun _ => rfl⟩
    · rw [if_neg ho]
      exact ⟨rfl, rfl, hph, rfl, fun _ => ⟨arriveWaits (u.tile s.cur) s.ctxP, by rw [signalOf, hu]; rfl⟩, fun h => absurd h ho⟩

/-! ## WAIT -/

theorem exec_wait_eq (f : GB) (s : State) : exec (.wait f) s = execWait f s := rfl

/-- R36, R40: when a WAIT completes. -/
theorem waitDone_iff (s : State) (n : Nat) : waitDone s n = true ↔ ∀ l, s.launchOf s.ctx.task.launch = some l →
    ((l.trees[n]?).getD {}).out ≠ 0 ∨ (s.ctx.arrives[n]?).getD 0 ≤ ((l.trees[n]?).getD {}).done := by
  unfold waitDone
  cases h : s.launchOf s.ctx.task.launch with
  | none => simp
  | some l => simp

/-- R41, R43: what a speculation at a WAIT needs. -/
theorem maySpeculate_iff (s : State) (n : Nat) : maySpeculate s n = true ↔ s.mon = false ∧ s.ctx.task.specs.testBit n = true ∧
    s.ctx.task.specmax ≠ 0 ∧ s.ctx.spec = none ∧ s.ctx.rollbacks < s.ctx.task.specmax ∧ s.ctx.plain ≠ some s.bundle.start := by
  simp only [maySpeculate, Bool.and_eq_true, Bool.not_eq_true', decide_eq_true_eq, Option.isNone_iff_eq_none, and_assoc]

/-- The registers with a speculation counted in SPECST (R41). -/
def Regs.specCounted (r : Regs) : Regs := { r with specst := bumpSpecst r.specst 32 }

theorem Regs.specCounted_specst (r : Regs) : ({ r.specCounted with specst := r.specst } : Regs) = r := by
  cases r
  rfl

/-- The speculation that a WAIT on group n opens (R41, R282). -/
def openedSpec (s : State) (n : Nat) : Spec :=
  { ckpt := s.regs.specCounted, number := (s.ctx.specCount + 1).toNat, group := n, phase := !((s.regs.ph[n]?).getD false),
    awaits := (s.ctx.arrives[n]?).getD 0, pc := s.bundle.start, firstOp := s.nextId }

theorem openSpec_ctx (s : State) (n : Nat) : (openSpec s n).ctx =
    { s.ctx with regs := s.regs.specCounted, specCount := s.ctx.specCount + 1, spec := some (openedSpec s n) } :=
  State.modCtx_ctx s _

/-- The state in which a WAIT that finds its speculation's number in use is held, and waits plainly from then on (R282). -/
def heldPlain (s : State) : State :=
  { s.modCtx (fun p => { p with plain := some s.bundle.start }) with bundle := { s.bundle with status := .held } }

theorem heldPlain_ctx (s : State) : (heldPlain s).ctx = { s.ctx with plain := some s.bundle.start } := by
  have h : (heldPlain s).curTile = (s.modCtx (fun p => { p with plain := some s.bundle.start })).curTile := rfl
  rw [ctx_congr h, State.modCtx_ctx]

theorem heldPlain_sameOutside (s : State) : SameOutside s (heldPlain s) :=
  sameOutside_modTile s (fun t => t.setPl s.ctxP { t.pl s.ctxP with plain := some s.bundle.start })

/-- It speculates no more, though the number come free. -/
theorem heldPlain_maySpeculate (s : State) (n : Nat) : maySpeculate { heldPlain s with bundle := s.bundle } n = false := by
  have hc : ({ heldPlain s with bundle := s.bundle } : State).ctx = { s.ctx with plain := some s.bundle.start } :=
    (ctx_congr rfl).trans (heldPlain_ctx s)
  rw [Bool.eq_false_iff, ne_eq, maySpeculate_iff, hc]
  rintro ⟨-, -, -, -, -, hplain⟩
  exact hplain rfl

section
variable {f : GB} {s : State} (hrun : Runs s f.g)
include hrun

theorem exec_wait_trap (hg : s.ctx.task.bgroups.testBit f.n = false) :
    exec (.wait f) s = .next (raiseTrap s { badGroup (.wait f) with slot := 0 }) := by
  rw [exec_wait_eq, execWait]
  exact runWord_trap hrun (by simp [needGroup_trap hg, bind, Except.bind])

variable (hg : s.ctx.task.bgroups.testBit f.n = true)
include hg

/-- A WAIT with no ARRIVE open is past its rollbacks and waits plainly no more. -/
theorem exec_wait_done (hd : waitDone s f.n = true) : exec (.wait f) s =
    .next (s.modCtx (fun p => { p with rollbacks := if p.spec.isNone then 0 else p.rollbacks, plain := none })) := by
  rw [exec_wait_eq, execWait]
  exact runWord_ok hrun (by simp [needGroup_ok hg, hd, bind, Except.bind])

theorem exec_wait_speculates (hd : waitDone s f.n = false) (hm : maySpeculate s f.n = true) (hu : numberInUse s.ctx = false) :
    exec (.wait f) s = .next (openSpec s f.n) := by
  rw [exec_wait_eq, execWait]
  exact runWord_ok hrun (by simp [needGroup_ok hg, hd, hm, hu, bind, Except.bind])

theorem exec_wait_stalls (hd : waitDone s f.n = false) (hm : maySpeculate s f.n = false) :
    exec (.wait f) s = .next { s with bundle := { s.bundle with status := .stalled } } := by
  rw [exec_wait_eq, execWait]
  exact runWord_stall hrun (by simp [needGroup_ok hg, hd, hm, stallW, bind, Except.bind])

theorem exec_wait_held (hd : waitDone s f.n = false) (hm : maySpeculate s f.n = true) (hu : numberInUse s.ctx = true) :
    exec (.wait f) s = .next (heldPlain s) := by
  rw [exec_wait_eq, execWait]
  simp [runWord, hrun.1, hrun.2, needGroup_ok hg, hd, hm, hu, bind, Except.bind, heldPlain]

end

/-! ## WAITF -/

theorem exec_waitf_eq (f : GF) (s : State) : exec (.waitf f) s = execWaitf f s := rfl

section
variable {f : GF} {s : State} (hrun : Runs s f.g)
include hrun

/-- R122: behind a faulted copy, a WAITF traps for that copy's flag. -/
theorem exec_waitf_behind {h : Nat} (hb : (s.regs.fl f.fn).bound.bind (heldBehind s.ctx) = some h) (hon : (s.regs.fl f.fn).on = false) :
    exec (.waitf f) s = .next (raiseTrap s
      { cause := 0x0A, slot := 0, detail := h, info := BitVec.ofNat 64 ((s.regs.fl h).status.toNat / 2 ^ 64) }) := by
  rw [exec_waitf_eq, execWaitf]
  exact runWord_trap (t := { cause := 0x0A, detail := h, info := BitVec.ofNat 64 ((s.regs.fl h).status.toNat / 2 ^ 64) }) hrun
    (by simp [hb, hon, trapD, cENGFAULT, bind, Except.bind])

theorem exec_waitf_stalls (hb : (s.regs.fl f.fn).bound.bind (heldBehind s.ctx) = none) (hon : (s.regs.fl f.fn).on = false) :
    exec (.waitf f) s = .next { s with bundle := { s.bundle with status := .stalled } } := by
  rw [exec_waitf_eq, execWaitf]
  exact runWord_stall hrun (by simp [hb, hon, orStall, stallW, bind, Except.bind])

variable (hon : (s.regs.fl f.fn).on = true)
include hon

omit hrun in
/-- Of a set flag a WAITF looks at the status record alone. -/
theorem exec_waitf_on : exec (.waitf f) s = runWord 0 f.g s (fun s =>
    match waitfCause (s.regs.fl f.fn).status with
    | some c => .error (.trap { cause := c, detail := f.fn, info := BitVec.ofNat 64 ((s.regs.fl f.fn).status.toNat / 2 ^ 64),
                                acc := if c = cMRES then some (recAux (s.regs.fl f.fn).status) else none })
    | none => .ok (acquire s (s.regs.fl f.fn).last)) := by
  rw [exec_waitf_eq, execWaitf]
  refine runWord_congr ?_
  cases hb : (s.regs.fl f.fn).bound.bind (heldBehind s.ctx) <;> simp [hb, hon, orStall, bind, Except.bind] <;> rfl

theorem exec_waitf_trap {c : Nat} (hc : waitfCause (s.regs.fl f.fn).status = some c) : exec (.waitf f) s = .next (raiseTrap s
    { cause := c, slot := 0, detail := f.fn, info := BitVec.ofNat 64 ((s.regs.fl f.fn).status.toNat / 2 ^ 64),
      acc := if c = cMRES then some (recAux (s.regs.fl f.fn).status) else none }) := by
  rw [exec_waitf_on hon]
  exact runWord_trap (t := { cause := c, detail := f.fn, info := BitVec.ofNat 64 ((s.regs.fl f.fn).status.toNat / 2 ^ 64),
                             acc := if c = cMRES then some (recAux (s.regs.fl f.fn).status) else none }) hrun (by simp only [hc])

theorem exec_waitf_completes (hc : waitfCause (s.regs.fl f.fn).status = none) :
    exec (.waitf f) s = .next (acquire s (s.regs.fl f.fn).last) := by
  rw [exec_waitf_on hon]
  exact runWord_ok hrun (by simp only [hc])

end

/-- R95: an acquire changes the marks of racing writes alone. -/
theorem acquire_specMoves (s : State) (op : Nat) : SpecMoves s (acquire s op) := by
  unfold acquire
  split
  · exact SpecMoves.refl s
  · exact specMoves_stale s _

theorem acquire_ctx (s : State) (op : Nat) : (acquire s op).ctx = s.ctx := by
  unfold acquire
  split
  · rfl
  · have h := modTile_curTile s (fun t => t.withStale (orderUpTo (fun e => decide (e.op = op)) 15 t.stale))
    have hp : (s.modTile s.cur (fun t => t.withStale (orderUpTo (fun e => decide (e.op = op)) 15 t.stale))).ctxP = s.ctxP := by
      rw [State.ctxP, h]
      rfl
    change (s.modTile s.cur (fun t => t.withStale (orderUpTo (fun e => decide (e.op = op)) 15 t.stale))).ctx = s.ctx
    rw [State.ctx, hp, h]
    rfl

/-- R192: the trap of a WAITF on a status record, by its fields. -/
theorem waitfCause_eq (q : Quad) : waitfCause q =
    if recStatus q = 7 ∧ 7 ≤ recKind q ∧ recKind q ≤ 14 then
      some (if recFcode q = 0x13 then 0x0A else if recFcode q = 0x12 then 0x0C else if recFcode q = 0x08 then 0x0F
        else if recKind q = 7 then 0x0A else 0x0B)
    else if recStatus q = 2 ∧ recFcode q = 0x12 then some 0x0C else none := rfl

/-- Settles O13. WAIT and WAITF case by case of what their bodies look at. -/
theorem waitWords : Obligations.WaitWords := by
  unfold Obligations.WaitWords
  refine ⟨fun f s _ hrun => ⟨fun hg => exec_wait_trap hrun hg, fun hg hd => ?done, fun hg hd hm hu => ?held,
      fun hg hd hm hu => ?speculates, fun hg hd hm => exec_wait_stalls hrun hg hd hm, waitDone_iff s f.n, fun hm => ?needs⟩,
    fun f s hrun fl hfl => ⟨fun h hb hon => ?behind, fun hb hon => ?stalls, fun hon st kind fc hst hkind hfc => ?set⟩⟩
  case done =>
    refine ⟨_, exec_wait_done hrun hg hd, ?_, ?_, rfl, sameOutside_modTile s _, fun a => rfl⟩
    · rw [State.regs, State.modCtx_ctx]
      rfl
    · rw [State.modCtx_ctx]
  case held =>
    exact ⟨_, exec_wait_held hrun hg hd hm hu, rfl, heldPlain_ctx s, heldPlain_maySpeculate s f.n, heldPlain_sameOutside s,
      fun a => rfl⟩
  case speculates =>
    have hc := openSpec_ctx s f.n
    have hr : (openSpec s f.n).regs = s.regs.specCounted := congrArg Plane.regs hc
    refine ⟨_, openedSpec s f.n, exec_wait_speculates hrun hg hd hm hu, by rw [hc], hr.symm, rfl, rfl, rfl, rfl, rfl, rfl, rfl,
      by rw [hc], ?_, sameOutside_modTile s _, fun _ => rfl⟩
    rw [hr]
    exact Regs.specCounted_specst s.regs
  case needs =>
    obtain ⟨h1, h2, h3, h4, h5, -⟩ := (maySpeculate_iff s f.n).1 hm
    exact ⟨h1, h2, h3, h4, h5⟩
  case behind => subst hfl; exact exec_waitf_behind hrun hb hon
  case stalls => subst hfl; exact exec_waitf_stalls hrun hb hon
  case set =>
    obtain rfl : fl = s.regs.fl f.fn := hfl
    obtain rfl : st = recStatus (s.regs.fl f.fn).status := hst
    obtain rfl : kind = recKind (s.regs.fl f.fn).status := hkind
    obtain rfl : fc = recFcode (s.regs.fl f.fn).status := hfc
    have hcause := waitfCause_eq (s.regs.fl f.fn).status
    refine ⟨fun h7 hlo hhi => ?_, fun h2 hfc => ?_, fun hnf hnc => ?_⟩
    · rw [if_pos ⟨h7, hlo, hhi⟩] at hcause
      rw [exec_waitf_trap hrun hon hcause]
      have hacc : ∀ c : Nat, (if c = cMRES then some (recAux (s.regs.fl f.fn).status) else none) =
          if c = 0x0C then some (recAux (s.regs.fl f.fn).status) else none := fun _ => rfl
      have hm : (if recFcode (s.regs.fl f.fn).status = 0x13 then 0x0A else if recFcode (s.regs.fl f.fn).status = 0x12 then 0x0C
          else if recFcode (s.regs.fl f.fn).status = 0x08 then 0x0F else if recKind (s.regs.fl f.fn).status = 7 then 0x0A
          else 0x0B) = cMRES ↔ recFcode (s.regs.fl f.fn).status = 0x12 := by
        unfold cMRES
        split_ifs <;> simp_all
      simp only [hm]
      rfl
    · rw [if_neg (by omega), if_pos ⟨h2, hfc⟩] at hcause
      exact exec_waitf_trap hrun hon hcause
    · rw [if_neg hnf, if_neg hnc] at hcause
      have hmove := acquire_specMoves s (s.regs.fl f.fn).last
      refine ⟨_, exec_waitf_completes hrun hon hcause, ?_, hmove.readOnly.2.2.1, hmove.1, hmove.readOnly.2.1⟩
      exact acquire_ctx s _

end Sys2Proof.Machine
end

section
/-! PROOFS. VLDS, VSTS, VGATH and VSCAT (R44, R93, R223, R224): the accesses of several parts, one after the other. -/

namespace Sys2Proof.Machine

/-! ## What an access of a part leaves for the next -/

/-- Of a tile only the marks of racing writes and what the context's speculation holds have changed: a speculation is open and
committing as it was. -/
def TileKept (s t : State) : Prop :=
  t.cur = s.cur ∧ ∃ st sp, t.curTile = (s.curTile.setPl s.ctxP (s.ctx.withSpec sp)).withStale st ∧
    sp.map Spec.committing = s.ctx.spec.map Spec.committing

/-- R44: a plane drains while its speculation commits. -/
theorem Plane.drains_eq (pl : Plane) : pl.drains = (pl.spec.map Spec.committing).getD false := by
  unfold Plane.drains
  cases pl.spec <;> rfl

theorem draining_eq (s : State) : draining s s.cur = s.curTile.drains := by
  unfold draining Tile.drains Plane.drains
  rfl

theorem Plane.withSpec_drains {pl : Plane} {sp : Option Spec} (h : sp.map Spec.committing = pl.spec.map Spec.committing) :
    (pl.withSpec sp).drains = pl.drains := by
  rw [Plane.drains_eq, Plane.drains_eq, Plane.withSpec_spec, h]

section
variable {s t : State} (h : TileKept s t)
include h

theorem TileKept.mon_eq : t.mon = s.mon := by
  obtain ⟨-, st, sp, ht, -⟩ := h
  exact mon_of_specMoves ht

theorem TileKept.ctxP_eq : t.ctxP = s.ctxP := by
  obtain ⟨-, st, sp, ht, -⟩ := h
  exact ctxP_of_specMoves ht

theorem TileKept.regs_eq : t.regs = s.regs := by
  obtain ⟨-, st, sp, ht, -⟩ := h
  exact regs_of_specMoves ht

theorem TileKept.tsPhys_eq (a : Nat) : tsPhys t a = tsPhys s a := by
  rw [tsPhys, tsPhys, h.mon_eq, h.regs_eq]

theorem TileKept.taskByte_eq (a : Nat) : taskByte t a = taskByte s a := by
  rw [taskByte, taskByte, h.tsPhys_eq, h.1]

/-- No drain has begun. -/
theorem TileKept.draining_eq : draining t t.cur = draining s s.cur := by
  obtain ⟨-, st, sp, ht, hsp⟩ := h
  have hd := Plane.withSpec_drains hsp
  rw [Machine.draining_eq, Machine.draining_eq, ht]
  by_cases hp : s.ctxP = 0
  · have hc : s.ctx = s.curTile.plane0 := by rw [State.ctx, hp]; rfl
    rw [hc] at hd
    simp [Tile.drains, Tile.withStale, Tile.setPl, hp, hc, hd]
  · have hc : s.ctx = s.curTile.plane1 := by rw [State.ctx, Tile.pl, if_neg hp]
    rw [hc] at hd
    simp [Tile.drains, Tile.withStale, Tile.setPl, hp, hc, hd]

/-- No window has opened or moved. -/
theorem TileKept.winTile_eq (a n k : Nat) : winTile t.curTile t.ctxP a n k = winTile s.curTile s.ctxP a n k := by
  have hp := h.ctxP_eq
  obtain ⟨-, st, sp, ht, -⟩ := h
  have hother : (s.curTile.setPl s.ctxP (s.ctx.withSpec sp)).pl (1 - s.ctxP) = s.curTile.pl (1 - s.ctxP) :=
    Tile.setPl_pl_ne _ _ (by omega)
  rw [hp, ht, winTile, winTile, Tile.withStale_pl, Tile.withStale_pl, Tile.setPl_pl, hother]
  rfl

theorem TileKept.mGate_eq (a n : Nat) : mGate t a n = mGate s a n := by
  rw [mGate, mGate, h.draining_eq, h.winTile_eq, h.regs_eq]

/-- No buffer is protected that was not. -/
theorem TileKept.guarded_eq (a n : Nat) : guarded t t.cur a n = guarded s s.cur a n := by
  obtain ⟨-, st, sp, ht, -⟩ := h
  have e : t.tile t.cur = (s.curTile.setPl s.ctxP (s.ctx.withSpec sp)).withStale st := ht
  rw [guarded, guarded, e]
  by_cases hp : s.ctxP = 0
  · have hc : s.ctx = (s.tile s.cur).plane0 := by rw [State.ctx, hp]; rfl
    simp only [Tile.setPl, if_pos hp, hc]
    rfl
  · have hc : s.ctx = (s.tile s.cur).plane1 := by rw [State.ctx, Tile.pl, if_neg hp]; rfl
    simp only [Tile.setPl, if_neg hp, hc]
    rfl

end

/-- A store outside a speculation. -/
theorem StoreFrame.tileKept {s t : State} (h : StoreFrame s t) : TileKept s t := by
  obtain ⟨he, -, -, ht⟩ := h
  refine ⟨he.cur_eq, t.curTile.stale, s.ctx.spec, ?_, rfl⟩
  have hp : s.curTile.setPl s.ctxP (s.ctx.withSpec s.ctx.spec) = s.curTile := Tile.setPl_self _ _
  rw [hp, ← ht]
  rfl

/-- A change of the context's speculation that leaves it committing or not as it was. -/
theorem tileKept_modPlane (s : State) (f : Plane → Plane) {sp : Option Spec} (hf : f s.ctx = s.ctx.withSpec sp)
    (hs : sp.map Spec.committing = s.ctx.spec.map Spec.committing) : TileKept s (s.modPlane s.cur s.ctxP f) := by
  refine ⟨rfl, s.curTile.stale, sp, ?_, hs⟩
  have ht : (s.modPlane s.cur s.ctxP f).curTile = s.curTile.setPl s.ctxP (f s.ctx) := State.modCtx_curTile s f
  have hst : (s.curTile.setPl s.ctxP (s.ctx.withSpec sp)).stale = s.curTile.stale := Tile.setPl_stale _ _ _
  rw [ht, hf, ← hst, Tile.withStale_self]

theorem TileKept.refl (s : State) : TileKept s s := by
  refine ⟨rfl, s.curTile.stale, s.ctx.spec, ?_, rfl⟩
  have hp : s.curTile.setPl s.ctxP s.ctx = s.curTile := Tile.setPl_self _ _
  rw [Plane.withSpec_self, hp, Tile.withStale_self]

theorem TileKept.ctx_eq {s t : State} (h : TileKept s t) : ∃ sp, t.ctx = s.ctx.withSpec sp ∧
    sp.map Spec.committing = s.ctx.spec.map Spec.committing := by
  obtain ⟨-, st, sp, ht, hs⟩ := h
  exact ⟨sp, ctx_of_specMoves ht, hs⟩

theorem TileKept.trans {s t u : State} (h : TileKept s t) (k : TileKept t u) : TileKept s u := by
  obtain ⟨hc, st, sp, ht, hs⟩ := h
  obtain ⟨kc, st', sp', kt, ks⟩ := k
  rw [ctx_of_specMoves ht] at ks
  refine ⟨kc.trans hc, st', sp', ?_, ks.trans hs⟩
  rw [kt, ctx_of_specMoves ht, ctxP_of_specMoves ht, ht, Tile.withStale_setPl, Tile.setPl_setPl, Tile.withStale_withStale,
    Plane.withSpec_withSpec]

/-- A change of the marks of racing writes. -/
theorem tileKept_stale (s : State) (l : List Stale) : TileKept s (s.modTile s.cur (fun t => t.withStale l)) := by
  refine ⟨rfl, l, s.ctx.spec, ?_, rfl⟩
  have hp : s.curTile.setPl s.ctxP s.ctx = s.curTile := Tile.setPl_self _ _
  rw [modTile_curTile, Plane.withSpec_self, hp]

/-! ## Reads of several parts -/

theorem track_tileKept (s : State) (a n : Nat) : TileKept s (track s s.cur s.ctxP a n) := by
  unfold track
  split
  · exact TileKept.refl s
  · cases hsp : s.ctx.spec with
    | none => exact tileKept_modPlane s _ (sp := s.ctx.spec) (by simp only [hsp]; rw [← hsp, Plane.withSpec_self]) rfl
    | some sp => exact tileKept_modPlane s _ (by simp only [hsp]; rfl) (by simp [hsp])

theorem tsSeen_tileKept (s : State) (path a n : Nat) : TileKept s (tsSeen s s.cur path a n) := by
  unfold tsSeen
  split
  · exact TileKept.refl s
  · exact tileKept_stale s _

theorem afterRead_tileKept (s : State) (t n : Nat) : TileKept s (afterRead s t n) := by
  have h := track_tileKept s (tsPhys s t) n
  have k := tsSeen_tileKept (track s s.cur s.ctxP (tsPhys s t) n) pathP (tsPhys s t) n
  rw [h.1] at k
  exact h.trans k

theorem afterRead_specMoves (s : State) (t n : Nat) : SpecMoves s (afterRead s t n) := by
  have h := track_specMoves s (tsPhys s t) n
  have k := tsSeen_specMoves (track s s.cur s.ctxP (tsPhys s t) n) pathP (tsPhys s t) n
  rw [h.cur_eq] at k
  exact h.trans k

theorem track_stale (s : State) (a n : Nat) : (track s s.cur s.ctxP a n).curTile.stale = s.curTile.stale := by
  unfold track
  split
  · rfl
  · exact (congrArg Tile.stale (State.modCtx_curTile s _)).trans (Tile.setPl_stale _ _ _)

/-- A read leaves no write unseen that was not, and opens no speculation. -/
theorem Plain.afterRead {s : State} (h : Plain s) (t n : Nat) : Plain (afterRead s t n) := by
  obtain ⟨hst, hsp⟩ := h
  have hk := track_specMoves s (tsPhys s t) n
  have hstale : (track s s.cur s.ctxP (tsPhys s t) n).curTile.stale = [] := (track_stale _ _ _).trans hst
  have he : Machine.afterRead s t n = track s s.cur s.ctxP (tsPhys s t) n := by
    rw [State.curTile, hk.cur_eq] at hstale
    rw [Machine.afterRead, tsSeen, hstale]
    rfl
  obtain ⟨-, -, -, st, sp, ht, hn⟩ := hk
  rw [he]
  exact ⟨hstale, by rw [ctx_of_specMoves ht]; exact hn hsp⟩

/-- The bytes of n bytes at each of m addresses, read one after the other: each access goes on as the checks of all of them in the
first state say, and where no write races and no speculation is open they are those of memory. -/
theorem mReads_ok {n m : Nat} {A : Nat → Nat} {s : State} (hg : ∀ k < m, mGate s (tsPhys s (A k)) n = .ok ()) :
    ∃ bs u, mReads n ((List.range m).map A) s = .ok (bs, u) ∧ SpecMoves s u ∧ bs.length = n * m ∧
      (Plain s → ∀ k < m, ∀ i < n, (bs[n * k + i]?).getD 0 = memGet s.mem (taskByte s (A k) + i)) := by
  induction m generalizing A s with
  | zero => exact ⟨[], s, rfl, SpecMoves.refl s, rfl, fun _ k hk => absurd hk (by omega)⟩
  | succ m ih =>
    have hkept := afterRead_tileKept s (A 0) n
    have hmoves := afterRead_specMoves s (A 0) n
    obtain ⟨bs, u, he, hu, hlen, hmem⟩ := ih (A := A ∘ Nat.succ) (s := afterRead s (A 0) n) (fun k hk => by
      rw [hkept.tsPhys_eq, hkept.mGate_eq]
      exact hg (k + 1) (by omega))
    have hfirst := tsBytes_length s s.cur s.ctxP pathP (tsPhys s (A 0)) n
    refine ⟨tsBytes s s.cur s.ctxP pathP (tsPhys s (A 0)) n ++ bs, u, ?_, hmoves.trans hu, ?_, fun hp k hk i hi => ?_⟩
    · rw [List.range_succ_eq_map, List.map_cons, List.map_map, mReads, mRead_ok (hg 0 (by omega))]
      simp [he, bind, Except.bind]
    · rw [List.length_append, hlen, hfirst, Nat.mul_succ, Nat.add_comm]
    · cases k with
      | zero =>
        rw [Nat.mul_zero, Nat.zero_add, List.getElem?_append_left (by omega)]
        exact tsBytes_of_plain hp _ hi
      | succ k =>
        have hshift : n * (k + 1) + i - n = n * k + i := by rw [Nat.mul_succ]; omega
        rw [List.getElem?_append_right (by rw [hfirst, Nat.mul_succ]; omega), hfirst, hshift,
          hmem (hp.afterRead _ _) k (by omega) i hi, hkept.taskByte_eq, hmoves.2.1]
        rfl

/-! ## Stores of several parts outside a speculation -/

theorem StoreFrame.refl (s : State) : StoreFrame s s := ⟨(SameOutside.refl s).1, rfl, rfl, rfl⟩

theorem StoreFrame.ctx_eq {s t : State} (h : StoreFrame s t) : t.ctx = s.ctx := by
  have hp : t.ctxP = s.ctxP := h.tileKept.ctxP_eq
  obtain ⟨-, -, -, ht⟩ := h
  rw [State.ctx, State.ctx, hp, ← ht]
  rfl

/-- The address b lies in none of the n bytes at the addresses that the parts i to m - 1 begin at. -/
def OffParts (n i m : Nat) (P : Nat → Nat) (b : Nat) : Prop := ∀ k < m, i ≤ k → b < P k ∨ P k + n ≤ b

/-- What a store of one part leaves and changes, outside a speculation. -/
theorem mWrite_plain_spec {s : State} {a : Nat} {bytes : List Byte} (hn : 0 < bytes.length) (hs : s.ctx.spec = none)
    (hg : mGate s (tsPhys s a) bytes.length = .ok ()) (hb : guarded s s.cur (tsPhys s a) bytes.length = false) :
    ∃ t, mWrite s a bytes = .ok t ∧ StoreFrame s t ∧ SameGransBut s t s.cur (tsPhys s a) bytes.length ∧
      (AllSeen s s.cur pathP → AllSeen t t.cur pathP ∧ (s.Safe → t.Safe) ∧ SameMemBut s t (taskByte s a) bytes.length ∧
        (s.Safe → ∀ i < bytes.length, memGet t.mem (taskByte s a + i) = (bytes[i]?).getD 0)) := by
  have hp : IsPath pathP := by simp [IsPath]
  obtain ⟨hf, hgr, ha⟩ := tsStore_spec { s with nextId := s.nextId + 1 } hp s.nextId (tsPhys s a) hn
  have hid : StoreFrame s { s with nextId := s.nextId + 1 } := StoreFrame.refl s
  refine ⟨_, mWrite_plain hg hb hs, hid.trans hf, hgr, fun hseen => ?_⟩
  obtain ⟨hout, hin⟩ := ha hseen
  refine ⟨?_, ?_, hout, hin⟩
  · rw [hf.1.cur_eq, tsStore_eq _ _ _ _ _ hn]
    exact (writeGrans_of_allSeen (s := { s with nextId := s.nextId + 1 }) hp hseen _ _ _ _).1
  · rw [tsStore_eq _ _ _ _ _ hn]
    exact (writeGrans_of_allSeen (s := { s with nextId := s.nextId + 1 }) hp hseen _ _ _ _).2.1

/-- R93, R97: a store of m parts, the lowest first, outside a speculation. -/
theorem mWrites_plain {n m : Nat} {A : Nat → Nat} {s : State} {bytes : List Byte} (hn : 0 < n) (hlen : bytes.length = n * m)
    (hs : s.ctx.spec = none) (hg : ∀ k < m, mGate s (tsPhys s (A k)) n = .ok ())
    (hb : ∀ k < m, guarded s s.cur (tsPhys s (A k)) n = false) :
    ∃ t, mWrites n ((List.range m).map A) bytes s = .ok t ∧ StoreFrame s t ∧
      (∀ b, (∀ k < m, OutGrans s.cur (tsPhys s (A k)) n b) → memGet t.mem b = memGet s.mem b) ∧
      (AllSeen s s.cur pathP → (∀ b, OffParts n 0 m (fun k => taskByte s (A k)) b → memGet t.mem b = memGet s.mem b) ∧
        (s.Safe → ∀ k < m, ∀ i < n, OffParts n (k + 1) m (fun k => taskByte s (A k)) (taskByte s (A k) + i) →
          memGet t.mem (taskByte s (A k) + i) = (bytes[n * k + i]?).getD 0)) := by
  induction m generalizing A s bytes with
  | zero => exact ⟨s, rfl, StoreFrame.refl s, fun _ _ => rfl, fun _ => ⟨fun _ _ => rfl, fun _ k hk => absurd hk (by omega)⟩⟩
  | succ m ih =>
    have h0 : (bytes.take n).length = n := by rw [List.length_take, hlen, Nat.mul_succ]; omega
    obtain ⟨t, he, hf, hgr, ha⟩ := mWrite_plain_spec (a := A 0) (h0 ▸ hn) hs (by rw [h0]; exact hg 0 (by omega))
      (by rw [h0]; exact hb 0 (by omega))
    rw [h0] at hgr ha
    have hk := hf.tileKept
    obtain ⟨u, he', hf', hgr', ha'⟩ := ih (A := A ∘ Nat.succ) (s := t) (bytes := bytes.drop n)
      (by rw [List.length_drop, hlen, Nat.mul_succ]; omega) (by rw [hf.ctx_eq]; exact hs)
      (fun k h => by rw [hk.tsPhys_eq, hk.mGate_eq]; exact hg (k + 1) (by omega))
      (fun k h => by rw [hk.tsPhys_eq, hk.guarded_eq]; exact hb (k + 1) (by omega))
    simp only [Function.comp, hk.tsPhys_eq, hk.taskByte_eq] at hgr' ha'
    refine ⟨u, ?_, hf.trans hf', fun b h => ?_, fun hseen => ?_⟩
    · rw [List.range_succ_eq_map, List.map_cons, List.map_map, mWrites, he]
      exact he'
    · rw [hgr' b (fun k h' => by rw [hk.1]; exact h (k + 1) (by omega))]
      refine hgr b ?_
      have := h 0 (by omega)
      unfold OutGrans at this
      unfold tsAddr at *
      omega
    · obtain ⟨hseen', hsafe, hout, hin⟩ := ha hseen
      obtain ⟨hout', hin'⟩ := ha' hseen'
      refine ⟨fun b h => ?_, fun hw k hlt i hi h => ?_⟩
      · rw [hout' b (fun k h' _ => h (k + 1) (by omega) (by omega))]
        exact hout b (h 0 (by omega) (by omega))
      · cases k with
        | zero =>
          rw [hout' _ (fun k h' _ => h (k + 1) (by omega) (by omega)), hin hw i hi, List.getElem?_take_of_lt hi, Nat.mul_zero,
            Nat.zero_add]
        | succ k =>
          rw [hin' (hsafe hw) k (by omega) i hi (fun j h' h'' => h (j + 1) (by omega) (by omega)), List.getElem?_drop,
            Nat.mul_succ, Nat.add_right_comm, Nat.add_comm n, Nat.add_right_comm]

/-! ## Stores of several parts under a speculation (R44) -/

/-- Whether an escrow has the line of an address. -/
def hasLine (ls : List (Nat × NMap Byte)) (a : Nat) : Prop := ∃ l ∈ ls, l.1 = a / 64

theorem hasLine_escPut (ls : List (Nat × NMap Byte)) (a : Nat) (b : Byte) : hasLine (escPut ls a b) a := by
  unfold escPut hasLine
  split
  · rename_i h
    obtain ⟨l, hl, hd⟩ := List.any_eq_true.1 h
    have hd : l.1 = a / 64 := by simpa using hd
    exact ⟨_, List.mem_map.2 ⟨l, hl, if_pos hd⟩, hd⟩
  · exact ⟨_, List.mem_append_right _ List.mem_cons_self, rfl⟩

theorem escPut_length_le (ls : List (Nat × NMap Byte)) (a : Nat) (b : Byte) : (escPut ls a b).length ≤ ls.length + 1 := by
  unfold escPut
  split <;> simp

theorem escPut_length_of_hasLine {ls : List (Nat × NMap Byte)} {a : Nat} (b : Byte) (h : hasLine ls a) :
    (escPut ls a b).length = ls.length := by
  obtain ⟨l, hl, hd⟩ := h
  rw [escPut, if_pos (List.any_eq_true.2 ⟨l, hl, by simpa using hd⟩), List.length_map]

/-- Bytes from a line's start, or from an address whose line is there, add one line for each line's start that they pass. -/
theorem escWrite_length_of_hasLine {ls : List (Nat × NMap Byte)} {a : Nat} (bs : List Byte) (h : hasLine ls a ∨ a % 64 = 0) :
    (escWrite ls a bs).length + (a + 63) / 64 ≤ ls.length + (a + bs.length + 63) / 64 := by
  induction bs generalizing ls a with
  | nil => exact le_rfl
  | cons b r ih =>
    have hput := hasLine_escPut ls a b
    have hnext : hasLine (escPut ls a b) (a + 1) ∨ (a + 1) % 64 = 0 := by
      by_cases h0 : (a + 1) % 64 = 0
      · exact .inr h0
      · obtain ⟨l, hl, hd⟩ := hput
        exact .inl ⟨l, hl, by omega⟩
    have hrest := ih hnext
    have hle := escPut_length_le ls a b
    rw [escWrite, List.length_cons]
    rcases h with h | h
    · rw [escPut_length_of_hasLine b h] at hrest
      omega
    · omega

/-- A write of at most 64 bytes adds at most two lines. -/
theorem escWrite_length_le (ls : List (Nat × NMap Byte)) (a : Nat) {bs : List Byte} (h : bs.length ≤ 64) :
    (escWrite ls a bs).length ≤ ls.length + 2 := by
  cases bs with
  | nil => exact Nat.le_add_right _ _
  | cons b r =>
    have hnext : hasLine (escPut ls a b) (a + 1) ∨ (a + 1) % 64 = 0 := by
      by_cases h0 : (a + 1) % 64 = 0
      · exact .inr h0
      · obtain ⟨l, hl, hd⟩ := hasLine_escPut ls a b
        exact .inl ⟨l, hl, by omega⟩
    have hrest := escWrite_length_of_hasLine r hnext
    have hle := escPut_length_le ls a b
    rw [List.length_cons] at h
    rw [escWrite]
    omega

/-- There is room for a write of at most 64 bytes where two lines are free. -/
theorem escRoom_of_length {pl : Plane} {sp : Spec} {a n : Nat} (hs : pl.spec = some sp) (hn : 0 < n) (h : n ≤ 64)
    (hl : sp.escrow.length + 2 ≤ 256) : escRoom pl a n = true := by
  simp only [escRoom, hs, decide_eq_true_eq]
  have hf := List.length_filter_le (fun i => !(sp.escrow.any (fun l => decide (l.1 = a / 64 + i))))
    (List.range ((a + n - 1) / 64 + 1 - a / 64))
  rw [List.length_range] at hf
  omega

/-- A speculation with its escrow written. -/
def Spec.escrowed (sp : Spec) (a : Nat) (bytes : List Byte) : Spec := { sp with escrow := escWrite sp.escrow a bytes }

theorem escStore_moves {s : State} {sp : Spec} (a : Nat) (bytes : List Byte) (hs : s.ctx.spec = some sp) :
    SpecMoves s (escStore s s.cur s.ctxP a bytes) ∧ TileKept s (escStore s s.cur s.ctxP a bytes) ∧
      (escStore s s.cur s.ctxP a bytes).ctx.spec = some (sp.escrowed a bytes) := by
  have hf : (match s.ctx.spec with
      | some sp => { s.ctx with spec := some { sp with escrow := escWrite sp.escrow a bytes } }
      | none => s.ctx) = s.ctx.withSpec (some (sp.escrowed a bytes)) := by
    simp only [hs]
    rfl
  have hm : SpecMoves s (escStore s s.cur s.ctxP a bytes) := specMoves_modPlane s _ hf (by simp [hs])
  have hk : TileKept s (escStore s s.cur s.ctxP a bytes) := tileKept_modPlane s _ hf (by rw [hs]; rfl)
  refine ⟨hm, hk, ?_⟩
  have hp : (escStore s s.cur s.ctxP a bytes).ctx = (escStore s s.cur s.ctxP a bytes).plane s.cur s.ctxP := by
    rw [State.ctx, State.curTile, hm.cur_eq, hk.ctxP_eq]
    rfl
  rw [hp, escStore, State.modPlane_plane]
  exact congrArg Plane.spec hf

/-- A store of m parts, the lowest first, under a speculation whose escrow has room for two lines of each. -/
theorem mWrites_escrow {n m : Nat} {A : Nat → Nat} {s : State} {sp : Spec} {bytes : List Byte} (hn : 0 < n) (hn64 : n ≤ 64)
    (hlen : bytes.length = n * m) (hs : s.ctx.spec = some sp) (hroom : sp.escrow.length + 2 * m ≤ 256)
    (hg : ∀ k < m, mGate s (tsPhys s (A k)) n = .ok ()) (hb : ∀ k < m, guarded s s.cur (tsPhys s (A k)) n = false) :
    ∃ t sp', mWrites n ((List.range m).map A) bytes s = .ok t ∧ SpecMoves s t ∧ t.ctxP = s.ctxP ∧ t.ctx.spec = some sp' ∧
      (∀ x, OffParts n 0 m (fun k => tsPhys s (A k)) x → escByte sp'.escrow x = escByte sp.escrow x) ∧
      ∀ k < m, ∀ i < n, OffParts n (k + 1) m (fun k => tsPhys s (A k)) (tsPhys s (A k) + i) →
        escByte sp'.escrow (tsPhys s (A k) + i) = bytes[n * k + i]? := by
  induction m generalizing A s sp bytes with
  | zero => exact ⟨s, sp, rfl, SpecMoves.refl s, rfl, hs, fun _ _ => rfl, fun k hk => absurd hk (by omega)⟩
  | succ m ih =>
    have h0 : (bytes.take n).length = n := by rw [List.length_take, hlen, Nat.mul_succ]; omega
    obtain ⟨hm, hk, hsp⟩ := escStore_moves (tsPhys s (A 0)) (bytes.take n) hs
    have hgrow := escWrite_length_le sp.escrow (tsPhys s (A 0)) (bs := bytes.take n) (by omega)
    have hfirst : mWrite s (A 0) (bytes.take n) = .ok (escStore s s.cur s.ctxP (tsPhys s (A 0)) (bytes.take n)) := by
      rw [mWrite_spec (by rw [h0]; exact hg 0 (by omega)) (by rw [h0]; exact hb 0 (by omega)) (by simp [hs]),
        if_pos (escRoom_of_length hs (by omega) (by omega) (by omega))]
    generalize escStore s s.cur s.ctxP (tsPhys s (A 0)) (bytes.take n) = t at hm hk hsp hfirst
    obtain ⟨u, sp', he', hm', hp', hsp', hout, hin⟩ := ih (A := A ∘ Nat.succ) (s := t) (bytes := bytes.drop n)
      (by rw [List.length_drop, hlen, Nat.mul_succ]; omega) hsp (show (escWrite _ _ _).length + 2 * m ≤ 256 by omega)
      (fun k h => by rw [hk.tsPhys_eq, hk.mGate_eq]; exact hg (k + 1) (by omega))
      (fun k h => by rw [hk.tsPhys_eq, hk.guarded_eq]; exact hb (k + 1) (by omega))
    simp only [Function.comp, hk.tsPhys_eq] at hout hin
    refine ⟨u, sp', ?_, hm.trans hm', hp'.trans hk.ctxP_eq, hsp', fun x h => ?_, fun k hlt i hi h => ?_⟩
    · rw [List.range_succ_eq_map, List.map_cons, List.map_map, mWrites, hfirst]
      exact he'
    · have hx : x < tsPhys s (A 0) ∨ tsPhys s (A 0) + n ≤ x := h 0 (by omega) (by omega)
      rw [hout x (fun k h' _ => h (k + 1) (by omega) (by omega)), Spec.escrowed, escByte_escWrite, h0, if_neg (by omega)]
    · cases k with
      | zero =>
        rw [hout _ (fun k h' _ => h (k + 1) (by omega) (by omega)), Spec.escrowed, escByte_escWrite, h0, if_pos (by omega),
          Nat.add_sub_cancel_left, List.getElem?_take_of_lt hi, Nat.mul_zero, Nat.zero_add]
      | succ k =>
        have hshift : n + (n * k + i) = n * (k + 1) + i := by rw [Nat.mul_succ]; omega
        rw [hin k (by omega) i hi (fun j h' h'' => h (j + 1) (by omega) (by omega)), List.getElem?_drop, hshift]

/-! ## Addresses and checks -/

/-- An access of which no address is unaligned or beyond the task's tile store passes its checks. -/
theorem needAll_ok {s : State} {m al n : Nat} {A : Nat → Nat} (h : ∀ k < m, A k % al = 0 ∧ A k + n ≤ tsLimit s) :
    needAll s ((List.range m).map A) al n = .ok () := by
  have hal : ((List.range m).map A).find? (fun a => decide (a % al ≠ 0)) = none := by
    simp only [List.find?_eq_none, List.forall_mem_map, List.mem_range]
    intro k hk
    simp [(h k hk).1]
  have hlim : ((List.range m).map A).find? (fun a => decide (tsLimit s < a + n)) = none := by
    simp only [List.find?_eq_none, List.forall_mem_map, List.mem_range]
    intro k hk
    have := (h k hk).2
    simp [this]
  rw [needAll, hal, hlim]
  rfl

theorem wrap64_add (a b : Int) : wrap64 (a + b) = wrap64 a + wrap64 b := by
  simp only [wrap64, BitVec.ofInt_add]

theorem wrap64_mul (a b : Int) : wrap64 (a * b) = wrap64 a * wrap64 b := by
  simp only [wrap64, BitVec.ofInt_mul]

theorem wrap64_natCast (n : Nat) : wrap64 (n : Int) = BitVec.ofNat 64 n := by
  simp only [wrap64, BitVec.ofInt_natCast]

/-- R223: granule k of VLDS and VSTS. -/
theorem strideAddr_eq {f : MV} (x : Word) (k : Nat) (h : f.off.wf 11 7 = true) : strideAddr x f k = (x + BitVec.ofNat 64 k *
    (if f.off.lent then (BitVec.ofNat 18 f.off.raw).signExtend 64 else (BitVec.ofNat 11 f.off.raw).signExtend 64)).toNat := by
  rw [strideAddr, taskAddr, wrap64_mul, wrap64_natCast, wrap64_sval h (by omega)]

/-- R224: element j of VGATH and VSCAT. -/
theorem gathAddr_eq {f : MV} (x : Word) (ix : VReg) (j : Nat) (h : f.off.wf 11 7 = true) : gathAddr x f ix j = (x +
    (if f.off.lent then (BitVec.ofNat 18 f.off.raw).signExtend 64 else (BitVec.ofNat 11 f.off.raw).signExtend 64) +
      BitVec.ofNat 64 (elem 4 j ix)).toNat := by
  have he : elem 4 j ix = ix.toNat / 2 ^ (32 * j) % 2 ^ 32 := rfl
  rw [gathAddr, taskAddr, wrap64_add, wrap64_natCast, wrap64_sval h (by omega), he, BitVec.add_assoc]

/-! ## A load or a store of several parts -/

/-- A load of m parts of n bytes fills its register with them. -/
theorem exec_loadParts {i : Instr} {s : State} {g n m nd : Nat} {A : Nat → Nat} (hrun : Runs s g) (hnm : n * m = 128)
    (hi : exec i s = runWord 2 g s (fun s => (mReads n ((List.range m).map A) s).bind (fun r => .ok (setV r.2 nd (vOfBytes r.1)))))
    (hg : ∀ k < m, mGate s (tsPhys s (A k)) n = .ok ()) :
    ∃ u v, exec i s = .next (setV u nd v) ∧ ReadOnly s u ∧
      (Plain s → ∀ k < m, ∀ i < n, elem 1 (n * k + i) v = (memGet s.mem (taskByte s (A k) + i)).toNat) := by
  obtain ⟨bs, u, he, hu, hlen, hmem⟩ := mReads_ok hg
  refine ⟨u, vOfBytes bs, ?_, hu.readOnly, fun hp k hk i hi => ?_⟩
  · rw [hi]
    exact runWord_ok hrun (by rw [he]; rfl)
  · rw [elem_vOfBytes (hlen.trans hnm), hmem hp k hk i hi]

/-- A store of m parts of n bytes leaves the bytes of its register where no later part lies: in tile store outside a speculation, in
the escrow under one. -/
theorem exec_storeParts {i : Instr} {s : State} {g n m : Nat} {A : Nat → Nat} {v : VReg} (hrun : Runs s g) (hn : 0 < n)
    (hn64 : n ≤ 64) (hnm : n * m = 128) (hi : exec i s = runWord 2 g s (fun s => mWrites n ((List.range m).map A) (vBytes v 0 128) s))
    (hg : ∀ k < m, mGate s (tsPhys s (A k)) n = .ok ()) (hb : ∀ k < m, guarded s s.cur (tsPhys s (A k)) n = false) :
    (s.ctx.spec = none → ∃ t, exec i s = .next t ∧ StoreFrame s t ∧
      (∀ b, (∀ k < m, OutGrans s.cur (tsPhys s (A k)) n b) → memGet t.mem b = memGet s.mem b) ∧
      (AllSeen s s.cur pathP →
        (∀ b, (∀ k < m, b < taskByte s (A k) ∨ taskByte s (A k) + n ≤ b) → memGet t.mem b = memGet s.mem b) ∧
        (s.Safe → ∀ k < m, ∀ i < n,
          (∀ h < m, k < h → taskByte s (A k) + i < taskByte s (A h) ∨ taskByte s (A h) + n ≤ taskByte s (A k) + i) →
          (memGet t.mem (taskByte s (A k) + i)).toNat = elem 1 (n * k + i) v))) ∧
    (∀ sp, s.ctx.spec = some sp → sp.escrow.length + 2 * m ≤ 256 → ∃ t, exec i s = .next t ∧ EscrowFrame s t ∧
      ∀ k < m, ∀ i < n,
        (∀ h < m, k < h → taskByte s (A k) + i < taskByte s (A h) ∨ taskByte s (A h) + n ≤ taskByte s (A k) + i) →
        (tsByte t s.cur s.ctxP pathP (tsPhys s (A k) + i)).toNat = elem 1 (n * k + i) v) := by
  have hlen : (vBytes v 0 128).length = n * m := (leBytes_length _ _).trans hnm.symm
  have hlt : ∀ k < m, ∀ i < n, n * k + i < 128 := by
    intro k hk i hi
    have := Nat.mul_le_mul_left n hk
    rw [Nat.mul_succ] at this
    omega
  refine ⟨fun hs => ?_, fun sp hs hroom => ?_⟩
  · obtain ⟨t, he, hf, hgr, ha⟩ := mWrites_plain hn hlen hs hg hb
    refine ⟨t, by rw [hi, runWord_ok hrun he], hf, hgr, fun hseen => ?_⟩
    obtain ⟨hout, hin⟩ := ha hseen
    refine ⟨fun b h => hout b (fun k hk _ => h k hk), fun hw k hk i hi' h => ?_⟩
    rw [hin hw k hk i hi' (fun j hj hkj => h j hj hkj), vBytes_elem v (hlt k hk i hi')]
  · obtain ⟨t, sp', he, hm, hp, hsp, -, hin⟩ := mWrites_escrow hn hn64 hlen hs hroom hg hb
    refine ⟨t, by rw [hi, runWord_ok hrun he], hm.escrowFrame, fun k hk i hi' h => ?_⟩
    have hlast := hin k hk i hi' (fun j hj hkj => by
      have hout := h j hj hkj
      unfold taskByte tsAddr at hout
      show tsPhys s (A k) + i < tsPhys s (A j) ∨ tsPhys s (A j) + n ≤ tsPhys s (A k) + i
      omega)
    have hbyte : (vBytes v 0 128)[n * k + i]? = some (((vBytes v 0 128)[n * k + i]?).getD 0) := by
      rw [vBytes, leBytes_getElem? _ (hlt k hk i hi')]
      rfl
    have hctx : (t.plane s.cur s.ctxP).spec = some sp' := by rw [← hm.cur_eq, ← hp]; exact hsp
    rw [tsByte_of_escByte pathP hctx (hlast.trans hbyte), vBytes_elem v (hlt k hk i hi')]

/-! ## The words -/

section
variable {f : MV} {s : State} {x : Word} {nd : Nat} (hd : checkV s f.vd = .ok nd) (hx : readX s f.xa = .ok x)
  (hall : ∀ k < 8, strideAddr x f k % 16 = 0 ∧ strideAddr x f k + 16 ≤ tsLimit s)
include hd hx hall

theorem exec_vlds : exec (.vlds f) s = runWord 2 f.g s (fun s =>
    (mReads 16 ((List.range 8).map (strideAddr x f)) s).bind (fun r => .ok (setV r.2 nd (vOfBytes r.1)))) := by
  have e : exec (.vlds f) s = execVlds f s := rfl
  rw [e, execVlds]
  exact runWord_congr (by simp only [hd, hx, needAll_ok hall, bind, Except.bind])

theorem exec_vsts {v : VReg} (hv : readV s nd = .ok v) : exec (.vsts f) s = runWord 2 f.g s (fun s =>
    mWrites 16 ((List.range 8).map (strideAddr x f)) (vBytes v 0 128) s) := by
  have e : exec (.vsts f) s = execVsts f s := rfl
  rw [e, execVsts]
  exact runWord_congr (by simp only [hd, hx, hv, needAll_ok hall, bind, Except.bind])

end

section
variable {f : MV} {s : State} {x : Word} {nd ni : Nat} {ix : VReg} (hd : checkV s f.vd = .ok nd)
  (hi : checkV s (f.vd + 1) = .ok ni) (hx : readX s f.xa = .ok x) (hix : readV s ni = .ok ix)
  (hall : ∀ j < 32, gathAddr x f ix j % 4 = 0 ∧ gathAddr x f ix j + 4 ≤ tsLimit s)
include hd hi hx hix hall

theorem exec_vgath : exec (.vgath f) s = runWord 2 f.g s (fun s =>
    (mReads 4 ((List.range 32).map (gathAddr x f ix)) s).bind (fun r => .ok (setV r.2 nd (vOfBytes r.1)))) := by
  have e : exec (.vgath f) s = execVgath f s := rfl
  rw [e, execVgath]
  exact runWord_congr (by simp only [hd, hi, hx, hix, needAll_ok hall, bind, Except.bind])

theorem exec_vscat {v : VReg} (hv : readV s nd = .ok v) : exec (.vscat f) s = runWord 2 f.g s (fun s =>
    mWrites 4 ((List.range 32).map (gathAddr x f ix)) (vBytes v 0 128) s) := by
  have e : exec (.vscat f) s = execVscat f s := rfl
  rw [e, execVscat]
  exact runWord_congr (by simp only [hd, hi, hx, hix, hv, needAll_ok hall, bind, Except.bind])

end

/-- Settles O34. Each part goes on as the checks made before the first say, for a part leaves buffers, windows and drains alone; a
later part is the one that stays. -/
theorem stridedAndIndexedAccesses : Obligations.StridedAndIndexedAccesses := by
  unfold Obligations.StridedAndIndexedAccesses
  refine ⟨fun f s x nd A hrun hd hx hA hw hall => ?strided, fun f s x nd ni ix A hrun hd hi hx hix hA hw hall => ?indexed⟩
  case strided =>
    have hoff : f.off.wf 11 7 = true := by
      simp only [Instr.wf, MV.wf, Bool.and_eq_true] at hw
      exact hw.2
    obtain rfl : A = strideAddr x f := funext (fun k => (hA k).trans (strideAddr_eq x k hoff).symm)
    have hchk := fun k hk => (⟨(hall k hk).1, (hall k hk).2.1⟩ : _ ∧ _)
    have hgate := fun k hk => (hall k hk).2.2
    exact ⟨exec_loadParts hrun (by omega) (exec_vlds hd hx hchk) hgate,
      fun v hv hfree => exec_storeParts hrun (by omega) (by omega) (by omega) (exec_vsts hd hx hchk hv) hgate hfree⟩
  case indexed =>
    have hoff : f.off.wf 11 7 = true := by
      simp only [Instr.wf, MV.wf, Bool.and_eq_true] at hw
      exact hw.1.2
    obtain rfl : A = gathAddr x f ix := funext (fun j => (hA j).trans (gathAddr_eq x ix j hoff).symm)
    have hchk := fun k hk => (⟨(hall k hk).1, (hall k hk).2.1⟩ : _ ∧ _)
    have hgate := fun k hk => (hall k hk).2.2
    exact ⟨exec_loadParts hrun (by omega) (exec_vgath hd hi hx hix hchk) hgate,
      fun v hv hfree => exec_storeParts hrun (by omega) (by omega) (by omega) (exec_vscat hd hi hx hix hchk hv) hgate hfree⟩

end Sys2Proof.Machine
end

section
/-! PROOFS. The steps of barriers and of speculation past them (R36 to R44). -/

namespace Sys2Proof.Machine

/-! ## A commit drain writes its lines (R44) -/

/-- The bytes that lines of escrow drain to a tile's store, with their addresses. -/
def drained (r : Nat) (ls : List (Nat × NMap Byte)) : List (Nat × Byte) :=
  ls.flatMap (fun l => l.2.map (fun b => (tsAddr r (64 * l.1 + b.1), b.2)))

/-- The bytes of lines, written one after the other, change memory alone. -/
theorem drainLines_eq (r : Nat) (ls : List (Nat × NMap Byte)) (s : State) :
    ls.foldl (fun s l => l.2.foldl (fun s b => ({ s with mem := memPut s.mem (tsAddr r (64 * l.1 + b.1)) b.2 } : State)) s) s =
      { s with mem := (drained r ls).foldl (fun m x => memPut m x.1 x.2) s.mem } := by
  have line : ∀ (k : Nat) (bs : NMap Byte) (s : State),
      bs.foldl (fun s b => ({ s with mem := memPut s.mem (tsAddr r (64 * k + b.1)) b.2 } : State)) s =
        { s with mem := (bs.map (fun b => (tsAddr r (64 * k + b.1), b.2))).foldl (fun m x => memPut m x.1 x.2) s.mem } := by
    intro k bs
    induction bs with
    | nil => exact fun _ => rfl
    | cons b bs ih => exact fun s => ih _
  induction ls generalizing s with
  | nil => rfl
  | cons l ls ih =>
    have hcons : drained r (l :: ls) = l.2.map (fun b => (tsAddr r (64 * l.1 + b.1), b.2)) ++ drained r ls := List.flatMap_cons
    rw [List.foldl_cons, ih, line, hcons, List.foldl_append]

theorem drainEscrow_mem (s : State) (r : Nat) (ls : List (Nat × NMap Byte)) :
    (drainEscrow s r ls).mem = (drained r ls).foldl (fun m x => memPut m x.1 x.2) s.mem := by
  rw [drainEscrow, drainLines_eq]
  rfl

theorem drainEscrow_plane (s : State) (r p : Nat) (ls : List (Nat × NMap Byte)) : (drainEscrow s r ls).plane r p = s.plane r p := by
  rw [drainEscrow, drainLines_eq, State.plane, State.modTile_tile]
  rfl

/-- Bytes written one after the other leave every other address as it was. -/
theorem memGet_foldl_memPut_out (l : List (Nat × Byte)) (m : List Host.Cell) {a : Nat} (h : ∀ x ∈ l, a ≠ x.1) :
    memGet (l.foldl (fun m x => memPut m x.1 x.2) m) a = memGet m a := by
  induction l generalizing m with
  | nil => rfl
  | cons x l ih =>
    rw [List.foldl_cons, ih _ (fun y hy => h y (List.mem_cons_of_mem _ hy)), memGet_memPut_ne _ _ (h x List.mem_cons_self)]

/-- Bytes written one after the other stand where none names an address twice. -/
theorem memGet_foldl_memPut_in {l : List (Nat × Byte)} {m : List Host.Cell} (hw : Memory.wf m = true)
    (hinj : ∀ x ∈ l, ∀ y ∈ l, x.1 = y.1 → x = y) {x : Nat × Byte} (hx : x ∈ l) :
    memGet (l.foldl (fun m x => memPut m x.1 x.2) m) x.1 = x.2 := by
  induction l generalizing m with
  | nil => cases hx
  | cons y l ih =>
    have htail : ∀ x ∈ l, ∀ y ∈ l, x.1 = y.1 → x = y := fun x hx y hy =>
      hinj x (List.mem_cons_of_mem _ hx) y (List.mem_cons_of_mem _ hy)
    by_cases hin : x ∈ l
    · exact ih (wf_memPut hw) htail hin
    · obtain rfl : x = y := (List.mem_cons.1 hx).resolve_right hin
      have hno : ∀ z ∈ l, x.1 ≠ z.1 := fun z hz e => hin (hinj x hx z (List.mem_cons_of_mem _ hz) e ▸ hz)
      rw [List.foldl_cons, memGet_foldl_memPut_out _ _ hno, memGet_memPut_self hw]

theorem mem_drained {r : Nat} {ls : List (Nat × NMap Byte)} {x : Nat × Byte} :
    x ∈ drained r ls ↔ ∃ l ∈ ls, ∃ b ∈ l.2, (tsAddr r (64 * l.1 + b.1), b.2) = x := by
  simp only [drained, List.mem_flatMap, List.mem_map]

/-- Lines of different addresses, each with different bytes of a line, name no address twice. -/
theorem drained_inj {r : Nat} {ls : List (Nat × NMap Byte)} (h : (ls.map (·.1)).Nodup)
    (hl : ∀ l ∈ ls, (l.2.map (·.1)).Nodup ∧ ∀ b ∈ l.2, b.1 < 64) :
    ∀ x ∈ drained r ls, ∀ y ∈ drained r ls, x.1 = y.1 → x = y := by
  intro x hx y hy e
  obtain ⟨l, hlm, b, hb, rfl⟩ := mem_drained.1 hx
  obtain ⟨k, hkm, c, hc, rfl⟩ := mem_drained.1 hy
  have hb64 := (hl l hlm).2 b hb
  have hc64 := (hl k hkm).2 c hc
  simp only [tsAddr] at e
  obtain rfl : l = k := List.inj_on_of_nodup_map h hlm hkm (by omega)
  obtain rfl : b = c := List.inj_on_of_nodup_map (hl l hlm).1 hb hc (by omega)
  rfl

/-! ## A plane after a rollback and after a commit -/

/-- R250: flags completed during a speculation are all that a rollback keeps of the registers that it restores. -/
theorem keepFlags_flag (ck : Regs) (done : List (Nat × Nat × Quad)) : ∃ fl, keepFlags ck done = { ck with flag := fl } := by
  unfold keepFlags
  induction done generalizing ck with
  | nil => exact ⟨ck.flag, rfl⟩
  | cons d done ih =>
    obtain ⟨fl, h⟩ := ih (ck.setFl d.1 { on := true, status := d.2.2, bound := none, last := d.2.1 })
    exact ⟨fl, h⟩

theorem restored_spec (pl : Plane) (sp : Spec) : (restored pl sp).bank = sp.ckpt.bank ∧ (restored pl sp).v = sp.ckpt.v ∧
    (restored pl sp).q = sp.ckpt.q ∧ (restored pl sp).t = sp.ckpt.t ∧ (restored pl sp).ph = sp.ckpt.ph ∧
    (restored pl sp).pc = sp.pc ∧ (restored pl sp).acc = pl.regs.acc ∧ (restored pl sp).hbcnt = pl.regs.hbcnt ∧
    (sp.doneFlags = [] → (restored pl sp).flag = sp.ckpt.flag) := by
  have hflag : sp.doneFlags = [] → (restored pl sp).flag = sp.ckpt.flag := fun hd => by rw [restored, hd]; rfl
  obtain ⟨fl, h⟩ := keepFlags_flag sp.ckpt sp.doneFlags
  refine ⟨?_, ?_, ?_, ?_, ?_, rfl, rfl, rfl, hflag⟩ <;> rw [restored, h]

theorem committed_spec (pl : Plane) (sp : Spec) : (committed pl sp).spec = none ∧ (committed pl sp).rollbacks = 0 ∧
    (∀ sd ∈ (committed pl sp).sends, sd.spec = false) ∧ (∀ m ∈ (committed pl sp).mx, m.spec = false) ∧
    ({ (committed pl sp).regs with specst := pl.regs.specst, acc := pl.regs.acc } : Regs) = pl.regs ∧
    ∀ k < 4, (committed pl sp).regs.acc[k]? = some (ngetD sp.shadow k ((pl.regs.acc[k]?).getD {})) := by
  refine ⟨rfl, rfl, ?_, ?_, rfl, fun k hk => ?_⟩
  · simp only [committed, List.forall_mem_map, implies_true]
  · simp only [committed, List.forall_mem_map, implies_true]
  · simp [committed, takeShadows, hk]

/-! ## Steps that engines go on with -/

/-- The agenda alone may have changed, and what was due stays so. -/
def OnlyDue (s t : State) : Prop := t = { s with agenda := t.agenda } ∧ ∀ i, s.Due i → t.Due i

theorem OnlyDue.refl (s : State) : OnlyDue s s := ⟨rfl, fun _ h => h⟩

theorem OnlyDue.trans {s t u : State} (h : OnlyDue s t) (k : OnlyDue t u) : OnlyDue s u := by
  obtain ⟨h, hd⟩ := h
  obtain ⟨k, kd⟩ := k
  refine ⟨?_, fun i hi => kd i (hd i hi)⟩
  rw [k, h]

theorem emit_onlyDue (s : State) (ev : Instr) : OnlyDue s (emit s ev) := ⟨rfl, fun _ h => emit_keeps s ev h⟩

theorem emitOnce_onlyDue (s : State) (ev : Instr) : OnlyDue s (emitOnce s ev) := by
  rcases emitOnce_eq s ev with h | h <;> rw [h]
  · exact OnlyDue.refl s
  · exact emit_onlyDue s ev

theorem emitNet_onlyDue (s : State) (a b n : Nat) (ev : Instr) : OnlyDue s (emitNet s a b n ev) :=
  ⟨rfl, fun _ h => emitNet_keeps s a b n ev h⟩

theorem foldl_onlyDue {α : Type} {f : State → α → State} (h : ∀ s a, OnlyDue s (f s a)) (l : List α) (s : State) :
    OnlyDue s (l.foldl f s) := by
  induction l generalizing s with
  | nil => exact OnlyDue.refl s
  | cons a l ih => exact (h s a).trans (ih _)

section
variable {s t : State} (h : OnlyDue s t)
include h

theorem OnlyDue.tile_eq (r : Nat) : t.tile r = s.tile r := by rw [h.1]; rfl

theorem OnlyDue.plane_eq (r p : Nat) : t.plane r p = s.plane r p := by rw [h.1]; rfl

theorem OnlyDue.mem_eq : t.mem = s.mem := by rw [h.1]

theorem OnlyDue.launches_eq : t.launches = s.launches := by rw [h.1]

end

theorem mxKick_onlyDue (s : State) (r p : Nat) : OnlyDue s (mxKick s r p) := by
  simp only [mxKick]
  cases (s.plane r p).mx.head? with
  | none => exact OnlyDue.refl s
  | some e =>
    simp only
    split
    · exact OnlyDue.refl s
    · split
      · split
        · exact emitOnce_onlyDue s _
        · split
          · exact OnlyDue.refl s
          · exact emit_onlyDue s _
      · exact emitOnce_onlyDue s _
      · exact emitOnce_onlyDue s _

/-- The release flits sent are due, and the plane's list of ended speculations follows. -/
theorem pumpRelease_eq (s : State) (r p : Nat) : ∃ u f, OnlyDue s u ∧ pumpRelease s r p = u.modPlane r p f ∧
    ∀ pl, ∃ rel, f pl = { pl with releasing := rel } := by
  refine ⟨_, _, foldl_onlyDue (fun s e => ?_) _ s, rfl, fun pl => ⟨_, rfl⟩⟩
  split
  · exact OnlyDue.refl s
  · exact foldl_onlyDue (fun s v => emitNet_onlyDue s _ _ _ _) _ s

/-! ## Rollbacks (R42) -/

/-- Where no ARRIVE of a copy waits for the end of a speculation, none is signalled at it. -/
theorem lateArrives_of_nil {s : State} {r p : Nat} (h : (s.plane r p).arrWait = []) :
    lateArrives s r p = s.modPlane r p (fun pl => { pl with arrWait := [] }) := by
  rw [lateArrives, h]
  rfl

/-- A rollback restores the plane, and leaves memory. -/
theorem rollbackOne_spec {s : State} {r p : Nat} {sp : Spec} (c : Bool) (hs : (s.plane r p).spec = some sp)
    (hc : sp.committing = false) (hw : (s.plane r p).arrWait = []) : (rollbackOne s r p c).mem = s.mem ∧
      ∃ rel, (rollbackOne s r p c).plane r p = { (rolled (s.plane r p) sp c).fire with arrWait := [], releasing := rel } := by
  generalize hu : s.modTile r (fun t => { t.setPl p (rolled (t.pl p) sp c).fire with
    reqs := rolledReqs t.reqs p, dualq := rolledDual t.dualq p sp.firstOp }) = u
  have hroll : rollbackOne s r p c = mxKick (pumpRelease (lateArrives u r p) r p) r p := by
    simp only [rollbackOne, hs, hc, ← hu]
    rfl
  have hplane : u.plane r p = (rolled (s.plane r p) sp c).fire := by
    rw [← hu, State.plane, State.modTile_tile]
    exact Tile.setPl_pl _ _ _
  have hmem : u.mem = s.mem := by rw [← hu]; rfl
  have hlate := lateArrives_of_nil (s := u) (r := r) (p := p) (by rw [hplane]; exact hw)
  obtain ⟨v, f, hv, hpump, hf⟩ := pumpRelease_eq (lateArrives u r p) r p
  have hkick := mxKick_onlyDue (pumpRelease (lateArrives u r p) r p) r p
  obtain ⟨rel, hrel⟩ := hf (v.plane r p)
  rw [hroll]
  refine ⟨?_, rel, ?_⟩
  · rw [hkick.mem_eq, hpump, ← hmem]
    exact hv.mem_eq.trans (by rw [hlate]; rfl)
  · rw [hkick.plane_eq, hpump, State.modPlane_plane, hrel, hv.plane_eq, hlate, State.modPlane_plane, hplane]

theorem exec_conflictNotice_eq (r p n : Nat) (s : State) : exec (.conflictNotice r p n) s = execConflictNotice r p n s := rfl

theorem exec_conflictNotice_none {s : State} {r p n : Nat} (h : (Instr.conflictNotice r p n).wf = true)
    (hs : (s.plane r p).spec = none) : exec (.conflictNotice r p n) s = .next s := by
  simp only [exec_conflictNotice_eq, execConflictNotice, runEvent_ok h, hs]

theorem exec_conflictNotice_some {s : State} {r p n : Nat} {sp : Spec} (h : (Instr.conflictNotice r p n).wf = true)
    (hs : (s.plane r p).spec = some sp) :
    exec (.conflictNotice r p n) s = .next (if sp.number = n then rollback s r p true else s) := by
  simp only [exec_conflictNotice_eq, execConflictNotice, runEvent_ok h, hs]

/-- R42: the rollback of a task of its own. -/
theorem rollback_spec {s : State} {r p : Nat} {sp : Spec} (hs : (s.plane r p).spec = some sp) (hc : sp.committing = false)
    (hd : (s.plane r p).task.dual = false) (hw : (s.plane r p).arrWait = []) : SameMem s (rollback s r p true) ∧
      ((rollback s r p true).plane r p).spec = none ∧
      ((rollback s r p true).plane r p).rollbacks = (s.plane r p).rollbacks + 1 ∧
      ((rollback s r p true).plane r p).regs = restored (s.plane r p) sp ∧
      ∀ sd ∈ ((rollback s r p true).plane r p).sends, sd ∈ (s.plane r p).sends ∧ sd.spec = false := by
  obtain ⟨hmem, rel, hp⟩ := rollbackOne_spec true hs hc hw
  have halone : partnerOf (rollbackOne s r p true) r p = none := by
    have ht : ((rollbackOne s r p true).plane r p).task = (s.plane r p).task := by rw [hp]; rfl
    simp [partnerOf, ht, hd]
  have hone : rollback s r p true = rollbackOne s r p true := by
    simp only [rollback, halone]
  rw [hone, hp]
  refine ⟨sameMem_of_mem_eq hmem, rfl, rfl, rfl, fun sd hsd => ?_⟩
  have hin : sd ∈ (s.plane r p).sends.filter (fun sd => !sd.spec) := hsd
  simpa using hin

/-! ## Signals (R36, R37) -/

theorem launchOf_modLaunch {s : State} {num : Nat} {l : Launch} (f : Launch → Launch) (h : s.launchOf num = some l)
    (hf : ∀ k : Launch, (f k).num = k.num) : (s.modLaunch num f).launchOf num = some (f l) := by
  have hn : l.num = num := by simpa using List.find?_some h
  have hp : ((fun k : Launch => decide (k.num = num)) ∘ fun k => if k.num = num then f k else k) = fun k => decide (k.num = num) := by
    funext k
    simp only [Function.comp]
    split
    · rw [hf]
    · rfl
  simp only [State.launchOf, State.modLaunch, List.find?_map, hp]
  have h' : s.launches.find? (fun k => decide (k.num = num)) = some l := h
  rw [h']
  simp [hn]

/-- A launch whose tree of a group is another. -/
def Launch.withTree (l : Launch) (g : Nat) (t : Tree) : Launch := { l with trees := l.trees.setIfInBounds g t }

theorem Launch.withTree_tree (l : Launch) {g : Nat} (t : Tree) (h : g < 4) : (((l.withTree g t).trees[g]?).getD {}) = t := by
  rw [Launch.withTree, getD_setIfInBounds _ h, if_pos rfl]

/-- A member's signal stands in its group's tree, which completes its phase with the last. -/
theorem signalTree_spec {s : State} {num g : Nat} {l : Launch} (i : Nat) (h : s.launchOf num = some l) (hg : g < 4) :
    (signalTree s num i g).tiles = s.tiles ∧ (signalTree s num i g).suspended = s.suspended ∧ (signalTree s num i g).mem = s.mem ∧
      (∃ m, (signalTree s num i g).launchOf num = some m ∧
        ((m.trees[g]?).getD {}).arrived = ((l.trees[g]?).getD {}).arrived ++ [i]) ∧
      (l.ntask ≤ ((l.trees[g]?).getD {}).arrived.length + 1 → (signalTree s num i g).Due (.barrierPhaseComplete num g)) := by
  generalize hu : s.modLaunch num (fun l => l.withTree g { (l.trees[g]?).getD {} with
    arrived := ((l.trees[g]?).getD {}).arrived ++ [i] }) = u
  have hl : u.launchOf num = some (l.withTree g { (l.trees[g]?).getD {} with
      arrived := ((l.trees[g]?).getD {}).arrived ++ [i] }) := by
    rw [← hu]
    exact launchOf_modLaunch _ h (fun _ => rfl)
  have harr := congrArg Tree.arrived (l.withTree_tree { (l.trees[g]?).getD {} with
    arrived := ((l.trees[g]?).getD {}).arrived ++ [i] } hg)
  have hn : (l.withTree g { (l.trees[g]?).getD {} with arrived := ((l.trees[g]?).getD {}).arrived ++ [i] }).ntask = l.ntask := rfl
  generalize l.withTree g { (l.trees[g]?).getD {} with arrived := ((l.trees[g]?).getD {}).arrived ++ [i] } = m at hl harr hn
  have hlen : ((m.trees[g]?).getD {}).arrived.length = ((l.trees[g]?).getD {}).arrived.length + 1 := by rw [harr]; simp
  have he : signalTree s num i g =
      if l.ntask ≤ ((l.trees[g]?).getD {}).arrived.length + 1 then emitOnce u (.barrierPhaseComplete num g) else u := by
    have h0 : signalTree s num i g = match u.launchOf num with
        | none => u
        | some l => if l.ntask ≤ ((l.trees[g]?).getD {}).arrived.length then emitOnce u (.barrierPhaseComplete num g) else u := by
      rw [← hu]
      rfl
    simp only [h0, hl, hlen, hn]
  have hdue : OnlyDue u (signalTree s num i g) := by
    rw [he]
    split
    · exact emitOnce_onlyDue u _
    · exact OnlyDue.refl u
  have hkeep : u.tiles = s.tiles ∧ u.suspended = s.suspended ∧ u.mem = s.mem := by rw [← hu]; exact ⟨rfl, rfl, rfl⟩
  obtain ⟨ht, hs, hm⟩ := hkeep
  refine ⟨?_, ?_, ?_, ⟨m, ?_, harr⟩, fun hle => ?_⟩
  · rw [hdue.1]; exact ht
  · rw [hdue.1]; exact hs
  · rw [hdue.1]; exact hm
  · rw [State.launchOf, hdue.launches_eq]; exact hl
  · rw [he, if_pos hle]
    exact emitOnce_due u _

theorem exec_arriveSignalRelease {s : State} {r p : Nat} (h : (Instr.arriveSignalRelease r p).wf = true) :
    exec (.arriveSignalRelease r p) s = .next (releaseSignals s r p) := by
  have e : exec (.arriveSignalRelease r p) s = execArriveSignalRelease r p s := rfl
  rw [e, execArriveSignalRelease, runEvent_ok h]

/-- Where no task is suspended at the tile, the signals of the plane alone are looked at, and the step stays due while one waits. -/
theorem releaseSignals_eq {s u : State} {r p : Nat} (hu : planeSignals s r p = u) (hs : ∀ v ∈ u.suspended, v.rank ≠ r) :
    releaseSignals s r p = if (u.plane r p).held ≠ [] then emitOnce u (.arriveSignalRelease r p) else u := by
  have hnone : u.suspended.filter (fun v => decide (v.rank = r)) = [] := by
    rw [List.filter_eq_nil_iff]
    simpa using hs
  have hany : u.suspended.any (fun v => decide (v.rank = r) && !v.plane.held.isEmpty) = false := by
    rw [List.any_eq_false]
    intro v hv
    simp [hs v hv]
  simp only [releaseSignals, hu, hnone, List.foldl_nil, hany, Bool.false_eq_true, or_false]

/-- R37: one arrival of a group not released, which waits or leaves. -/
theorem signals_one {t : Tile} {p : Nat} {k : Task} {h : Held} {s : State} (hout : s.groupOut k.launch h.group = 0) :
    signals t p k false [h] [] s =
      if heldBack s t p k [] 1 h then ([h], s) else ([], signalTree s k.launch k.index h.group) := by
  have hlater : ([h].filter (fun e => decide (e.group = h.group))).length = 1 := by simp
  simp only [signals, hout, hlater]
  rfl

/-- What holds an arrival back: among others the comparison of its pair, and the operations that it waits for. -/
theorem heldBack_false {s : State} {t : Tile} {p : Nat} {k : Task} {h : Held} (hb : heldBack s t p k [] 1 h = false) :
    arriveTokens t p h.group = 0 ∧ ∀ id ∈ h.waits, stillHolds t p id = false := by
  simp only [heldBack, Bool.or_eq_false_iff, decide_eq_false_iff_not, List.any_eq_false] at hb
  obtain ⟨⟨⟨⟨-, htok⟩, hwait⟩, -⟩, -⟩ := hb
  exact ⟨by omega, fun id hid => by simpa using hwait id hid⟩

/-- R36, R37: the step of one arrival, at a tile with no suspended task. -/
theorem arriveSignal_spec {s : State} {r p : Nat} {h : Held} {k : Task} {l : Launch}
    (hwf : (Instr.arriveSignalRelease r p).wf = true) (hh : (s.plane r p).held = [h]) (hk : k = (s.plane r p).task)
    (hodd : isOdd r k = false) (hsusp : ∀ u ∈ s.suspended, u.rank ≠ r) (hg : h.group < 4) (hl : s.launchOf k.launch = some l)
    (hout : s.groupOut k.launch h.group = 0) :
    (heldBack s (s.tile r) p k [] 1 h = true → ∃ t, exec (.arriveSignalRelease r p) s = .next t ∧
      t.Due (.arriveSignalRelease r p) ∧ t.launches = s.launches ∧ (t.plane r p).held = [h] ∧ SameMem s t) ∧
    (heldBack s (s.tile r) p k [] 1 h = false → ∃ t m, exec (.arriveSignalRelease r p) s = .next t ∧ (t.plane r p).held = [] ∧
      SameMem s t ∧ t.launchOf k.launch = some m ∧ ((m.trees[h.group]?).getD {}).arrived =
        ((l.trees[h.group]?).getD {}).arrived ++ [k.index] ∧
      (l.ntask ≤ ((l.trees[h.group]?).getD {}).arrived.length + 1 → t.Due (.barrierPhaseComplete k.launch h.group))) := by
  have hsig : signals (s.tile r) p (s.plane r p).task (isOdd r (s.plane r p).task) (s.plane r p).held [] s =
      if heldBack s (s.tile r) p k [] 1 h then ([h], s) else ([], signalTree s k.launch k.index h.group) := by
    rw [← hk, hodd, hh, signals_one hout]
  refine ⟨fun hb => ?_, fun hb => ?_⟩
  · have hu : planeSignals s r p = s.modPlane r p (fun pl => { pl with held := [h] }) := by
      simp only [planeSignals, hsig, hb, if_true]
    have hheld : ((s.modPlane r p (fun pl => { pl with held := [h] })).plane r p).held = [h] := by rw [State.modPlane_plane]
    rw [exec_arriveSignalRelease hwf, releaseSignals_eq hu hsusp, hheld, if_pos (by simp)]
    have hdue := emitOnce_onlyDue (s.modPlane r p (fun pl => { pl with held := [h] })) (.arriveSignalRelease r p)
    refine ⟨_, rfl, emitOnce_due _ _, hdue.launches_eq, by rw [hdue.plane_eq, hheld], sameMem_of_mem_eq hdue.mem_eq⟩
  · obtain ⟨ht, hs, hm, ⟨m, hlm, harr⟩, hdue⟩ := signalTree_spec k.index hl hg
    have hu : planeSignals s r p =
        (signalTree s k.launch k.index h.group).modPlane r p (fun pl => { pl with held := [] }) := by
      simp only [planeSignals, hsig, hb, Bool.false_eq_true, if_false]
    have hheld : (((signalTree s k.launch k.index h.group).modPlane r p (fun pl => { pl with held := [] })).plane r p).held = [] := by
      rw [State.modPlane_plane]
    rw [exec_arriveSignalRelease hwf, releaseSignals_eq hu (by simpa [hs] using hsusp), hheld, if_neg (by simp)]
    exact ⟨_, m, rfl, hheld, sameMem_of_mem_eq hm, hlm, harr, hdue⟩

/-! ## Phases (R36, R44) -/

/-- Commits may have begun: of a plane whose speculation is not as before the drain is due. -/
structure CommitsBegun (s t : State) : Prop where
  mem : t.mem = s.mem
  launches : t.launches = s.launches
  due : ∀ i, s.Due i → t.Due i
  plane : ∀ r p, p < 2 → (t.plane r p).state = (s.plane r p).state ∧ (t.plane r p).task = (s.plane r p).task ∧
    ((t.plane r p).spec = (s.plane r p).spec ∨ t.Due (.escrowDrainEnd r p))

theorem CommitsBegun.refl (s : State) : CommitsBegun s s := ⟨rfl, rfl, fun _ h => h, fun _ _ _ => ⟨rfl, rfl, .inl rfl⟩⟩

theorem CommitsBegun.trans {s t u : State} (h : CommitsBegun s t) (k : CommitsBegun t u) : CommitsBegun s u := by
  refine ⟨k.mem.trans h.mem, k.launches.trans h.launches, fun i hi => k.due i (h.due i hi), fun r p hp => ?_⟩
  obtain ⟨hst, htk, hsp⟩ := h.plane r p hp
  obtain ⟨kst, ktk, ksp⟩ := k.plane r p hp
  refine ⟨kst.trans hst, ktk.trans htk, ?_⟩
  rcases ksp with ksp | ksp
  · rcases hsp with hsp | hsp
    · exact .inl (ksp.trans hsp)
    · exact .inr (k.due _ hsp)
  · exact .inr ksp

/-- Which plane holds a task says its state and task alone. -/
theorem CommitsBegun.planeOfTask_eq {s t : State} (h : CommitsBegun s t) (r num n : Nat) :
    planeOfTask (t.tile r) num n = planeOfTask (s.tile r) num n := by
  obtain ⟨hs0, ht0, -⟩ := h.plane r 0 (by omega)
  obtain ⟨hs1, ht1, -⟩ := h.plane r 1 (by omega)
  have e0 : ∀ u : State, u.plane r 0 = (u.tile r).plane0 := fun _ => rfl
  have e1 : ∀ u : State, u.plane r 1 = (u.tile r).plane1 := fun _ => rfl
  rw [e0, e0] at hs0 ht0
  rw [e1, e1] at hs1 ht1
  rw [planeOfTask, planeOfTask, hs0, ht0, hs1, ht1]

/-- A plane other than the one changed. -/
theorem modPlane_plane_ne (s : State) (f : Plane → Plane) {r q p o : Nat} (hp : p < 2) (ho : o < 2) (h : ¬ (q = r ∧ o = p)) :
    (s.modPlane r p f).plane q o = s.plane q o := by
  by_cases hq : q = r
  · subst hq
    rw [State.plane, State.modPlane_tile]
    exact Tile.setPl_pl_ne _ _ (by omega)
  · rw [State.plane, State.modPlane_tile_ne _ _ _ hq, State.plane]

theorem beginCommit_begun (s : State) (r n done : Nat) {p : Nat} (hp : p < 2) : CommitsBegun s (beginCommit s r p n done) := by
  cases hs : (s.plane r p).spec with
  | none =>
    simp only [beginCommit, hs]
    exact CommitsBegun.refl s
  | some sp =>
    simp only [beginCommit, hs]
    split
    · refine ⟨rfl, rfl, fun i hi => emit_keeps _ _ hi, fun q o ho => ?_⟩
      by_cases hq : q = r ∧ o = p
      · obtain ⟨rfl, rfl⟩ := hq
        have hpl := State.modPlane_plane s q o (fun pl => { pl with spec := some { sp with committing := true } })
        exact ⟨(congrArg Plane.state hpl).trans rfl, (congrArg Plane.task hpl).trans rfl, .inr (emit_due _ _)⟩
      · have hpl := modPlane_plane_ne s (fun pl => { pl with spec := some { sp with committing := true } }) hp ho hq
        exact ⟨congrArg Plane.state hpl, congrArg Plane.task hpl, .inl (congrArg Plane.spec hpl)⟩
    · exact CommitsBegun.refl s

/-- R44: the commit of a speculation that awaits no more phases begins. -/
theorem beginCommit_due {s : State} {r p n done : Nat} {sp : Spec} (hs : (s.plane r p).spec = some sp) (hn : sp.group = n)
    (ha : sp.awaits ≤ done) (hc : sp.committing = false) : (beginCommit s r p n done).Due (.escrowDrainEnd r p) := by
  simp only [beginCommit, hs]
  rw [if_pos ⟨hn, ha, hc⟩]
  exact emit_due _ _

theorem planeOfTask_lt {t : Tile} {num n p : Nat} (h : planeOfTask t num n = some p) : p < 2 := by
  unfold planeOfTask at h
  split at h
  · obtain rfl := Option.some.inj h
    omega
  · split at h
    · obtain rfl := Option.some.inj h
      omega
    · cases h

theorem partnerOf_lt {s : State} {r p q o : Nat} (h : partnerOf s r p = some (q, o)) : o < 2 := by
  simp only [partnerOf] at h
  split at h
  · obtain ⟨o', ho, e⟩ := Option.map_eq_some_iff.1 h
    obtain rfl : o' = o := congrArg Prod.snd e
    exact planeOfTask_lt ho
  · cases h

/-- What a completed phase does at one member of the launch, and at its DUAL partner. -/
def memberPhase (num g done : Nat) (s : State) (m : Nat × Nat) : State :=
  match planeOfTask (s.tile m.2) num m.1 with
  | none => s
  | some p =>
    let tw := partnerOf s m.2 p
    let s := beginCommit s m.2 p g done
    match tw with
    | some (r2, p2) => beginCommit s r2 p2 g done
    | none => s

theorem completePhase_eq (s : State) (l : Launch) (g : Nat) : completePhase s l g =
    l.members.foldl (memberPhase l.num g (((l.trees[g]?).getD {}).done + 1)) (s.modLaunch l.num (fun m =>
      m.withTree g { (l.trees[g]?).getD {} with phase := !((l.trees[g]?).getD {}).phase,
                                                done := ((l.trees[g]?).getD {}).done + 1, arrived := [] })) := rfl

theorem memberPhase_begun (num g done : Nat) (s : State) (m : Nat × Nat) : CommitsBegun s (memberPhase num g done s m) := by
  cases hp : planeOfTask (s.tile m.2) num m.1 with
  | none =>
    simp only [memberPhase, hp]
    exact CommitsBegun.refl s
  | some p =>
    simp only [memberPhase, hp]
    have hone := beginCommit_begun s m.2 g done (planeOfTask_lt hp)
    split
    · rename_i r2 p2 htw
      exact hone.trans (beginCommit_begun _ _ _ _ (partnerOf_lt htw))
    · exact hone

theorem memberPhase_due {num g done : Nat} {s : State} {n r p : Nat} {sp : Spec} (hp : planeOfTask (s.tile r) num n = some p)
    (hs : (s.plane r p).spec = some sp) (hg : sp.group = g) (ha : sp.awaits ≤ done) (hc : sp.committing = false) :
    (memberPhase num g done s (n, r)).Due (.escrowDrainEnd r p) := by
  have hone := beginCommit_due hs hg ha hc
  simp only [memberPhase, hp]
  split
  · rename_i r2 p2 htw
    exact (beginCommit_begun _ _ _ _ (partnerOf_lt htw)).due _ hone
  · exact hone

/-- Of every member the commit of a speculation that awaits no more phases begins. -/
theorem foldl_memberPhase (num g done : Nat) (ms : List (Nat × Nat)) (s : State) :
    CommitsBegun s (ms.foldl (memberPhase num g done) s) ∧ ∀ n r p sp, (n, r) ∈ ms → planeOfTask (s.tile r) num n = some p →
      (s.plane r p).spec = some sp → sp.group = g → sp.awaits ≤ done → sp.committing = false →
      (ms.foldl (memberPhase num g done) s).Due (.escrowDrainEnd r p) := by
  induction ms generalizing s with
  | nil => exact ⟨CommitsBegun.refl s, fun n r p sp h => by cases h⟩
  | cons m ms ih =>
    obtain ⟨hrest, hdue⟩ := ih (memberPhase num g done s m)
    have hfirst := memberPhase_begun num g done s m
    refine ⟨hfirst.trans hrest, fun n r p sp hin hp hs hg ha hc => ?_⟩
    rcases List.mem_cons.1 hin with rfl | hin
    · exact hrest.due _ (memberPhase_due hp hs hg ha hc)
    · obtain ⟨-, -, hsp⟩ := hfirst.plane r p (planeOfTask_lt hp)
      rcases hsp with hsp | hsp
      · exact hdue n r p sp hin (by rw [hfirst.planeOfTask_eq]; exact hp) (hsp.trans hs) hg ha hc
      · exact hrest.due _ hsp

theorem exec_barrierPhaseComplete {s : State} {num g : Nat} {l : Launch} (h : (Instr.barrierPhaseComplete num g).wf = true)
    (hl : s.launchOf num = some l) : exec (.barrierPhaseComplete num g) s =
      .next (if ((l.trees[g]?).getD {}).out ≠ 0 ∨ ((l.trees[g]?).getD {}).arrived.length < l.ntask then s else completePhase s l g) := by
  have e : exec (.barrierPhaseComplete num g) s = execBarrierPhaseComplete num g s := rfl
  rw [e, execBarrierPhaseComplete, runEvent_ok h]
  simp only [hl]

/-- R36, R44: the step of a phase. -/
theorem barrierPhase_spec {s : State} {num g : Nat} {l : Launch} {tr : Tree} (hwf : (Instr.barrierPhaseComplete num g).wf = true)
    (hl : s.launchOf num = some l) (htr : tr = (l.trees[g]?).getD {}) :
    (tr.out ≠ 0 ∨ tr.arrived.length < l.ntask → exec (.barrierPhaseComplete num g) s = .next s) ∧
    (tr.out = 0 → l.ntask ≤ tr.arrived.length → ∃ t m, exec (.barrierPhaseComplete num g) s = .next t ∧ SameMem s t ∧
      t.launchOf num = some m ∧ ((m.trees[g]?).getD {}).phase = !tr.phase ∧ ((m.trees[g]?).getD {}).arrived = [] ∧
      ((m.trees[g]?).getD {}).done = tr.done + 1 ∧ ∀ n r p sp, (n, r) ∈ l.members → planeOfTask (s.tile r) num n = some p →
        (s.plane r p).spec = some sp → sp.group = g →
        sp.awaits ≤ tr.done + 1 → sp.committing = false → t.Due (.escrowDrainEnd r p)) := by
  have hg : g < 4 := of_decide_eq_true hwf
  have hnum : l.num = num := by simpa using List.find?_some hl
  rw [exec_barrierPhaseComplete hwf hl, ← htr]
  refine ⟨fun h => by rw [if_pos h], fun ho hle => ?_⟩
  rw [if_neg (by omega), completePhase_eq, ← htr, hnum]
  generalize hu : s.modLaunch num (fun m => m.withTree g { tr with phase := !tr.phase, done := tr.done + 1, arrived := [] }) = u
  have hlu : u.launchOf num = some (l.withTree g { tr with phase := !tr.phase, done := tr.done + 1, arrived := [] }) := by
    rw [← hu]
    exact launchOf_modLaunch _ hl (fun _ => rfl)
  have hut : u.tiles = s.tiles ∧ u.mem = s.mem := by rw [← hu]; exact ⟨rfl, rfl⟩
  obtain ⟨htiles, hmem⟩ := hut
  have htile : ∀ r, u.tile r = s.tile r := fun r => by rw [State.tile, State.tile, htiles]
  have hplane : ∀ r p, u.plane r p = s.plane r p := fun r p => by rw [State.plane, htile, State.plane]
  obtain ⟨hb, hdue⟩ := foldl_memberPhase num g (tr.done + 1) l.members u
  have htree := l.withTree_tree { tr with phase := !tr.phase, done := tr.done + 1, arrived := [] } hg
  refine ⟨_, _, rfl, sameMem_of_mem_eq (hb.mem.trans hmem), by rw [State.launchOf, hb.launches]; exact hlu,
    congrArg Tree.phase htree, congrArg Tree.arrived htree, congrArg Tree.done htree, fun n r p sp hin hp hs => ?_⟩
  exact hdue n r p sp hin (by rw [htile]; exact hp) (by rw [hplane]; exact hs)

/-! ## Commits (R44) -/

section
variable {s : State} {r p : Nat} (h : (Instr.escrowDrainEnd r p).wf = true)
include h

theorem exec_escrowDrainEnd_none (hs : (s.plane r p).spec = none) : exec (.escrowDrainEnd r p) s = .next s := by
  have e : exec (.escrowDrainEnd r p) s = execEscrowDrainEnd r p s := rfl
  simp only [e, execEscrowDrainEnd, runEvent_ok h, hs]

theorem exec_escrowDrainEnd_some {sp : Spec} (hs : (s.plane r p).spec = some sp) : exec (.escrowDrainEnd r p) s =
    .next (if !sp.committing then s else if sp.escrow.isEmpty then commitAt s r p sp else drainLine s r p sp) := by
  have e : exec (.escrowDrainEnd r p) s = execEscrowDrainEnd r p s := rfl
  simp only [e, execEscrowDrainEnd, runEvent_ok h, hs]

theorem exec_escrowDrainEnd_idle (hd : (s.plane r p).drains = false) : exec (.escrowDrainEnd r p) s = .next s := by
  cases hs : (s.plane r p).spec with
  | none => exact exec_escrowDrainEnd_none h hs
  | some sp =>
    have hc : sp.committing = false := by
      rw [Plane.drains_eq, hs] at hd
      exact hd
    rw [exec_escrowDrainEnd_some h hs, hc]
    rfl

theorem exec_escrowDrainEnd_last {sp : Spec} (hs : (s.plane r p).spec = some sp) (hc : sp.committing = true)
    (he : sp.escrow = []) : exec (.escrowDrainEnd r p) s = .next (commitAt s r p sp) := by
  rw [exec_escrowDrainEnd_some h hs, hc, he]
  rfl

theorem exec_escrowDrainEnd_line {sp : Spec} {l : Nat × NMap Byte} {e : List (Nat × NMap Byte)} (hs : (s.plane r p).spec = some sp)
    (hc : sp.committing = true) (he : sp.escrow = l :: e) : ∃ t, exec (.escrowDrainEnd r p) s = .next t ∧
      t.mem = (drainEscrow s r [l]).mem ∧ t.Due (.escrowDrainEnd r p) ∧ (t.plane r p).spec = some { sp with escrow := e } ∧
      (t.plane r p).regs = (s.plane r p).regs := by
  have htake : sp.escrow.take 1 = [l] := by rw [he]; rfl
  have hdrop : sp.escrow.drop 1 = e := by rw [he]; rfl
  refine ⟨drainLine s r p sp, by rw [exec_escrowDrainEnd_some h hs, hc, he]; rfl, ?_⟩
  rw [drainLine, htake, hdrop]
  generalize hu : (drainEscrow s r [l]).modPlane r p (fun pl => { pl with spec := some { sp with escrow := e } }) = u
  have hmem : u.mem = (drainEscrow s r [l]).mem := by rw [← hu]; rfl
  have hpl : u.plane r p = (s.plane r p).withSpec (some { sp with escrow := e }) := by
    rw [← hu, State.modPlane_plane, drainEscrow_plane]
    rfl
  have hdue := emitOnce_onlyDue u (.escrowDrainEnd r p)
  exact ⟨hdue.mem_eq.trans hmem, emitOnce_due _ _, by rw [hdue.plane_eq, hpl]; rfl, by rw [hdue.plane_eq, hpl]; rfl⟩

end

/-- Settles O53. A signal is one step of the list of arrivals; a phase's fold over the members keeps which plane holds a task, and makes
a drain due wherever it begins a commit. -/
theorem barrierSteps : Obligations.BarrierSteps := by
  unfold Obligations.BarrierSteps
  refine ⟨fun s r p h k l hwf hh hk hodd hsusp hg hl hout => arriveSignal_spec hwf hh hk hodd hsusp hg hl hout,
    fun s t p k h hb => heldBack_false hb, fun s num g l tr hwf hl htr => barrierPhase_spec hwf hl htr,
    fun s r p n hwf => ?conflict, restored_spec, fun s r p hwf => ?drain, fun s r ls hn hl => ?lines, committed_spec⟩
  case conflict =>
    refine ⟨exec_conflictNotice_none hwf, fun sp hs hn => ?_, fun sp hs hn hc hd hw => ?_⟩
    · rw [exec_conflictNotice_some hwf hs, if_neg hn]
    · exact ⟨_, by rw [exec_conflictNotice_some hwf hs, if_pos hn], rollback_spec hs hc hd hw⟩
  case drain =>
    exact ⟨exec_escrowDrainEnd_idle hwf, fun sp hs hc he => exec_escrowDrainEnd_last hwf hs hc he,
      fun sp l e hs hc he => exec_escrowDrainEnd_line hwf hs hc he⟩
  case lines =>
    rw [drainEscrow_mem]
    refine ⟨fun hw l hlm b hb => ?_, fun a ha => memGet_foldl_memPut_out _ _ (fun x hx => ?_)⟩
    · exact memGet_foldl_memPut_in hw (drained_inj hn hl) (mem_drained.2 ⟨l, hlm, b, hb, rfl⟩)
    · obtain ⟨l, hlm, b, hb, rfl⟩ := mem_drained.1 hx
      exact ha l hlm b hb

end Sys2Proof.Machine
end

section
/-! PROOFS. The accesses that the device makes in one step (R302, R326, R336): of the pod outside vaults and packages they change
memory behind the vaults and the hosts alone. -/

namespace Sys2Proof.Machine

/-- Only vaults, packages and memory may have changed: no configuration register, and no byte of a tile store or a plane. -/
structure DevOnly (s t : State) : Prop where
  frame : t = { s with vaults := t.vaults, pkgs := t.pkgs, mem := t.mem }
  cfg : ∀ k, (t.pkg k).cfg = (s.pkg k).cfg
  low : ∀ a, a < spaceBase 3 0 → memGet t.mem a = memGet s.mem a
  safe : s.Safe → t.Safe

theorem DevOnly.refl (s : State) : DevOnly s s := ⟨rfl, fun _ => rfl, fun _ _ => rfl, id⟩

theorem DevOnly.trans {s t u : State} (h : DevOnly s t) (k : DevOnly t u) : DevOnly s u := by
  refine ⟨?_, fun i => (k.cfg i).trans (h.cfg i), fun a ha => (k.low a ha).trans (h.low a ha), fun hs => k.safe (h.safe hs)⟩
  rw [k.frame, h.frame]

section
variable {s t : State} (h : DevOnly s t)
include h

theorem DevOnly.tiles_eq : t.tiles = s.tiles := by rw [h.frame]

theorem DevOnly.launches_eq : t.launches = s.launches := by rw [h.frame]

theorem DevOnly.agenda_eq : t.agenda = s.agenda := by rw [h.frame]

theorem DevOnly.tile_eq (r : Nat) : t.tile r = s.tile r := by rw [State.tile, h.tiles_eq, State.tile]

theorem DevOnly.plane_eq (r p : Nat) : t.plane r p = s.plane r p := by rw [State.plane, h.tile_eq, State.plane]

theorem DevOnly.due_iff (i : Instr) : t.Due i ↔ s.Due i := by rw [State.Due, h.agenda_eq, State.Due]

/-- The dies of a partition stand in configuration registers. -/
theorem DevOnly.diesOf_eq (k part : Nat) : (t.pkg k).diesOf part = (s.pkg k).diesOf part := by
  simp only [Package.diesOf, Package.partMask, Package.part, Package.reg, h.cfg]

end

theorem modVault_devOnly (s : State) (r : Nat) (f : Vault → Vault) : DevOnly s (s.modVault r f) :=
  ⟨rfl, fun _ => rfl, fun _ _ => rfl, id⟩

theorem modPkg_devOnly (s : State) (k : Nat) (f : Package → Package) (h : ∀ p, (f p).cfg = p.cfg := by intro; rfl) :
    DevOnly s (s.modPkg k f) := by
  refine ⟨rfl, fun j => ?_, fun _ _ => rfl, id⟩
  by_cases hj : j = k
  · rw [hj, State.modPkg_pkg, h]
  · rw [State.modPkg_pkg_ne _ _ hj]

theorem mem_devOnly (s : State) {m : List Host.Cell} (hl : ∀ a, a < spaceBase 3 0 → memGet m a = memGet s.mem a)
    (hw : Memory.wf s.mem = true → Memory.wf m = true) : DevOnly s { s with mem := m } := ⟨rfl, fun _ => rfl, hl, hw⟩

theorem foldl_devOnly {α : Type} {f : State → α → State} (h : ∀ s a, DevOnly s (f s a)) (l : List α) (s : State) :
    DevOnly s (l.foldl f s) := by
  induction l generalizing s with
  | nil => exact DevOnly.refl s
  | cons a l ih => exact (h s a).trans (ih _)

/-! ## Memory behind vaults and hosts -/

theorem hostAddr_high (pkg a : Nat) : spaceBase 3 0 ≤ hostAddr pkg a := by
  unfold hostAddr spaceBase
  omega

theorem vaultAddr_high (pkg stack chan frame off : Nat) : spaceBase 3 0 ≤ vaultAddr pkg stack chan frame off := by
  unfold vaultAddr spaceBase
  omega

theorem dpaAddr_high (s : State) (pkg dpa : Nat) : spaceBase 3 0 ≤ s.dpaAddr pkg dpa := vaultAddr_high _ _ _ _ _

/-- A fold of byte writes leaves every address that it does not name. -/
theorem memGet_foldl_memPut_ne {α : Type} (l : List α) (f : α → Nat) (g : α → Byte) (m : List Host.Cell) {a : Nat}
    (h : ∀ x ∈ l, a ≠ f x) : memGet (l.foldl (fun m x => memPut m (f x) (g x)) m) a = memGet m a := by
  induction l generalizing m with
  | nil => rfl
  | cons x l ih => rw [List.foldl_cons, ih _ (fun y hy => h y (List.mem_cons_of_mem _ hy)), memGet_memPut_ne _ _ (h x List.mem_cons_self)]

/-- Bytes written one after the other at addresses of vaults and hosts. -/
theorem foldl_memPut_devOnly (s : State) {α : Type} (l : List α) (f : α → Nat) (g : α → Byte) (h : ∀ x, spaceBase 3 0 ≤ f x) :
    DevOnly s { s with mem := l.foldl (fun m x => memPut m (f x) (g x)) s.mem } :=
  mem_devOnly s (fun a ha => memGet_foldl_memPut_ne _ _ _ _ (fun x _ => by have := h x; omega)) (wf_foldl_memPut _ _ _)

theorem dpaStore_devOnly (s : State) (pkg dpa : Nat) (b : List Byte) : DevOnly s (s.dpaStore pkg dpa b) :=
  foldl_memPut_devOnly s _ _ _ (fun _ => dpaAddr_high _ _ _)

theorem place_put_devOnly (p : Place) (s : State) (b : List Byte) : DevOnly s (p.put s b) := by
  refine foldl_memPut_devOnly s _ _ _ (fun i => ?_)
  unfold Place.addr
  split
  · exact hostAddr_high _ _
  · exact dpaAddr_high _ _ _

/-! ## Records, counters and fences (R336, R339, R340) -/

theorem writeEvent_devOnly (s : State) (pkg seq : Nat) : DevOnly s (writeEvent s pkg seq) := by
  simp only [writeEvent]
  split
  · exact DevOnly.refl s
  · split
    · exact modPkg_devOnly s _ _
    · refine (mem_devOnly s (fun a ha => memGet_memWrite_out _ _ (.inl ?_)) wf_memWrite).trans (modPkg_devOnly _ _ _)
      exact lt_of_lt_of_le ha (hostAddr_high _ _)

theorem bbCommit_devOnly (s : State) (pkg : Nat) : DevOnly s (bbCommit s pkg) :=
  (modPkg_devOnly s pkg (fun p => { p with bbWait := [] })).trans
    (foldl_devOnly (fun s q => writeEvent_devOnly s pkg q) _ _)

/-- The store's queue takes a record. -/
def bbAdd (pkg : Nat) (s : State) (rc : Nat × Nat × Nat) : State :=
  s.modPkg pkg (fun p =>
    { p with bb := nset p.bb (p.bbSeq % 4096)
               (if rc.1 = 0x0031 then
                  BitVec.ofNat 256 (s.podTime % 2 ^ 64 * 2 ^ 192 + p.bbSeq % 2 ^ 32 * 2 ^ 160 + 0x0031 * 2 ^ 144
                    + rc.2.1 * 2 ^ 136 + rc.2.2)
                else bbBits s.podTime p.bbSeq rc.1 rc.2.1 rc.2.2),
             bbWait := p.bbWait ++ [p.bbSeq], bbSeq := p.bbSeq + 1 })

theorem bbPut_full {s : State} {pkg : Nat} {recs : List (Nat × Nat × Nat)} (h : 64 < (s.pkg pkg).bbWait.length + recs.length) :
    bbPut s pkg recs = s.modPkg pkg (fun p => { p with bbLost := p.bbLost + 1 }) := if_pos h

theorem bbPut_room {s : State} {pkg : Nat} {recs : List (Nat × Nat × Nat)} (h : ¬ 64 < (s.pkg pkg).bbWait.length + recs.length) :
    bbPut s pkg recs = { recs.foldl (bbAdd pkg) s with
      mem := if Config.storeBusy (recs.foldl (bbAdd pkg) s).tick then (recs.foldl (bbAdd pkg) s).mem
        else (bbCommit (recs.foldl (bbAdd pkg) s) pkg).mem,
      pkgs := if Config.storeBusy (recs.foldl (bbAdd pkg) s).tick then (recs.foldl (bbAdd pkg) s).pkgs
        else (bbCommit (recs.foldl (bbAdd pkg) s) pkg).pkgs } := if_neg h

theorem bbPut_devOnly (s : State) (pkg : Nat) (recs : List (Nat × Nat × Nat)) : DevOnly s (bbPut s pkg recs) := by
  by_cases h : 64 < (s.pkg pkg).bbWait.length + recs.length
  · rw [bbPut_full h]
    exact modPkg_devOnly s _ _
  · have hadd : DevOnly s (recs.foldl (bbAdd pkg) s) := foldl_devOnly (fun s rc => modPkg_devOnly s _ _) recs s
    rw [bbPut_room h]
    refine hadd.trans ?_
    generalize recs.foldl (bbAdd pkg) s = t
    have hc := bbCommit_devOnly t pkg
    by_cases hb : Config.storeBusy t.tick = true
    · simp only [hb, if_true]
      exact DevOnly.refl t
    · simp only [hb]
      exact ⟨rfl, hc.cfg, hc.low, hc.safe⟩

theorem blackBox_devOnly (s : State) (pkg code unit data : Nat) : DevOnly s (blackBox s pkg code unit data) := bbPut_devOnly s _ _

theorem countUp_devOnly (s : State) (pkg k : Nat) : DevOnly s (countUp s pkg k) := modPkg_devOnly s _ _

theorem checkReplace_devOnly (s : State) (pkg : Nat) : DevOnly s (checkReplace s pkg) := by
  unfold checkReplace
  dsimp only
  split
  · refine .trans ?_ (blackBox_devOnly _ _ _ _ _)
    exact modPkg_devOnly s _ _
  · exact modPkg_devOnly s _ _

/-- A vault's health entry. -/
def IsVaultEntry (e : Nat) : Prop := 1088 ≤ e ∧ e < 1344

theorem fenceEntry_devOnly (s : State) (pkg reason : Nat) {e : Nat} (h : IsVaultEntry e) : DevOnly s (fenceEntry s pkg e reason) := by
  have ht : ¬ e < 1024 := by unfold IsVaultEntry at h; omega
  have hs : ¬ (1024 ≤ e ∧ e < 1088) := by unfold IsVaultEntry at h; omega
  unfold fenceEntry
  split
  · exact DevOnly.refl s
  · dsimp only
    rw [if_pos (show 1088 ≤ e ∧ e < 1344 from h)]
    refine .trans ?_ (checkReplace_devOnly _ _)
    refine .trans ?_ (modVault_devOnly _ _ _)
    refine .trans ?_ (blackBox_devOnly _ _ _ _ _)
    exact modPkg_devOnly s _ _

theorem fenceUnit_devOnly (s : State) (pkg reason : Nat) {e : Nat} (h : IsVaultEntry e) : DevOnly s (fenceUnit s pkg e reason) := by
  have ht : tileOfEntry pkg e = none := if_neg (by unfold IsVaultEntry at h; omega)
  unfold fenceUnit
  rw [ht]
  split
  · exact DevOnly.refl s
  · exact fenceEntry_devOnly s pkg reason h

theorem countWindow_devOnly (s : State) (pkg lim reason : Nat) {e : Nat} (h : IsVaultEntry e) :
    DevOnly s (countWindow s pkg e lim reason) := by
  unfold countWindow
  extract_lets w old n t
  have ht : DevOnly s t := modPkg_devOnly s _ _
  split
  · exact ht.trans (fenceUnit_devOnly _ _ _ h)
  · exact ht

/-- The unit that holds a page is a vault. -/
theorem healthEntry_holdingVault (s : State) (pkg dpa : Nat) : IsVaultEntry (healthEntry (epOf (s.holdingVault pkg dpa))) := by
  have key : ∀ e, IsVaultEntry (healthEntry (epOf (pkg * 4096 + 0x400 + bitsHL e 30 28 * 32 + bitsHL e 27 23))) := by
    intro e
    have hstack : bitsHL e 30 28 < 8 := Nat.mod_lt _ (by norm_num)
    have hchan : bitsHL e 27 23 < 32 := Nat.mod_lt _ (by norm_num)
    generalize bitsHL e 30 28 = a at *
    generalize bitsHL e 27 23 = b at *
    have hep : epOf (pkg * 4096 + 0x400 + a * 32 + b) = 0x400 + a * 32 + b := by unfold epOf; omega
    have hno : ¬ 0x400 + a * 32 + b < 1024 := by omega
    rw [hep, healthEntry, if_neg hno]
    unfold IsVaultEntry
    omega
  exact key _

theorem memFault_devOnly (s : State) (pkg dpa : Nat) : DevOnly s (memFault s pkg dpa) := by
  unfold memFault
  refine .trans ?_ (countWindow_devOnly _ _ _ _ (healthEntry_holdingVault s pkg dpa))
  refine .trans ?_ (countUp_devOnly _ _ _)
  refine .trans ?_ (blackBox_devOnly _ _ _ _ _)
  refine .trans ?_ (modPkg_devOnly _ _ _)
  exact modVault_devOnly s _ _

theorem noteBad_devOnly (s : State) (pkg dpa : Nat) : DevOnly s (noteBad s pkg dpa) := by
  unfold noteBad
  split
  · exact DevOnly.refl s
  · exact memFault_devOnly s pkg dpa

theorem noteWalk_devOnly (s : State) (pkg : Nat) (e : WalkErr) : DevOnly s (noteWalk s pkg e) := by
  unfold noteWalk
  split
  · exact noteBad_devOnly s _ _
  · exact DevOnly.refl s

/-! ## Vaults (R117, R326) -/

theorem completeSum_devOnly (s : State) (home pkg base : Nat) : DevOnly s (completeSum s home pkg base).1 := by
  unfold completeSum
  split
  · exact DevOnly.refl s
  · dsimp only
    split
    · dsimp only
      exact modVault_devOnly s _ _
    · split
      · exact DevOnly.refl s
      · dsimp only
        refine .trans ?_ (modVault_devOnly _ _ _)
        exact dpaStore_devOnly s _ _ _

/-- What a read does first about one object whose RESULT granule it covers. -/
def prepObj (home pkg : Nat) (x : State × Option Nat) (o : Nat × Bool) : State × Option Nat :=
  match x.2 with
  | some _ => x
  | none => if o.2 then completeSum (x.1.modVault home (fun v => useObj v o.1)) home pkg o.1
            else (x.1.modVault home (fun v => useObj v o.1), none)

theorem prepObj_devOnly (home pkg : Nat) (x : State × Option Nat) (o : Nat × Bool) : DevOnly x.1 (prepObj home pkg x o).1 := by
  unfold prepObj
  split
  · exact DevOnly.refl _
  · split
    · refine .trans ?_ (completeSum_devOnly _ _ _ _)
      exact modVault_devOnly _ _ _
    · exact modVault_devOnly x.1 home (fun v => useObj v o.1)

theorem readPrep_devOnly (s : State) (home pkg dpa n : Nat) : DevOnly s (readPrep s home pkg dpa n).1 := by
  have fold : ∀ (l : List (Nat × Bool)) (x : State × Option Nat), DevOnly x.1 (l.foldl (prepObj home pkg) x).1 := by
    intro l
    induction l with
    | nil => exact fun x => DevOnly.refl x.1
    | cons o l ih => exact fun x => (prepObj_devOnly home pkg x o).trans (ih _)
  exact fold _ (s, none)

theorem vaultRead_devOnly (s : State) (home pkg dpa n : Nat) : DevOnly s (vaultRead s home pkg dpa n).1 := by
  have hp := readPrep_devOnly s home pkg dpa n
  unfold vaultRead
  split
  · exact DevOnly.refl s
  · split
    · rename_i h
      rw [h] at hp
      exact hp
    · rename_i h
      rw [h] at hp
      exact hp

theorem storeGran_devOnly (s : State) (pkg dpa : Nat) (b : List Byte) : DevOnly s (storeGran s pkg dpa b) := by
  unfold storeGran
  dsimp only
  split
  · refine .trans ?_ (modVault_devOnly _ _ _)
    exact dpaStore_devOnly s _ _ _
  · exact dpaStore_devOnly s _ _ _

theorem storeBytes_devOnly (pkg : Nat) (gs : List Nat) (dpa : Nat) (b : List Byte) (s : State) :
    DevOnly s (storeBytes pkg gs dpa b s).1 := by
  induction gs generalizing dpa b s with
  | nil => exact DevOnly.refl s
  | cons g gs ih =>
    simp only [storeBytes]
    split
    · exact DevOnly.refl s
    · exact (storeGran_devOnly s _ _ _).trans (ih _ _ _)

/-! ## Translated accesses -/

/-- The state that an access leaves, with its value or its fault. -/
def stateOf {α : Type} : Except (Nat × State) (α × State) → State
  | .error x => x.2
  | .ok x => x.2

theorem stateOf_bind {α β : Type} {s : State} {x : Except (Nat × State) (α × State)} {f : α × State → Except (Nat × State) (β × State)}
    (hx : DevOnly s (stateOf x)) (hf : ∀ a u, DevOnly u (stateOf (f (a, u)))) : DevOnly s (stateOf (x >>= f)) := by
  cases x with
  | error e => exact hx
  | ok y => exact hx.trans (hf y.1 y.2)

theorem place_read_devOnly (p : Place) (s : State) (n : Nat) : DevOnly s (stateOf (p.read s n)) := by
  have hv := vaultRead_devOnly s (s.holdingVault p.pkg p.dpa) p.pkg p.dpa n
  unfold Place.read
  split
  · split <;> exact DevOnly.refl s
  · split
    · rename_i h
      rw [h] at hv
      exact hv.trans (noteBad_devOnly _ _ _)
    · rename_i h
      rw [h] at hv
      exact hv

theorem place_write_devOnly (p : Place) (s : State) (b : List Byte) : DevOnly s (p.write s b).1 := by
  have hv := storeBytes_devOnly p.pkg (granDpas p.dpa b.length) p.dpa b s
  unfold Place.write
  split
  · split
    · dsimp only
      split
      · exact place_put_devOnly p s b
      · exact DevOnly.refl s
    · exact place_put_devOnly p s b
  · split
    · exact DevOnly.refl s
    · split
      · rename_i h
        rw [h] at hv
        exact hv.trans (memFault_devOnly _ _ _)
      · rename_i h
        rw [h] at hv
        exact hv

theorem lookupDie_devOnly (s : State) (pkg die part va : Nat) : DevOnly s (stateOf (lookupDie s pkg die part va)) := by
  unfold lookupDie
  split
  · exact DevOnly.refl s
  · dsimp only
    split
    · dsimp only [stateOf]
      exact modPkg_devOnly s _ _
    · split
      · exact noteWalk_devOnly s _ _
      · dsimp only [stateOf]
        exact modPkg_devOnly s _ _

theorem placeDie_devOnly (s : State) (pkg die part rank : Nat) (rd wr : Bool) (va : Nat) :
    DevOnly s (stateOf (placeDie s pkg die part rank rd wr va)) := by
  have hl := lookupDie_devOnly s pkg die part va
  unfold placeDie
  split
  · exact DevOnly.refl s
  · split
    · rename_i h
      rw [h] at hl
      exact hl
    · rename_i h
      rw [h] at hl
      split <;> exact hl

theorem readBy_devOnly {tr : State → Nat → Except (Nat × State) (Place × State)} (h : ∀ s va, DevOnly s (stateOf (tr s va)))
    (l : List (Nat × Nat)) (s : State) : DevOnly s (stateOf (readBy tr l s)) := by
  induction l generalizing s with
  | nil => exact DevOnly.refl s
  | cons x l ih =>
    exact stateOf_bind (h s x.1) (fun p u => stateOf_bind (place_read_devOnly p u x.2) (fun b v =>
      stateOf_bind (ih v) (fun bs w => DevOnly.refl w)))

theorem writeBy_devOnly {tr : State → Nat → Except (Nat × State) (Place × State)} (h : ∀ s va, DevOnly s (stateOf (tr s va)))
    (l : List (Nat × Nat)) (b : List Byte) (s : State) : DevOnly s (writeBy tr l b s).1 := by
  induction l generalizing s b with
  | nil => exact DevOnly.refl s
  | cons x l ih =>
    have ht := h s x.1
    unfold writeBy
    split
    · rename_i e
      rw [e] at ht
      exact ht
    · rename_i p u e
      rw [e] at ht
      have hw := place_write_devOnly p u (b.take x.2)
      split
      · rename_i e'
        rw [e'] at hw
        exact ht.trans hw
      · rename_i e'
        rw [e'] at hw
        exact (ht.trans hw).trans (ih _ _)

/-- R302: what a read of the scheduler's leaves. -/
theorem schedRead_devOnly (s : State) (pkg part va n : Nat) : DevOnly s (stateOf (schedRead s pkg part va n)) :=
  readBy_devOnly (fun s va => placeDie_devOnly s _ _ _ _ _ _ va) _ s

theorem schedRead_ok {s u : State} {pkg part va n : Nat} {b : List Byte} (h : schedRead s pkg part va n = .ok (b, u)) :
    DevOnly s u := by
  have hs := schedRead_devOnly s pkg part va n
  rw [h] at hs
  exact hs

/-- R305: what a write of the scheduler's leaves. -/
theorem schedWrite_devOnly (s : State) (pkg part va : Nat) (b : List Byte) : DevOnly s (schedWrite s pkg part va b).1 :=
  writeBy_devOnly (fun s va => placeDie_devOnly s _ _ _ _ _ _ va) _ b s

end Sys2Proof.Machine
end

section
/-! PROOFS. How tasks end, drain, return and are loaded (R30, R294, R296, R298, R299, R301, R310). -/

namespace Sys2Proof.Machine

/-! ## Status records (Table 16.3) -/

/-- The number of a number's bytes is its low part. -/
theorem leNat_leBytes (n v : Nat) : leNat (leBytes n v) = v % 2 ^ (8 * n) := by
  have h := leNat_eq_mod (l := leBytes n v) (x := v) (fun k hk => by
    rw [leBytes_length] at hk
    rw [leBytes_getElem? v hk, Option.getD_some, BitVec.toNat_ofNat])
  rwa [leBytes_length] at h

/-- A part of a list, from its place and length. -/
theorem take_drop_mid {α : Type} {i n : Nat} (l a r : List α) (hl : l.length = i) (ha : a.length = n) :
    ((l ++ (a ++ r)).drop i).take n = a := by
  subst hl ha
  rw [List.drop_left, List.take_left]

/-- A field of a status record, which stands between two parts of it. -/
theorem field_eq {i n v : Nat} {b : List Byte} (l r : List Byte) (hb : b = l ++ (leBytes n v ++ r)) (hl : l.length = i) :
    leNat ((b.drop i).take n) = v % 2 ^ (8 * n) := by
  rw [hb, take_drop_mid _ _ _ hl (leBytes_length _ _), leNat_leBytes]

theorem statusRecord_spec (info pos pc cause code e discard cycle : Nat) {b : List Byte}
    (h : b = statusRecord info pos pc cause code e discard cycle) :
    b.length = 32 ∧ leNat (b.take 8) = cycle % 2 ^ 64 ∧ leNat ((b.drop 8).take 4) = discard % 2 ^ 32 ∧
    leNat ((b.drop 12).take 4) = code % 2 ^ 32 ∧ leNat ((b.drop 16).take 1) = e % 256 ∧ leNat ((b.drop 17).take 1) = cause % 256 ∧
    leNat ((b.drop 18).take 2) = pc % 65536 ∧ leNat ((b.drop 20).take 4) = pos % 2 ^ 32 ∧ leNat ((b.drop 24).take 8) = info % 2 ^ 64 := by
  subst h
  unfold statusRecord
  generalize hA : leBytes 8 cycle = A
  generalize hB : leBytes 4 discard = B
  generalize hC : leBytes 4 code = C
  generalize hD : leBytes 1 e = D
  generalize hE : leBytes 1 cause = E
  generalize hF : leBytes 2 pc = F
  generalize hG : leBytes 4 pos = G
  generalize hH : leBytes 8 info = H
  have lA : A.length = 8 := by rw [← hA, leBytes_length]
  have lB : B.length = 4 := by rw [← hB, leBytes_length]
  have lC : C.length = 4 := by rw [← hC, leBytes_length]
  have lD : D.length = 1 := by rw [← hD, leBytes_length]
  have lE : E.length = 1 := by rw [← hE, leBytes_length]
  have lF : F.length = 2 := by rw [← hF, leBytes_length]
  have lG : G.length = 4 := by rw [← hG, leBytes_length]
  have lH : H.length = 8 := by rw [← hH, leBytes_length]
  refine ⟨by simp [lA, lB, lC, lD, lE, lF, lG, lH], ?_, ?_, ?_, ?_, ?_, ?_, ?_, ?_⟩
  · exact field_eq [] (B ++ C ++ D ++ E ++ F ++ G ++ H) (by simp [hA]) rfl
  · exact field_eq A (C ++ D ++ E ++ F ++ G ++ H) (by simp [hB]) lA
  · exact field_eq (A ++ B) (D ++ E ++ F ++ G ++ H) (by simp [hC]) (by simp [lA, lB])
  · exact field_eq (A ++ B ++ C) (E ++ F ++ G ++ H) (by simp [hD]) (by simp [lA, lB, lC])
  · exact field_eq (A ++ B ++ C ++ D) (F ++ G ++ H) (by simp [hE]) (by simp [lA, lB, lC, lD])
  · exact field_eq (A ++ B ++ C ++ D ++ E) (G ++ H) (by simp [hF]) (by simp [lA, lB, lC, lD, lE])
  · exact field_eq (A ++ B ++ C ++ D ++ E ++ F) H (by simp [hG]) (by simp [lA, lB, lC, lD, lE, lF])
  · exact field_eq (A ++ B ++ C ++ D ++ E ++ F ++ G) [] (by simp [hH]) (by simp [lA, lB, lC, lD, lE, lF, lG])

/-! ## The end of a task (R30) -/

theorem exec_taskEnd_none {s : State} {r p : Nat} (h : (Instr.taskEnd r p).wf = true) (he : (s.plane r p).exiting = none) :
    exec (.taskEnd r p) s = .next s := by
  have e : exec (.taskEnd r p) s = execTaskEnd r p s := rfl
  simp only [e, execTaskEnd, runEvent_ok h, he]

theorem exec_taskEnd_some {s : State} {r p pc : Nat} (h : (Instr.taskEnd r p).wf = true)
    (he : (s.plane r p).exiting = some pc) : exec (.taskEnd r p) s =
      .next (if (s.plane r p).state ≠ 3 then s
        else if (s.tile r).monitor ∨ mayExit (s.tile r) p = false then emitOnce s (.taskEnd r p)
        else endPlane s r p { code := 0, pc := pc }) := by
  have e : exec (.taskEnd r p) s = execTaskEnd r p s := rfl
  simp only [e, execTaskEnd, runEvent_ok h, he]

theorem taskEnd_spec {s : State} {r p : Nat} (pc : Nat) (h : (Instr.taskEnd r p).wf = true) :
    ((s.plane r p).exiting = none → exec (.taskEnd r p) s = .next s) ∧
    ((s.plane r p).exiting = some pc → (s.plane r p).state ≠ 3 → exec (.taskEnd r p) s = .next s) ∧
    ((s.plane r p).exiting = some pc → (s.plane r p).state = 3 → mayExit (s.tile r) p = false →
      ∃ t, exec (.taskEnd r p) s = .next t ∧ t.Due (.taskEnd r p) ∧ t.tiles = s.tiles ∧ SameMem s t) ∧
    ((s.plane r p).exiting = some pc → (s.plane r p).state = 3 → (s.tile r).monitor = false → mayExit (s.tile r) p = true →
      exec (.taskEnd r p) s = .next (endPlane s r p { code := 0, pc := pc })) := by
  refine ⟨exec_taskEnd_none h, fun he hst => ?_, fun he hst hm => ?_, fun he hst hmon hm => ?_⟩
  · rw [exec_taskEnd_some h he, if_pos hst]
  · rw [exec_taskEnd_some h he, if_neg (by simp [hst]), if_pos (.inr hm)]
    exact ⟨_, rfl, emitOnce_due _ _, emitOnce_tiles _ _, sameMem_of_mem_eq (emitOnce_mem _ _)⟩
  · rw [exec_taskEnd_some h he, if_neg (by simp [hst]), if_neg (by simp [hmon, hm])]

theorem mayExit_iff (t : Tile) (p : Nat) : mayExit t p = true ↔ (∀ k < 4, (t.pl p).ch k = []) ∧ (t.pl p).mx = [] ∧
    (t.pl p).deliveries = [] ∧ (t.pl p).spec = none ∧ (∀ sd ∈ (t.pl p).sends, ∀ c ∈ sd.copies, c.settled = true) ∧
    ∀ q ∈ t.reqs, q.req.plane = p → q.owner = .flag → q.req.op = .get := by
  simp only [mayExit, Bool.and_eq_true, List.all_eq_true, List.mem_range, decide_eq_true_eq, Option.isNone_iff_eq_none,
    Bool.not_eq_true', decide_eq_false_iff_not, not_and, not_not, and_assoc]

/-! ## A plane that has drained (R296) -/

theorem exec_planeFree {s : State} {r p : Nat} (h : (Instr.planeFree r p).wf = true) : exec (.planeFree r p) s =
    .next (if (s.plane r p).state ≠ 6 then s else if mayFree (s.tile r) p then freePlane s r p else emitOnce s (.planeFree r p)) := by
  have e : exec (.planeFree r p) s = execPlaneFree r p s := rfl
  rw [e, execPlaneFree, runEvent_ok h]

/-- A plane that was freed. -/
def Plane.freed (pl : Plane) : Plane := { (default : Plane) with specCount := pl.specCount, releasing := pl.releasing }

theorem freePlane_eq (s : State) (r p : Nat) :
    freePlane s r p = emitOnce (s.modPlane r p Plane.freed) (.placementDecision (pkgOf r) (epOf r / 256 % 4)) := rfl

theorem freePlane_spec (s : State) (r p : Nat) : ((freePlane s r p).plane r p).state = 0 ∧
    ((freePlane s r p).plane r p).specCount = (s.plane r p).specCount ∧
    (freePlane s r p).Due (.placementDecision (pkgOf r) (epOf r / 256 % 4)) ∧ SameMem s (freePlane s r p) := by
  have hdue := emitOnce_onlyDue (s.modPlane r p Plane.freed) (.placementDecision (pkgOf r) (epOf r / 256 % 4))
  rw [freePlane_eq]
  refine ⟨?_, ?_, emitOnce_due _ _, sameMem_of_mem_eq hdue.mem_eq⟩
  · rw [hdue.plane_eq, State.modPlane_plane]
    rfl
  · rw [hdue.plane_eq, State.modPlane_plane]
    rfl

theorem planeFree_spec {s : State} {r p : Nat} (h : (Instr.planeFree r p).wf = true) :
    ((s.plane r p).state ≠ 6 → exec (.planeFree r p) s = .next s) ∧
    ((s.plane r p).state = 6 → mayFree (s.tile r) p = false → ∃ t, exec (.planeFree r p) s = .next t ∧ t.Due (.planeFree r p) ∧
      t.tiles = s.tiles ∧ SameMem s t) ∧
    ((s.plane r p).state = 6 → mayFree (s.tile r) p = true → ∃ t, exec (.planeFree r p) s = .next t ∧ (t.plane r p).state = 0 ∧
      (t.plane r p).specCount = (s.plane r p).specCount ∧ t.Due (.placementDecision (pkgOf r) (epOf r / 256 % 4)) ∧ SameMem s t) := by
  rw [exec_planeFree h]
  refine ⟨fun hst => by rw [if_pos hst], fun hst hm => ?_, fun hst hm => ?_⟩
  · rw [if_neg (by simp [hst]), hm]
    exact ⟨_, rfl, emitOnce_due _ _, emitOnce_tiles _ _, sameMem_of_mem_eq (emitOnce_mem _ _)⟩
  · rw [if_neg (by simp [hst]), hm]
    exact ⟨_, rfl, freePlane_spec s r p⟩

/-! ## The spill queue (R299) -/

theorem exec_spillHeadReadmit {s : State} {r p : Nat} (h : (Instr.spillHeadReadmit r p).wf = true) :
    exec (.spillHeadReadmit r p) s =
      .next (if (s.plane r p).diverted && (s.plane r p).readmit then (readmit s r p).1 else s) := by
  have e : exec (.spillHeadReadmit r p) s = execSpillHeadReadmit r p s := rfl
  rw [e, execSpillHeadReadmit, runEvent_ok h]

theorem readmitAll_nil {s : State} {r p : Nat} (n : Nat) (h : (s.plane r p).spillq = []) :
    readmitAll (n + 1) s r p = (s.modPlane r p (fun pl => { pl with diverted := false, readmit := false }), none) := by
  simp only [readmitAll, h]

section
variable {s : State} {r p : Nat} {e : SpillE} {l : List SpillE} (n : Nat) (hq : (s.plane r p).spillq = e :: l)
include hq

theorem readmitAll_fault {fc : Nat} {u : State} (h : readmitHead s r p e = .error (fc, u)) : readmitAll (n + 1) s r p = (u, some fc) := by
  simp only [readmitAll, hq, h]

theorem readmitAll_stays {u : State} (h : readmitHead s r p e = .ok (false, u)) : readmitAll (n + 1) s r p = (u, none) := by
  simp only [readmitAll, hq, h]

theorem readmitAll_leaves {u : State} (h : readmitHead s r p e = .ok (true, u)) :
    readmitAll (n + 1) s r p = readmitAll n u r p := by
  simp only [readmitAll, hq, h]

end

theorem spillHeadReadmit_spec {s : State} {r p : Nat} (h : (Instr.spillHeadReadmit r p).wf = true) :
    ((s.plane r p).diverted = false ∨ (s.plane r p).readmit = false → exec (.spillHeadReadmit r p) s = .next s) ∧
    ((s.plane r p).diverted = true → (s.plane r p).readmit = true →
      ((s.plane r p).spillq = [] → ∃ t, exec (.spillHeadReadmit r p) s = .next t ∧ (t.plane r p).diverted = false ∧
        (t.plane r p).readmit = false ∧ (t.plane r p).regs = (s.plane r p).regs ∧ SameMem s t ∧ t.agenda = s.agenda) ∧
      (∀ e l, (s.plane r p).spillq = e :: l →
        (∀ fc u, readmitHead s r p e = .error (fc, u) → exec (.spillHeadReadmit r p) s = .next u) ∧
        (∀ u, readmitHead s r p e = .ok (false, u) → exec (.spillHeadReadmit r p) s = .next u) ∧
        (∀ u, readmitHead s r p e = .ok (true, u) →
          exec (.spillHeadReadmit r p) s = .next (readmitAll (l.length + 1) u r p).1))) := by
  rw [exec_spillHeadReadmit h]
  refine ⟨fun hno => ?_, fun hd hm => ?_⟩
  · rw [if_neg (by rcases hno with hno | hno <;> simp [hno])]
  · rw [if_pos (by simp [hd, hm]), readmit]
    refine ⟨fun hq => ?_, fun e l hq => ?_⟩
    · rw [readmitAll_nil _ hq]
      have hp := State.modPlane_plane s r p (fun pl => { pl with diverted := false, readmit := false })
      exact ⟨_, rfl, (congrArg Plane.diverted hp).trans rfl, (congrArg Plane.readmit hp).trans rfl,
        (congrArg Plane.regs hp).trans rfl, fun _ => rfl, rfl⟩
    · refine ⟨fun fc u he => ?_, fun u he => ?_, fun u he => ?_⟩
      · rw [readmitAll_fault _ hq he]
      · rw [readmitAll_stays _ hq he]
      · rw [readmitAll_leaves _ hq he, hq]
        rfl

theorem readmitHead_fault {s : State} {r p : Nat} {e : SpillE} {x : Nat × State}
    (h : queueRead s r (s.plane r p) (s.plane r p).queueHead (spillCost e) = .error x) : readmitHead s r p e = .error x := by
  simp only [readmitHead, h]

section
variable {s u : State} {r p : Nat} {e : SpillE} {b : List Byte}
  (h : queueRead s r (s.plane r p) (s.plane r p).queueHead (spillCost e) = .ok (b, u))
include h

theorem readmitHead_admitted {w : State}
    (hw : admitEntry (u.modPlane r p (fun pl => pl.popSpill e)) r p (e.withBytes b) = some w) : readmitHead s r p e = .ok (true, w) := by
  simp only [readmitHead, h, hw]

theorem readmitHead_refused
    (hw : admitEntry (u.modPlane r p (fun pl => pl.popSpill e)) r p (e.withBytes b) = none) : readmitHead s r p e = .ok (false, u) := by
  simp only [readmitHead, h, hw]

end

/-! ## Windows (R310) -/

/-- A plane as a window's start leaves it. -/
theorem newWindow_pl (t : Tile) {p : Nat} (h : p < 2) :
    t.newWindow.pl p = (t.pl p).windowIf true (decide (t.running = some p) && !t.monitor) := by
  interval_cases p <;> rfl

theorem windowStart_spec {s : State} {r p : Nat} (h : (Instr.windowStart r).wf = true) (hp : p < 2) :
    ∃ t, exec (.windowStart r) s = .next t ∧
    (t.tile r).wrem = 25600 ∧ (t.plane r p).pass = (if (s.plane r p).readyAll = true ∧ (s.plane r p).ran = false
      then min ((s.plane r p).pass + 1) 8 else (s.plane r p).pass) ∧ (t.plane r p).readyAll = (s.plane r p).isReady ∧
    (t.plane r p).regs = (s.plane r p).regs ∧ (t.tile r).running = (s.tile r).running ∧ SameMem s t ∧ t.agenda = s.agenda := by
  have e : exec (.windowStart r) s = execWindowStart r s := rfl
  have ht : (s.modTile r Tile.newWindow).tile r = (s.tile r).newWindow := State.modTile_tile _ _ _
  have hpl : (s.modTile r Tile.newWindow).plane r p =
      (s.plane r p).windowIf true (decide ((s.tile r).running = some p) && !(s.tile r).monitor) := by
    rw [State.plane, ht, newWindow_pl _ hp, State.plane]
  refine ⟨s.modTile r Tile.newWindow, by rw [e, execWindowStart, runEvent_ok h], by rw [ht]; rfl, ?_, by rw [hpl]; rfl, by rw [hpl]; rfl, by rw [ht]; rfl,
    fun _ => rfl, rfl⟩
  rw [hpl]
  simp [Plane.windowIf]

/-! ## Loading (R301, R308) -/

/-- A piece holds at most 4 KiB, and there are at most two more than the bytes fill. -/
theorem pieces_sum_le (va n : Nat) : ((pieces va n).map Prod.snd).sum ≤ n + 8192 := by
  have hpiece : ∀ x ∈ (pieces va n).map Prod.snd, x ≤ 4096 := by
    intro x hx
    unfold pieces at hx
    split at hx
    · cases hx
    · simp only [List.map_map, List.mem_map, Function.comp] at hx
      obtain ⟨i, -, rfl⟩ := hx
      omega
  have hlen : (pieces va n).length ≤ n / 4096 + 2 := by
    unfold pieces
    split
    · exact Nat.zero_le _
    · rw [List.length_map, List.length_range]
      omega
  have hsum := List.sum_le_card_nsmul _ _ hpiece
  rw [List.length_map, smul_eq_mul] at hsum
  omega

theorem place_read_length {p : Place} {s u : State} {n : Nat} {b : List Byte} (h : p.read s n = .ok (b, u)) : b.length = n := by
  unfold Place.read at h
  split at h
  · split at h
    · cases h
    · cases h
      simp [Place.bytes]
  · split at h
    · cases h
    · rename_i hv
      cases h
      unfold vaultRead at hv
      split at hv
      · cases hv
      · split at hv
        · cases hv
        · cases hv
          simp [State.dpaBytes]

theorem readBy_length {tr : State → Nat → Except (Nat × State) (Place × State)} {l : List (Nat × Nat)} {s u : State} {b : List Byte}
    (h : readBy tr l s = .ok (b, u)) : b.length = (l.map Prod.snd).sum := by
  induction l generalizing s b with
  | nil =>
    cases h
    rfl
  | cons x l ih =>
    simp only [readBy, bind, Except.bind] at h
    split at h
    · cases h
    · split at h
      · cases h
      · rename_i hr
        split at h
        · cases h
        · rename_i hrest
          cases h
          rw [List.length_append, place_read_length hr, ih hrest, List.map_cons, List.sum_cons]

theorem schedRead_length {s u : State} {pkg part va n : Nat} {b : List Byte} (h : schedRead s pkg part va n = .ok (b, u)) :
    b.length ≤ n + 8192 := by
  rw [readBy_length h]
  exact pieces_sum_le va n

/-- A field of a launch record of at most four bytes. -/
theorem Launch.f_lt (l : Launch) (o : Nat) {n : Nat} (h : n ≤ 4) : l.f o n < 2 ^ 32 := by
  have hl := leNat_lt ((l.image.drop o).take n)
  have hn : ((l.image.drop o).take n).length ≤ 4 := le_trans (List.length_take_le _ _) h
  exact lt_of_lt_of_le hl (Nat.pow_le_pow_right (by omega) (by omega))

/-- The images come from reads of the scheduler's; each is shorter than 2^33 bytes. -/
theorem readImages_ok {s u : State} {l : Launch} {resume : Bool} {b d : List Byte} (h : readImages s l resume = .ok (b, d, u)) :
    DevOnly s u ∧ b.length < 2 ^ 33 ∧ d.length < 2 ^ 33 := by
  have hp := l.f_lt 8 (n := 4) (by omega)
  have hd := l.f_lt 12 (n := 4) (by omega)
  simp only [readImages] at h
  split at h
  · cases h
  · rename_i hb
    have hbl : _ ≤ l.f 8 4 + 8192 := schedRead_length hb
    split at h
    · cases h
      exact ⟨schedRead_ok hb, by omega, Nat.two_pow_pos _⟩
    · split at h
      · cases h
      · rename_i hdr
        cases h
        have hdl : _ ≤ l.f 12 4 + 8192 := schedRead_length hdr
        exact ⟨(schedRead_ok hb).trans (schedRead_ok hdr), by omega, by omega⟩

theorem memRead_congr {m m' : List Host.Cell} {a n : Nat} (h : ∀ i < n, memGet m (a + i) = memGet m' (a + i)) :
    memRead m a n = memRead m' a n := by
  apply List.ext_getElem?
  intro i
  by_cases hi : i < n
  · rw [memRead_getElem? _ _ _ _ hi, memRead_getElem? _ _ _ _ hi, h i hi]
  · rw [List.getElem?_eq_none (by simpa using hi), List.getElem?_eq_none (by simpa using hi)]

/-- What the loader has written: the program, the data image, and nothing past it in the allocation. -/
def loadedMem (m : List Host.Cell) (r p lo len : Nat) (b d : List Byte) : List Host.Cell :=
  memClear (memWrite (memWrite m (codeAddr r p 0) b) (tsAddr r lo) d) (tsAddr r (lo + d.length)) (len - d.length)

section
variable {m : List Host.Cell} {r p lo len : Nat} {b d : List Byte}

/-- A tile's allocation lies below every plane. -/
theorem loadedMem_code (hw : Memory.wf m = true) (hlen : lo + len < 2 ^ 32) (hd : d.length < 2 ^ 33) :
    memRead (loadedMem m r p lo len b d) (codeAddr r p 0) b.length = b := by
  have hbelow : tsAddr r lo + d.length ≤ codeAddr r p 0 ∧ tsAddr r (lo + d.length) + (len - d.length) ≤ codeAddr r p 0 := by
    unfold tsAddr codeAddr spaceBase
    omega
  obtain ⟨h1, h2⟩ := hbelow
  rw [← memRead_memWrite (a := codeAddr r p 0) (bs := b) hw]
  simp only [memRead_length]
  refine memRead_congr (fun i _ => ?_)
  rw [loadedMem, memGet_memClear_out _ (by omega), memGet_memWrite_out _ _ (by omega), memRead_memWrite hw]

theorem loadedMem_data (hw : Memory.wf m = true) :
    memRead (loadedMem m r p lo len b d) (tsAddr r lo) d.length = d := by
  have hw' : Memory.wf (memWrite m (codeAddr r p 0) b) = true := wf_memWrite hw
  have hclear : memRead (loadedMem m r p lo len b d) (tsAddr r lo) d.length =
      memRead (memWrite (memWrite m (codeAddr r p 0) b) (tsAddr r lo) d) (tsAddr r lo) d.length := by
    refine memRead_congr (fun i hi => memGet_memClear_out _ (.inl ?_))
    unfold tsAddr
    omega
  rw [hclear, memRead_memWrite hw']

theorem loadedMem_rest {a : Nat} (h1 : d.length ≤ a) (h2 : a < len) : memGet (loadedMem m r p lo len b d) (tsAddr r (lo + a)) = 0 := by
  refine memGet_memClear_in _ ?_ ?_ <;> unfold tsAddr <;> omega

end

theorem exec_loadComplete {s : State} {r p : Nat} (h : (Instr.loadComplete r p).wf = true) :
    exec (.loadComplete r p) s = .next (if (s.plane r p).state = 1 then loadAt s r p else s) := by
  have e : exec (.loadComplete r p) s = execLoadComplete r p s := rfl
  rw [e, execLoadComplete, runEvent_ok h]

theorem loadAt_fault {s u : State} {r p fc : Nat} {l : Launch} (hl : s.launchOf (s.plane r p).task.launch = some l)
    (h : readImages s l (s.plane r p).resumeKind = .error (fc, u)) : loadAt s r p = cancelLaunch u l.num true := by
  simp only [loadAt, hl, h]

/-- The tile's marks of racing writes outside an allocation. -/
def Tile.unmarked (lo len : Nat) (t : Tile) : Tile :=
  { t with stale := t.stale.filter (fun e => decide (16 * e.gran < lo ∨ lo + len ≤ 16 * e.gran)) }

/-- A plane that holds its swap token. -/
def Plane.loaded (pl : Plane) : Plane := { pl with state := 2, token := true }

theorem loadAt_ok {s u : State} {r p : Nat} {l : Launch} {b d : List Byte}
    (hl : s.launchOf (s.plane r p).task.launch = some l) (h : readImages s l (s.plane r p).resumeKind = .ok (b, d, u))
    (hrun : (u.tile r).running ≠ none) : loadAt s r p =
      ((({ u with mem := loadedMem u.mem r p (s.plane r p).regs.tsbase (s.plane r p).regs.tslen b d } : State).modTile r
        (Tile.unmarked (s.plane r p).regs.tsbase (s.plane r p).regs.tslen)).modPlane r p Plane.loaded) := by
  have hnone : (((({ u with mem := loadedMem u.mem r p (s.plane r p).regs.tsbase (s.plane r p).regs.tslen b d } : State).modTile r
      (Tile.unmarked (s.plane r p).regs.tsbase (s.plane r p).regs.tslen)).modPlane r p Plane.loaded).tile r).running.isNone = false := by
    rw [State.modPlane_tile, Tile.setPl_running, State.modTile_tile, Option.isNone_eq_false_iff, Option.isSome_iff_ne_none]
    exact hrun
  simp only [loadAt, hl, h]
  exact if_neg (ne_true_of_eq_false hnone)

theorem loadAt_spec {s u : State} {r p : Nat} {l : Launch} {b d : List Byte}
    (hl : s.launchOf (s.plane r p).task.launch = some l) (h : readImages s l (s.plane r p).resumeKind = .ok (b, d, u))
    (hrun : (s.tile r).running ≠ none) (hlen : (s.plane r p).regs.tsbase + (s.plane r p).regs.tslen < 2 ^ 32) :
    ((loadAt s r p).plane r p).state = 2 ∧ ((loadAt s r p).plane r p).token = true ∧
      ((loadAt s r p).plane r p).regs = (u.plane r p).regs ∧
      (s.Safe → memRead (loadAt s r p).mem (codeAddr r p 0) b.length = b ∧
        memRead (loadAt s r p).mem (tsAddr r (s.plane r p).regs.tsbase) d.length = d) ∧
      (∀ a, d.length ≤ a → a < (s.plane r p).regs.tslen →
        memGet (loadAt s r p).mem (tsAddr r ((s.plane r p).regs.tsbase + a)) = 0) ∧ (loadAt s r p).agenda = s.agenda := by
  obtain ⟨hdev, -, hd⟩ := readImages_ok h
  have hp : ∀ v : State, ((v.modTile r (Tile.unmarked (s.plane r p).regs.tsbase (s.plane r p).regs.tslen)).modPlane r p
      Plane.loaded).plane r p = (v.plane r p).loaded := by
    intro v
    rw [State.modPlane_plane, State.plane, State.modTile_tile]
    rfl
  rw [loadAt_ok hl h (by rw [hdev.tile_eq]; exact hrun)]
  refine ⟨by rw [hp]; rfl, by rw [hp]; rfl, by rw [hp]; rfl, fun hs => ⟨loadedMem_code (hdev.safe hs) hlen hd,
    loadedMem_data (hdev.safe hs)⟩, fun a h1 h2 => loadedMem_rest h1 h2, hdev.agenda_eq⟩

theorem loadComplete_spec {s : State} {r p : Nat} (l : Launch) (h : (Instr.loadComplete r p).wf = true) :
    ((s.plane r p).state ≠ 1 → exec (.loadComplete r p) s = .next s) ∧
    ((s.plane r p).state = 1 → s.launchOf (s.plane r p).task.launch = some l →
      (∀ fc u, readImages s l (s.plane r p).resumeKind = .error (fc, u) →
        exec (.loadComplete r p) s = .next (cancelLaunch u l.num true)) ∧
      (∀ b d u, readImages s l (s.plane r p).resumeKind = .ok (b, d, u) → (s.tile r).running ≠ none →
        (s.plane r p).regs.tsbase + (s.plane r p).regs.tslen < 2 ^ 32 → ∃ t, exec (.loadComplete r p) s = .next t ∧
          (t.plane r p).state = 2 ∧ (t.plane r p).token = true ∧ (t.plane r p).regs = (u.plane r p).regs ∧
          (s.Safe → memRead t.mem (codeAddr r p 0) b.length = b ∧ memRead t.mem (tsAddr r (s.plane r p).regs.tsbase) d.length = d) ∧
          (∀ a, d.length ≤ a → a < (s.plane r p).regs.tslen → memGet t.mem (tsAddr r ((s.plane r p).regs.tsbase + a)) = 0) ∧
          t.agenda = s.agenda)) := by
  rw [exec_loadComplete h]
  refine ⟨fun hst => by rw [if_neg hst], fun hst hl => ⟨fun fc u hi => ?_, fun b d u hi hrun hlen => ?_⟩⟩
  · rw [if_pos hst, loadAt_fault hl hi]
  · rw [if_pos hst]
    exact ⟨_, rfl, loadAt_spec hl hi hrun hlen⟩

/-- Settles O55. Each step's conditions are the branches of its definition; the loader's reads change nothing below the vaults, so that
its three writes stand where they were made. -/
theorem taskSteps : Obligations.TaskSteps := by
  unfold Obligations.TaskSteps
  refine ⟨fun s r p pc h => taskEnd_spec pc h, mayExit_iff, fun info pos pc cause code e discard cycle b h =>
    statusRecord_spec info pos pc cause code e discard cycle h, fun s r p h => planeFree_spec h, fun s r p h => spillHeadReadmit_spec h,
    fun s r p e x h => readmitHead_fault h, fun s u v r p e b h hv => ?_, fun s r p h hp => windowStart_spec h hp,
    fun s r p l h => loadComplete_spec l h⟩
  subst hv
  exact ⟨fun w hw => readmitHead_admitted h hw, fun hw => readmitHead_refused h hw⟩

end Sys2Proof.Machine
end

section
/-! PROOFS. The scheduler's decisions and the graph walker (R29, R304 to R309, R311, R338). -/

namespace Sys2Proof.Machine

/-! ## Queues in order (R307) -/

/-- The queue after the last served is the lowest above it, or the lowest of all where none is above. -/
theorem afterLast_spec {l : List Nat} {last q : Nat} (hs : l.Pairwise (· < ·)) (h : afterLast l last = some q) :
    q ∈ l ∧ ((last < q ∧ ∀ x ∈ l, last < x → q ≤ x) ∨ ((∀ x ∈ l, x ≤ last) ∧ ∀ x ∈ l, q ≤ x)) := by
  unfold afterLast at h
  cases hf : l.find? (fun q => decide (last < q)) with
  | some k =>
    rw [hf] at h
    obtain rfl : k = q := by simpa using h
    obtain ⟨hk, as, bs, rfl, has⟩ := List.find?_eq_some_iff_append.1 hf
    refine ⟨by simp, .inl ⟨by simpa using hk, fun x hx hlast => ?_⟩⟩
    rcases List.mem_append.1 hx with hx | hx
    · exact absurd (has x hx) (by simpa using hlast)
    · rcases List.mem_cons.1 hx with rfl | hx
      · exact le_rfl
      · exact le_of_lt ((List.pairwise_cons.1 (List.pairwise_append.1 hs).2.1).1 x hx)
  | none =>
    rw [hf] at h
    have hhead : l.head? = some q := by simpa using h
    obtain ⟨r, rfl⟩ := List.head?_eq_some_iff.1 hhead
    refine ⟨by simp, .inr ⟨fun x hx => ?_, fun x hx => ?_⟩⟩
    · have := List.find?_eq_none.1 hf x hx
      simpa using this
    · rcases List.mem_cons.1 hx with rfl | hx
      · exact le_rfl
      · exact le_of_lt ((List.pairwise_cons.1 hs).1 x hx)

theorem afterLast_isSome {l : List Nat} (last : Nat) (h : l ≠ []) : (afterLast l last).isSome = true := by
  unfold afterLast
  obtain ⟨x, r, rfl⟩ := List.exists_cons_of_ne_nil h
  cases (x :: r).find? (fun q => decide (last < q)) <;> rfl

/-! ## The draw (R307) -/

/-- The queue whose tickets hold a value is preceded by the tickets below it. -/
theorem byTicket_spec {l : List (Nat × Nat)} {v w : Nat} (h : byTicket l v = some w) :
    ∃ b t c, l = b ++ (w, t) :: c ∧ (b.map (·.2)).sum ≤ v ∧ v < (b.map (·.2)).sum + t := by
  induction l generalizing v with
  | nil => cases h
  | cons x r ih =>
    obtain ⟨q, t⟩ := x
    simp only [byTicket] at h
    split at h
    · rename_i hv
      obtain rfl : q = w := Option.some.inj h
      exact ⟨[], t, r, rfl, by simp, by simpa using hv⟩
    · rename_i hv
      obtain ⟨b, t', c, rfl, h1, h2⟩ := ih h
      refine ⟨(q, t) :: b, t', c, rfl, ?_, ?_⟩ <;> simp only [List.map_cons, List.sum_cons] <;> omega

theorem setReg_reg (p : Package) (a v : Nat) : (p.setReg a v).reg a = v := by
  simp [Package.reg, Package.setReg]

theorem setReg_reg_ne (p : Package) {a b : Nat} (v : Nat) (h : b ≠ a) : (p.setReg a v).reg b = p.reg b := by
  simp [Package.reg, Package.setReg, ngetD_nset_ne _ _ _ h]

/-- A register of every queue of a list is written, from what it holds. -/
theorem foldl_setReg_ne (f : Nat → Nat → Nat) (die : Nat) (e : List Nat) (p : Package) {a : Nat} (h : ∀ q ∈ e, a ≠ qcfgAddr die q) :
    (e.foldl (fun p q => p.setReg (qcfgAddr die q) (f q (p.reg (qcfgAddr die q)))) p).reg a = p.reg a := by
  induction e generalizing p with
  | nil => rfl
  | cons q e ih =>
    rw [List.foldl_cons, ih _ (fun x hx => h x (List.mem_cons_of_mem _ hx)), setReg_reg_ne _ _ (h q List.mem_cons_self)]

theorem foldl_setReg_mem (f : Nat → Nat → Nat) (die : Nat) {e : List Nat} (p : Package) (he : e.Nodup) {q : Nat} (hq : q ∈ e) :
    (e.foldl (fun p q => p.setReg (qcfgAddr die q) (f q (p.reg (qcfgAddr die q)))) p).reg (qcfgAddr die q) =
      f q (p.reg (qcfgAddr die q)) := by
  have hne : ∀ {x y : Nat}, x ≠ y → qcfgAddr die x ≠ qcfgAddr die y := fun h => by unfold qcfgAddr; omega
  induction e generalizing p with
  | nil => cases hq
  | cons x e ih =>
    obtain ⟨hx, he⟩ := List.nodup_cons.1 he
    rw [List.foldl_cons]
    rcases List.mem_cons.1 hq with rfl | hin
    · rw [foldl_setReg_ne _ _ _ _ (fun y hy => hne (by rintro rfl; exact hx hy)), setReg_reg]
    · rw [ih _ he hin, setReg_reg_ne _ _ (hne (by rintro rfl; exact hx hin))]

/-- The register of the generator of a die. -/
def seedAddr (die : Nat) : Nat := 0x10000 + 0x1000 * die + 0x208

/-- Who wins a draw, from the package that holds the new state of the generator. -/
def drawWinner (p : Package) (die x : Nat) (e : List Nat) : Option Nat :=
  (e.find? (fun q => decide (lageOf (p.reg (qcfgAddr die q)) = 64))).orElse (fun _ =>
    byTicket (e.map (fun q => (q, bitsHL (p.reg (qcfgAddr die q)) 23 16)))
      (x * ((e.map (fun q => (q, bitsHL (p.reg (qcfgAddr die q)) 23 16))).map (·.2)).sum / 2 ^ 32))

theorem draw_some {p k : Package} {die w : Nat} {e : List Nat} (h : draw p die e = (some w, k)) :
    drawWinner (p.setReg (seedAddr die) (lseedNext (p.reg (seedAddr die)))) die (lseedNext (p.reg (seedAddr die))) e = some w ∧
      k = e.foldl (fun p q => p.setReg (qcfgAddr die q) (putBits (p.reg (qcfgAddr die q)) 15 8
        (if q = w then 0 else min (lageOf (p.reg (qcfgAddr die q)) + 1) 64)))
        (p.setReg (seedAddr die) (lseedNext (p.reg (seedAddr die)))) := by
  have hd : draw p die e = (match drawWinner (p.setReg (seedAddr die) (lseedNext (p.reg (seedAddr die)))) die
      (lseedNext (p.reg (seedAddr die))) e with
    | none => (none, p.setReg (seedAddr die) (lseedNext (p.reg (seedAddr die))))
    | some w => (some w, e.foldl (fun p q => p.setReg (qcfgAddr die q) (putBits (p.reg (qcfgAddr die q)) 15 8
        (if q = w then 0 else min (lageOf (p.reg (qcfgAddr die q)) + 1) 64)))
        (p.setReg (seedAddr die) (lseedNext (p.reg (seedAddr die)))))) := rfl
  rw [hd] at h
  split at h
  · cases h
  · rename_i hw
    cases h
    exact ⟨hw, rfl⟩

/-- Who wins depends on the registers of the queues alone. -/
theorem drawWinner_congr {p k : Package} {die : Nat} (x : Nat) {e : List Nat}
    (h : ∀ q ∈ e, k.reg (qcfgAddr die q) = p.reg (qcfgAddr die q)) : drawWinner k die x e = drawWinner p die x e := by
  have hf : e.find? (fun q => decide (lageOf (k.reg (qcfgAddr die q)) = 64)) =
      e.find? (fun q => decide (lageOf (p.reg (qcfgAddr die q)) = 64)) := List.find?_congr (fun q hq => by rw [h q hq])
  have hm : e.map (fun q => (q, bitsHL (k.reg (qcfgAddr die q)) 23 16)) =
      e.map (fun q => (q, bitsHL (p.reg (qcfgAddr die q)) 23 16)) := List.map_congr_left (fun q hq => by rw [h q hq])
  rw [drawWinner, drawWinner, hf, hm]

theorem drawWinner_mem {p : Package} {die x w : Nat} {e : List Nat} (h : drawWinner p die x e = some w) : w ∈ e := by
  unfold drawWinner at h
  cases hf : e.find? (fun q => decide (lageOf (p.reg (qcfgAddr die q)) = 64)) with
  | some q =>
    rw [hf] at h
    obtain rfl : q = w := by simpa using h
    exact List.mem_of_find?_eq_some hf
  | none =>
    rw [hf] at h
    obtain ⟨b, t, c, hbtc, -, -⟩ := byTicket_spec h
    have hin : (w, t) ∈ e.map (fun q => (q, bitsHL (p.reg (qcfgAddr die q)) 23 16)) := by rw [hbtc]; simp
    obtain ⟨q, hq, he⟩ := List.mem_map.1 hin
    obtain rfl : q = w := congrArg Prod.fst he
    exact hq

/-- R307: the generator has moved on, a queue that has waited 64 draws wins and else the tickets decide, and the ages follow. -/
theorem draw_spec {p k : Package} {die w x : Nat} {e : List Nat} (he : e.Nodup) (h64 : ∀ q ∈ e, q < 64)
    (h : draw p die e = (some w, k)) (hx : x = lseedNext (p.reg (0x10000 + 0x1000 * die + 0x208))) :
    k.reg (0x10000 + 0x1000 * die + 0x208) = x ∧ w ∈ e ∧
    (∀ q, e.find? (fun q => decide (lageOf (p.reg (qcfgAddr die q)) = 64)) = some q → w = q) ∧
    ((∀ q ∈ e, lageOf (p.reg (qcfgAddr die q)) ≠ 64) →
      byTicket (e.map (fun q => (q, bitsHL (p.reg (qcfgAddr die q)) 23 16)))
        (x * (e.map (fun q => bitsHL (p.reg (qcfgAddr die q)) 23 16)).sum / 2 ^ 32) = some w) ∧
    ∀ q ∈ e, k.reg (qcfgAddr die q) = putBits (p.reg (qcfgAddr die q)) 15 8
      (if q = w then 0 else min (lageOf (p.reg (qcfgAddr die q)) + 1) 64) := by
  obtain ⟨hw, rfl⟩ := draw_some h
  have hseed : ∀ q ∈ e, seedAddr die ≠ qcfgAddr die q := fun q hq => by
    have := h64 q hq
    unfold seedAddr qcfgAddr
    omega
  have hx' : lseedNext (p.reg (seedAddr die)) = x := hx.symm
  rw [hx'] at hw ⊢
  have hreg : ∀ q ∈ e, (p.setReg (seedAddr die) x).reg (qcfgAddr die q) = p.reg (qcfgAddr die q) :=
    fun q hq => setReg_reg_ne _ _ (hseed q hq).symm
  rw [drawWinner_congr x hreg] at hw
  refine ⟨?_, drawWinner_mem hw, fun q hq => ?_, fun hno => ?_, fun q hq => ?_⟩
  · exact (foldl_setReg_ne (fun q v => putBits v 15 8 (if q = w then 0 else min (lageOf v + 1) 64)) die e _ hseed).trans
      (setReg_reg _ _ _)
  · rw [drawWinner, hq] at hw
    exact (Option.some.inj hw).symm
  · have hnone : e.find? (fun q => decide (lageOf (p.reg (qcfgAddr die q)) = 64)) = none := by
      rw [List.find?_eq_none]
      exact fun q hq => by simpa using hno q hq
    rw [drawWinner, hnone, List.map_map] at hw
    exact hw
  · exact (foldl_setReg_mem (fun q v => putBits v 15 8 (if q = w then 0 else min (lageOf v + 1) 64)) die _ he hq).trans
      (by rw [hreg q hq])

/-! ## Decisions (R307) -/

/-- The user queues of a die that may be served. -/
def userQueues (s : State) (pkg die : Nat) : List Nat := (List.range 60).filter (fun q => (served s pkg die q).isSome)

/-- The system queues of a die that may be served. -/
def sysQueues (s : State) (pkg die : Nat) : List Nat :=
  [60, 61, 62, 63].filter (fun q => decide (bitsHL ((s.pkg pkg).reg (qcfgAddr die q)) 23 16 ≠ 0) && (served s pkg die q).isSome)

/-- The highest rank of a user queue that may be served. -/
def bestRank (s : State) (pkg die : Nat) : Nat := ((userQueues s pkg die).map ((s.pkg pkg).queueRank die)).foldl max 0

theorem mem_userQueues {s : State} {pkg die q : Nat} : q ∈ userQueues s pkg die ↔ q < 60 ∧ served s pkg die q ≠ none := by
  rw [userQueues, List.mem_filter, List.mem_range, Option.isSome_iff_ne_none]

theorem foldl_max_le {l : List Nat} {a b : Nat} (ha : a ≤ b) (h : ∀ x ∈ l, x ≤ b) : l.foldl max a ≤ b := by
  induction l generalizing a with
  | nil => exact ha
  | cons x l ih =>
    exact ih (max_le ha (h x List.mem_cons_self)) (fun y hy => h y (List.mem_cons_of_mem _ hy))

theorem le_foldl_max {l : List Nat} (a : Nat) : a ≤ l.foldl max a ∧ ∀ x ∈ l, x ≤ l.foldl max a := by
  induction l generalizing a with
  | nil => exact ⟨le_rfl, fun x hx => by cases hx⟩
  | cons x l ih =>
    obtain ⟨h1, h2⟩ := ih (max a x)
    refine ⟨le_trans (le_max_left _ _) h1, fun y hy => ?_⟩
    rcases List.mem_cons.1 hy with rfl | hy
    · exact le_trans (le_max_right _ _) h1
    · exact h2 y hy

/-- No user queue that may be served has a higher rank. -/
theorem queueRank_le_best {s : State} {pkg die q : Nat} (hq : q < 60) (hs : served s pkg die q ≠ none) :
    (s.pkg pkg).queueRank die q ≤ bestRank s pkg die :=
  (le_foldl_max 0).2 _ (List.mem_map.2 ⟨q, mem_userQueues.2 ⟨hq, hs⟩, rfl⟩)

theorem decideQueue_eq (s : State) (pkg die : Nat) : decideQueue s pkg die =
    if sysQueues s pkg die ≠ [] ∧ (userQueues s pkg die = [] ∨ bestRank s pkg die ≤ (s.pkg pkg).queueRank die 60) then
      let d := draw (s.pkg pkg) die (sysQueues s pkg die)
      (d.1.bind (served (s.modPkg pkg (fun _ => d.2)) pkg die), s.modPkg pkg (fun _ => d.2))
    else
      match afterLast ((userQueues s pkg die).filter (fun q => decide ((s.pkg pkg).queueRank die q = bestRank s pkg die)))
        (ngetD (s.pkg pkg).lastq die 59) with
      | none => (none, s)
      | some q => (served s pkg die q, s.modPkg pkg (fun p => { p with lastq := nset p.lastq die q })) := rfl

theorem served_qid {s : State} {pkg die q : Nat} {l : Launch} {x : List (Nat × Nat)} (h : served s pkg die q = some (l, x)) :
    l.qid = q ∧ l.pkg = pkg := by
  unfold served at h
  split at h
  · cases h
  · obtain ⟨k, hk, hm⟩ := Option.bind_eq_some_iff.1 h
    obtain ⟨y, -, e⟩ := Option.map_eq_some_iff.1 hm
    obtain rfl : k = l := congrArg Prod.fst e
    have hq := List.find?_some hk
    simp only [inQueue, Bool.and_eq_true, decide_eq_true_eq] at hq
    obtain ⟨⟨-, hpkg, hqid⟩, -⟩ := hq
    exact ⟨hqid, hpkg⟩

/-- R307: where no system queue may be served, the user queue of the highest rank is, the next after the last among equals. -/
theorem decideQueue_user {s u : State} {pkg die : Nat} {l : Launch} {slots : List (Nat × Nat)}
    (h : decideQueue s pkg die = (some (l, slots), u)) (hsys : ∀ q, 60 ≤ q → q < 64 → served s pkg die q = none) :
    l.qid < 60 ∧ u.mem = s.mem ∧ u.tiles = s.tiles ∧ ngetD (u.pkg pkg).lastq die 59 = l.qid ∧
      (∀ q < 60, served s pkg die q ≠ none → (s.pkg pkg).queueRank die q ≤ (s.pkg pkg).queueRank die l.qid) ∧
      ∀ q < 60, served s pkg die q ≠ none → (s.pkg pkg).queueRank die q = (s.pkg pkg).queueRank die l.qid →
        (ngetD (s.pkg pkg).lastq die 59 < l.qid → ngetD (s.pkg pkg).lastq die 59 < q → l.qid ≤ q) ∧
        (l.qid ≤ ngetD (s.pkg pkg).lastq die 59 → q ≤ ngetD (s.pkg pkg).lastq die 59 ∧ l.qid ≤ q) := by
  have hempty : sysQueues s pkg die = [] := by
    rw [sysQueues, List.filter_eq_nil_iff]
    intro q hq
    have hq' : q = 60 ∨ q = 61 ∨ q = 62 ∨ q = 63 := by simpa using hq
    rw [hsys q (by omega) (by omega)]
    simp
  rw [decideQueue_eq, if_neg (by simp [hempty])] at h
  split at h
  · cases h
  · rename_i q hq
    obtain ⟨hserved, rfl⟩ := Prod.mk.inj h
    obtain ⟨rfl, -⟩ := served_qid hserved
    have hsorted : ((userQueues s pkg die).filter (fun q => decide ((s.pkg pkg).queueRank die q = bestRank s pkg die))).Pairwise
        (· < ·) := ((List.pairwise_lt_range).filter _).filter _
    obtain ⟨hin, hnext⟩ := afterLast_spec hsorted hq
    obtain ⟨huser, hrank⟩ := List.mem_filter.1 hin
    obtain ⟨h60, -⟩ := mem_userQueues.1 huser
    have hrank : (s.pkg pkg).queueRank die l.qid = bestRank s pkg die := of_decide_eq_true hrank
    have hpkg := State.modPkg_pkg s pkg (fun p => { p with lastq := nset p.lastq die l.qid })
    refine ⟨h60, rfl, rfl, ?_, fun q hq hs => ?_, fun q hq hs hqr => ?_⟩
    · rw [hpkg]
      exact ngetD_nset_self _ _ _ _
    · rw [hrank]
      exact queueRank_le_best hq hs
    · have hmem : q ∈ (userQueues s pkg die).filter (fun q => decide ((s.pkg pkg).queueRank die q = bestRank s pkg die)) :=
        List.mem_filter.2 ⟨mem_userQueues.2 ⟨hq, hs⟩, decide_eq_true (hqr.trans hrank)⟩
      rcases hnext with ⟨hlast, hmin⟩ | ⟨hmax, hmin⟩
      · exact ⟨fun _ hl => hmin q hmem hl, fun hle => absurd hlast (by omega)⟩
      · exact ⟨fun hl => absurd (hmax _ hin) (by omega), fun _ => ⟨hmax q hmem, hmin q hmem⟩⟩

/-- R307: the system queues draw where no user queue has a higher rank. -/
theorem decideQueue_sys {s : State} {pkg die : Nat} {w : Option Nat} {p : Package} (he : sysQueues s pkg die ≠ [])
    (hr : ∀ q < 60, served s pkg die q ≠ none → (s.pkg pkg).queueRank die q ≤ (s.pkg pkg).queueRank die 60)
    (hd : draw (s.pkg pkg) die (sysQueues s pkg die) = (w, p)) :
    decideQueue s pkg die = (w.bind (served (s.modPkg pkg (fun _ => p)) pkg die), s.modPkg pkg (fun _ => p)) := by
  have hbest : bestRank s pkg die ≤ (s.pkg pkg).queueRank die 60 := by
    refine foldl_max_le (Nat.zero_le _) (fun x hx => ?_)
    obtain ⟨q, hq, rfl⟩ := List.mem_map.1 hx
    obtain ⟨h60, hs⟩ := mem_userQueues.1 hq
    exact hr q h60 hs
  rw [decideQueue_eq, if_pos ⟨he, .inr hbest⟩, hd]

theorem exec_placementDecision {s : State} {pkg die : Nat} (h : (Instr.placementDecision pkg die).wf = true) :
    exec (.placementDecision pkg die) s = .next (placeAt s pkg die) := by
  have e : exec (.placementDecision pkg die) s = execPlacementDecision pkg die s := rfl
  rw [e, execPlacementDecision]
  exact runEvent_ok h

section
variable {s u : State} {pkg die : Nat} {l : Launch} {slots : List (Nat × Nat)} (hr : Config.resumes s.tick = false)
include hr

theorem placeAt_takes (h : decideQueue s pkg die = (some (l, slots), u)) (ho : lowerOffers s l die = false) :
    placeAt s pkg die = emitOnce (takeSlots u l slots) (.placementDecision pkg die) := by
  simp only [placeAt, hr, h, ho, Bool.false_eq_true, if_false]

theorem placeAt_waits (h : decideQueue s pkg die = (some (l, slots), u)) (ho : lowerOffers s l die = true) :
    placeAt s pkg die = emitOnce s (.placementDecision pkg die) := by
  simp only [placeAt, hr, h, ho, Bool.false_eq_true, if_false, if_true]

theorem placeAt_idle (h : decideQueue s pkg die = (none, u)) (ho : outAt u pkg die = []) : placeAt s pkg die = u := by
  simp only [placeAt, hr, h, ho, Bool.false_eq_true, if_false, if_true]

end

/-- R308: a launch waits for a lower die whose decision is due and may serve it. -/
theorem lowerOffers_spec {s : State} {l : Launch} {die : Nat} (h : lowerOffers s l die = true) : l.test = none ∧
    ∃ d < die, s.Due (.placementDecision l.pkg d) ∧ ∃ x, served s l.pkg d l.qid = some x ∧ x.1.num = l.num := by
  simp only [lowerOffers, Bool.and_eq_true, List.any_eq_true, decide_eq_true_eq, Option.isNone_iff_eq_none] at h
  obtain ⟨ht, d, -, ⟨⟨hd, e, he, hev⟩, hx⟩, -⟩ := h
  refine ⟨ht, d, hd, ⟨e, he, hev⟩, ?_⟩
  cases hs : served s l.pkg d l.qid with
  | none => simp [hs] at hx
  | some x => exact ⟨x, rfl, by simpa [hs] using hx⟩

/-! ## Planes that are loaded (R301, R308) -/

/-- Any plane after a change of one. -/
theorem modPlane_plane_ite (s : State) (f : Plane → Plane) (r p q o : Nat) : (s.modPlane r p f).plane q o =
    if q = r ∧ (p = 0 ↔ o = 0) then f (s.plane r p) else s.plane q o := by
  by_cases hq : q = r
  · subst hq
    simp only [State.plane, State.modPlane_tile, true_and]
    by_cases hp : p = 0 <;> by_cases ho : o = 0 <;> simp [Tile.setPl, Tile.pl, hp, ho]
  · rw [if_neg (fun h => hq h.1), State.plane, State.modPlane_tile_ne _ _ _ hq, State.plane]

/-- A plane that the loader fills with a task. -/
def LoadsTask (l : Launch) (n rank : Nat) (pl : Plane) : Prop :=
  pl.state = 1 ∧ pl.task.job = l.job ∧ pl.task.launch = l.num ∧ pl.task.index = n ∧ pl.regs.myrank = rank

theorem loadingPlane_loads (s : State) (l : Launch) (n r p rank partner : Nat) :
    LoadsTask l n rank (loadingPlane s l n r p rank partner) := ⟨rfl, rfl, rfl, rfl, rfl⟩

theorem loadOne_plane (s : State) (l : Launch) (n : Nat) (slots : List (Nat × Nat)) (x : Nat × Nat) (r p : Nat) :
    (loadOne s l n slots x).plane r p = s.plane r p ∨ LoadsTask l n (slotsRank slots) ((loadOne s l n slots x).plane r p) := by
  unfold loadOne
  extract_lets partner
  rw [(emitOnce_onlyDue _ _).plane_eq, modPlane_plane_ite]
  split
  · exact .inr (loadingPlane_loads _ _ _ _ _ _ _)
  · exact .inl rfl

theorem loadOne_loads (s : State) (l : Launch) (n : Nat) (slots : List (Nat × Nat)) (x : Nat × Nat) :
    LoadsTask l n (slotsRank slots) ((loadOne s l n slots x).plane x.1 x.2) ∧
      (loadOne s l n slots x).Due (.loadComplete x.1 x.2) := by
  refine ⟨?_, emitOnce_due _ _⟩
  unfold loadOne
  extract_lets partner
  rw [(emitOnce_onlyDue _ _).plane_eq, State.modPlane_plane]
  exact loadingPlane_loads _ _ _ _ _ _ _

/-- Every plane of a list is filled, and its load is due. -/
theorem foldl_loadOne (l : Launch) (n : Nat) (slots xs : List (Nat × Nat)) (s : State) :
    (∀ r p, LoadsTask l n (slotsRank slots) (s.plane r p) →
      LoadsTask l n (slotsRank slots) ((xs.foldl (fun s x => loadOne s l n slots x) s).plane r p)) ∧
    (∀ i, s.Due i → (xs.foldl (fun s x => loadOne s l n slots x) s).Due i) ∧
    ∀ x ∈ xs, LoadsTask l n (slotsRank slots) ((xs.foldl (fun s x => loadOne s l n slots x) s).plane x.1 x.2) ∧
      (xs.foldl (fun s x => loadOne s l n slots x) s).Due (.loadComplete x.1 x.2) := by
  induction xs generalizing s with
  | nil => exact ⟨fun _ _ h => h, fun _ h => h, fun x hx => by cases hx⟩
  | cons y xs ih =>
    obtain ⟨hkeep, hdue, hin⟩ := ih (loadOne s l n slots y)
    refine ⟨fun r p h => hkeep r p ?_, fun i h => hdue i (emitOnce_keeps _ _ h), fun x hx => ?_⟩
    · rcases loadOne_plane s l n slots y r p with e | e
      · rw [e]; exact h
      · exact e
    · rcases List.mem_cons.1 hx with rfl | hx
      · obtain ⟨hl, hd⟩ := loadOne_loads s l n slots x
        exact ⟨hkeep _ _ hl, hdue _ hd⟩
      · exact hin x hx

theorem wakeDies_onlyDue (s : State) (pkg part : Nat) : OnlyDue s (wakeDies s pkg part) :=
  foldl_onlyDue (fun s _ => emitOnce_onlyDue s _) _ s

theorem wakeDies_due {s : State} {pkg part d : Nat} (h : d ∈ (s.pkg pkg).diesOf part) :
    (wakeDies s pkg part).Due (.placementDecision pkg d) := by
  have key : ∀ (ds : List Nat) (s : State), d ∈ ds → (ds.foldl (fun s d => emitOnce s (.placementDecision pkg d)) s).Due
      (.placementDecision pkg d) := by
    intro ds
    induction ds with
    | nil => exact fun s h => by cases h
    | cons x ds ih =>
      intro s h
      rcases List.mem_cons.1 h with rfl | h
      · exact (foldl_onlyDue (fun s _ => emitOnce_onlyDue s _) ds _).2 _ (emitOnce_due _ _)
      · exact ih _ h
  exact key _ s h

/-- R308: the planes that a task takes are loaded with it. -/
theorem placeTask_spec {s : State} {num n : Nat} {l : Launch} {slots : List (Nat × Nat)} (h : s.launchOf num = some l) :
    ∀ x ∈ slots, LoadsTask l n (slotsRank slots) ((placeTask s num n slots).plane x.1 x.2) ∧
      (placeTask s num n slots).Due (.loadComplete x.1 x.2) := by
  intro x hx
  obtain ⟨-, -, hin⟩ := foldl_loadOne l n slots slots (tagSpill s l n (slotsRank slots))
  obtain ⟨hl, hd⟩ := hin x hx
  simp only [placeTask, h]
  generalize slots.foldl (fun s x => loadOne s l n slots x) (tagSpill s l n (slotsRank slots)) = t at hl hd ⊢
  have hw : OnlyDue t (if l.ntask ≤ n + 1 then wakeDies t l.pkg (t.jobPart l.job l.pkg) else t) := by
    split
    · exact wakeDies_onlyDue _ _ _
    · exact OnlyDue.refl t
  generalize (if l.ntask ≤ n + 1 then wakeDies t l.pkg (t.jobPart l.job l.pkg) else t) = v at hw ⊢
  exact ⟨show LoadsTask l n _ (v.plane x.1 x.2) by rw [hw.plane_eq]; exact hl, hw.2 _ hd⟩

theorem takeSlots_task {s : State} {l : Launch} {slots : List (Nat × Nat)} (hg : l.gang = false) (ht : l.test = none) :
    takeSlots s l slots = placeTask s l.num l.next slots := by
  simp only [takeSlots, ht, hg, Bool.false_eq_true, if_false]

theorem takeSlots_gang {s u : State} {l m : Launch} {slots : List (Nat × Nat)} (hg : l.gang = true) (ht : l.test = none)
    (hu : u = s.modLaunch l.num (fun l => { l with heldPlanes := l.heldPlanes ++ slots })) (hm : u.launchOf l.num = some m)
    (hn : m.num = l.num) : takeSlots s l slots = if gangReady u m then placeGang u l.num else u := by
  subst hu
  simp only [takeSlots, ht, hg, if_true, hm, hn]

theorem takeSlots_test {s : State} {l : Launch} {slots : List (Nat × Nat)} {e : Nat} (ht : l.test = some e) :
    takeSlots s l slots = emitOnce (s.modLaunch l.num (fun l => { l with heldPlanes := slots, queued := false }))
      (.fieldTest l.pkg e (Config.testPasses s.tick e)) := by
  simp only [takeSlots, ht]

/-! ## Nodes (R29, R304) -/

theorem modify_getElem? {α : Type} (l : List α) (f : α → α) (k i : Nat) {x : α} (h : l[i]? = some x) :
    (l.modify k f)[i]? = some (if i = k then f x else x) := by
  rw [List.getElem?_modify, h]
  by_cases hk : i = k
  · simp [hk]
  · simp [hk, Ne.symm hk]

/-- A control node that takes one successor: the node has ended, and the successor is signalled. -/
theorem took_spec (g : Graph) (k j : Nat) : (g.took k [j]).eval = g.eval + 1 ∧ ∀ (i : Nat) (x y : Node), g.nodes[i]? = some x →
    y = (if i = k then { x with st := 3 } else x) → (g.took k [j]).nodes[i]? = some (if i = j then y.signal else y) := by
  refine ⟨rfl, fun i x y hx hy => ?_⟩
  subst hy
  exact modify_getElem? _ _ _ _ (modify_getElem? g.nodes (fun n => { n with st := 3 }) k i hx)

/-- A counter loaded twice holds the second value. -/
theorem load_load (n : Node) (c d : Nat) : (n.load c).load d = n.load d := rfl

theorem load_spec (n : Node) (c : Nat) : (n.load c).count = c ∧ ((n.load c).st = 1 ↔ c = 0) ∧ ((n.load c).st = 0 ↔ c ≠ 0) ∧
    (n.load c).succ = n.succ ∧ (n.load c).kind = n.kind := by
  refine ⟨rfl, ?_, ?_, rfl, rfl⟩
  · simp [Node.load]
  · simp [Node.load]

/-- A while node whose body runs again. -/
theorem again_spec (g : Graph) (k : Nat) (n : Node) : (g.again k n).eval = g.eval + 1 ∧ ∀ (i : Nat) (x y : Node),
    g.nodes[i]? = some x →
    y = (if i = k then x.load x.nback else if n.bodyLo ≤ i ∧ i ≤ n.bodyHi then x.load x.npred else x) →
    (g.again k n).nodes[i]? = some (if n.succ.head? = some i then y.signal else y) := by
  refine ⟨rfl, fun i x y hx hy => ?_⟩
  have hbody : (g.nodes.mapIdx (fun i x => if n.bodyLo ≤ i ∧ i ≤ n.bodyHi then x.load x.npred else x))[i]? =
      some (if n.bodyLo ≤ i ∧ i ≤ n.bodyHi then x.load x.npred else x) := by
    rw [List.getElem?_mapIdx, hx]
    rfl
  have hloaded := modify_getElem? _ (fun x => x.load x.nback) k i hbody
  have hy' : (if i = k then (if n.bodyLo ≤ i ∧ i ≤ n.bodyHi then x.load x.npred else x).load
      (if n.bodyLo ≤ i ∧ i ≤ n.bodyHi then x.load x.npred else x).nback
      else if n.bodyLo ≤ i ∧ i ≤ n.bodyHi then x.load x.npred else x) = y := by
    rw [hy]
    split
    · split
      · rw [load_load]
        rfl
      · rfl
    · rfl
  rw [hy'] at hloaded
  have hnodes : (g.again k n).nodes = signalNodes ((g.nodes.mapIdx (fun i x =>
      if n.bodyLo ≤ i ∧ i ≤ n.bodyHi then x.load x.npred else x)).modify k (fun x => x.load x.nback)) (n.succ.take 1) := rfl
  rw [hnodes]
  cases n.succ with
  | nil => simpa [signalNodes] using hloaded
  | cons j r =>
    have hsig := modify_getElem? _ Node.signal j i hloaded
    have hh : (j :: r).head? = some i ↔ i = j := by rw [List.head?_cons, Option.some.injEq, eq_comm]
    simp only [hh]
    exact hsig

theorem choose_spec (n : Node) (w : Nat) : (n.kind = 1 → w ≠ 0 → n.choose w = n.succ.take 1) ∧
    (n.kind = 1 → n.choose 0 = (n.succ.drop 1).take 1) ∧
    (n.kind = 3 → w < n.succ.length → (n.choose w).head? = n.succ[w]?) ∧
    (n.kind = 3 → n.succ.length ≤ w → n.succ ≠ [] → (n.choose w).head? = n.succ.getLast?) := by
  refine ⟨fun hk hw => by simp [Node.choose, hk, hw], fun hk => by simp [Node.choose, hk], fun hk hw => ?_, fun hk hw hne => ?_⟩
  · have hidx : (if w < n.succ.length - 1 then w else n.succ.length - 1) = w := by split <;> omega
    rw [Node.choose, if_neg (by omega), hidx, List.head?_take, if_neg (by omega), List.head?_drop]
  · rw [Node.choose, if_neg (by omega), if_neg (by omega), List.head?_take, if_neg (by omega), List.head?_drop,
      List.getLast?_eq_getElem?]

theorem signal_spec (n : Node) : (n.st = 0 → 1 < n.count → n.signal.count + 1 = n.count ∧ n.signal.st = 0) ∧
    (n.st = 0 → n.count = 1 → n.signal.count = 0 ∧ n.signal.st = 1) := by
  refine ⟨fun hst hc => ?_, fun hst hc => ?_⟩
  · have h1 : n.count ≠ 1 := by omega
    simp only [Node.signal, hst, h1]
    rw [if_neg (by omega)]
    exact ⟨by simp only; omega, rfl⟩
  · simp [Node.signal, hst, hc]

/-- R304: the walker takes the lowest ready node, of which a launch node waits while 64 run. -/
theorem next_spec {g : Graph} {k : Nat} (h : g.next = some k) : ∃ n, g.nodes[k]? = some n ∧ n.st = 1 ∧
    (n.kind = 0 → g.running < 64) ∧ ∀ j < k, ∀ m, g.nodes[j]? = some m → m.st = 1 → m.kind = 0 ∧ 64 ≤ g.running := by
  unfold Graph.next at h
  obtain ⟨hk, hin, hmin⟩ := List.find?_range_eq_some.1 h
  split at hk
  · rename_i n hn
    obtain ⟨hst, hor⟩ := of_decide_eq_true hk
    refine ⟨n, hn, hst, fun h0 => hor.resolve_left (fun hne => hne h0), fun j hj m hm hmst => ?_⟩
    have hno := hmin j hj
    simp only [hm, hmst, true_and, Bool.not_eq_true', decide_eq_false_iff_not, not_or, not_not, not_lt] at hno
    exact hno
  · cases hk

/-! ## Graphs -/

theorem graphOf_modGraph {s : State} {num : Nat} {g : Graph} (f : Graph → Graph) (h : s.graphOf num = some g)
    (hf : ∀ k : Graph, (f k).num = k.num) : (s.modGraph num f).graphOf num = some (f g) := by
  have hn : g.num = num := by simpa using List.find?_some h
  have hp : ((fun k : Graph => decide (k.num = num)) ∘ fun k => if k.num = num then f k else k) = fun k => decide (k.num = num) := by
    funext k
    simp only [Function.comp]
    split
    · rw [hf]
    · rfl
  simp only [State.graphOf, State.modGraph, List.find?_map, hp]
  have h' : s.graphs.find? (fun k => decide (k.num = num)) = some g := h
  rw [h']
  simp [hn]

theorem exec_graphNodeEval_none {s : State} {pkg num : Nat} (h : (Instr.graphNodeEval pkg num).wf = true)
    (hg : s.graphOf num = none) : exec (.graphNodeEval pkg num) s = .next s := by
  have e : exec (.graphNodeEval pkg num) s = execGraphNodeEval pkg num s := rfl
  rw [e, execGraphNodeEval, runEvent_ok h]
  simp only [hg]

section
variable {s : State} {pkg num : Nat} {g : Graph} (h : (Instr.graphNodeEval pkg num).wf = true) (hg : s.graphOf num = some g)
include h hg

theorem exec_graphNodeEval_idle (hno : g.fin = true ∨ g.stopped = true ∨ g.pkg ≠ pkg ∨ g.next = none) :
    exec (.graphNodeEval pkg num) s = .next s := by
  have e : exec (.graphNodeEval pkg num) s = execGraphNodeEval pkg num s := rfl
  rw [e, execGraphNodeEval, runEvent_ok h]
  simp only [hg]
  by_cases hstop : (g.fin || g.stopped || decide (g.pkg ≠ pkg)) = true
  · rw [if_pos hstop]
  · have hnext : g.next = none := by
      simp only [Bool.or_eq_true, decide_eq_true_eq, not_or] at hstop
      obtain ⟨⟨h1, h2⟩, h3⟩ := hstop
      exact ((hno.resolve_left h1).resolve_left h2).resolve_left h3
    rw [if_neg hstop]
    simp only [hnext]

theorem exec_graphNodeEval_node {k : Nat} {n : Node} (hf : g.fin = false) (hs : g.stopped = false) (hp : g.pkg = pkg)
    (hk : g.next = some k) (hn : g.nodes[k]? = some n) :
    exec (.graphNodeEval pkg num) s = .next (advance (graphGo (evalNode s g k n) num)) := by
  have e : exec (.graphNodeEval pkg num) s = execGraphNodeEval pkg num s := rfl
  rw [e, execGraphNodeEval, runEvent_ok h]
  simp only [hg, hf, hs, hp, hk, hn, Bool.or_self, ne_eq, not_true_eq_false, decide_false, Bool.false_eq_true, if_false]

end

/-- An exit node: no node of the graph waits any more. -/
theorem evalNode_exit {s : State} {g : Graph} {k : Nat} {n : Node} (hg : s.graphOf g.num = some g) (hn : n.kind = 4) :
    ∃ h, (evalNode s g k n).graphOf g.num = some h ∧ h.exitSeen = true ∧ h.eval = g.eval + 1 ∧ (∀ m ∈ h.nodes, m.st ≠ 0) ∧
      (evalNode s g k n).mem = s.mem := by
  have he : evalNode s g k n = s.modGraph g.num (fun g =>
      { g.took k [] with exitSeen := true, nodes := (g.took k []).nodes.map (fun n => if n.st = 0 then { n with st := 3 } else n) }) := by
    rw [evalNode, if_neg (by omega), if_pos hn]
  rw [he]
  refine ⟨_, graphOf_modGraph _ hg (fun _ => rfl), rfl, rfl, fun m hm => ?_, rfl⟩
  obtain ⟨x, -, rfl⟩ := List.mem_map.1 hm
  split
  · simp
  · assumption

section
variable {s : State} {g : Graph} {k : Nat} {n : Node} (hn : n.kind = 1 ∨ n.kind = 2 ∨ n.kind = 3)
include hn

/-- R29: an if, while or switch node. -/
theorem evalNode_control_spec : (writesOut s g = true → evalNode s g k n = s) ∧
    (∀ fc u, writesOut s g = false → schedRead s g.pkg (s.jobPart g.job g.pkg) n.addr 8 = .error (fc, u) →
      evalNode s g k n = u.modGraph g.num (fun h => { h with status := 4, fcode := fc, node := k })) ∧
    (∀ b u, writesOut s g = false → schedRead s g.pkg (s.jobPart g.job g.pkg) n.addr 8 = .ok (b, u) →
      (n.kind ≠ 2 → evalNode s g k n = u.modGraph g.num (fun h => h.took k (n.choose (leNat b)))) ∧
      (n.kind = 2 → leNat b = 0 → evalNode s g k n = u.modGraph g.num (fun h => h.took k ((n.succ.drop 1).take 1))) ∧
      (n.kind = 2 → leNat b ≠ 0 → evalNode s g k n = u.modGraph g.num (fun h => h.again k n))) := by
  have h0 : n.kind ≠ 0 := by omega
  have h4 : n.kind ≠ 4 := by omega
  refine ⟨fun hw => ?_, fun fc u hw hr => ?_, fun b u hw hr => ⟨fun h2 => ?_, fun h2 hb => ?_, fun h2 hb => ?_⟩⟩
  · simp only [evalNode, h0, h4, hw, if_true, if_false]
  · simp only [evalNode, h0, h4, hw, hr, if_false, Bool.false_eq_true]
  · simp only [evalNode, h0, h4, hw, hr, h2, if_false, Bool.false_eq_true]
  · simp [evalNode, hw, hr, h2, hb]
  · simp [evalNode, hw, hr, h2, hb]

end

/-! ## Launch nodes (R306) -/

/-- A launch stands under a number, of a node, a job and a package. -/
def HasLaunch (s : State) (num : Nat) (graph : Option (Nat × Nat)) (job pkg : Nat) : Prop :=
  ∃ m ∈ s.launches, m.num = num ∧ m.graph = graph ∧ m.job = job ∧ m.pkg = pkg

theorem HasLaunch.of_launches {s t : State} {num job pkg : Nat} {graph : Option (Nat × Nat)} (h : HasLaunch s num graph job pkg)
    (e : t.launches = s.launches) : HasLaunch t num graph job pkg := by
  unfold HasLaunch
  rw [e]
  exact h

theorem HasLaunch.modLaunch {s : State} {num job pkg : Nat} {graph : Option (Nat × Nat)} (h : HasLaunch s num graph job pkg) (k : Nat)
    {f : Launch → Launch} (hf : ∀ l, (f l).num = l.num ∧ (f l).graph = l.graph ∧ (f l).job = l.job ∧ (f l).pkg = l.pkg) :
    HasLaunch (s.modLaunch k f) num graph job pkg := by
  obtain ⟨m, hm, h1, h2, h3, h4⟩ := h
  refine ⟨_, List.mem_map.2 ⟨m, hm, rfl⟩, ?_⟩
  obtain ⟨f1, f2, f3, f4⟩ := hf m
  split
  · exact ⟨f1.trans h1, f2.trans h2, f3.trans h3, f4.trans h4⟩
  · exact ⟨h1, h2, h3, h4⟩

theorem writeHeader_devOnly (s : State) (num : Nat) : DevOnly s (writeHeader s num) := by
  unfold writeHeader
  split
  · exact DevOnly.refl s
  · split
    · exact DevOnly.refl s
    · exact schedWrite_devOnly _ _ _ _ _

/-- The end of a graph changes no launch. -/
theorem graphGo_launches (s : State) (num : Nat) : (graphGo s num).launches = s.launches := by
  unfold graphGo
  split
  · rfl
  · split
    · rfl
    · split
      · split
        · exact emitOnce_launches _ _
        · rfl
      · exact (schedWrite_devOnly _ _ _ _ _).launches_eq

theorem nodeEnds_launches (s : State) (num k : Nat) (b : Bool) : (nodeEnds s num k b).launches = s.launches :=
  graphGo_launches _ _

/-- The end of a launch keeps what every launch is of. -/
theorem HasLaunch.launchGo {s : State} {num job pkg : Nat} {graph : Option (Nat × Nat)} (h : HasLaunch s num graph job pkg) (k : Nat) :
    HasLaunch (launchGo s k) num graph job pkg := by
  unfold Machine.launchGo
  split
  · exact h
  · split
    · exact h
    · have hm := h.modLaunch k (f := fun l => { l with fin := true, queued := false, heldPlanes := [] })
        (fun l => ⟨rfl, rfl, rfl, rfl⟩)
      have hh := hm.of_launches (writeHeader_devOnly _ k).launches_eq
      have hw := fun q part => hh.of_launches (wakeDies_onlyDue _ q part).launches_eq
      dsimp only
      split
      · exact (hw _ _).of_launches (nodeEnds_launches _ _ _ _)
      · exact (hw _ _).of_launches rfl

/-- A launch that the scheduler takes from a record. -/
def recordLaunch (s : State) (job pkg : Nat) (graph : Option (Nat × Nat)) (image : List Byte) : Launch :=
  { num := s.nextNum, job := job, pkg := pkg, image := image, graph := graph }

/-- A launch with the counters of its tasks. -/
def Launch.counted (l : Launch) : Launch := { l with ntask := l.lw * l.lh, left := l.lw * l.lh }

/-- A launch refused BADATTR. -/
def refuseLaunch (s : State) (l : Launch) : State :=
  launchGo { s with launches := s.launches ++ [{ l with bad := true, queued := false }] } l.num

/-- A launch that enters its queue. -/
def enterLaunch (s : State) (l : Launch) (part : Nat) : State :=
  wakeDies (writeHeader { s with launches := s.launches ++ [l.counted] } l.num) l.pkg part

theorem refuseLaunch_has (s : State) (l : Launch) : HasLaunch (refuseLaunch s l) l.num l.graph l.job l.pkg := by
  refine HasLaunch.launchGo ?_ l.num
  exact ⟨_, List.mem_append_right _ List.mem_cons_self, rfl, rfl, rfl, rfl⟩

theorem enterLaunch_mem (s : State) (l : Launch) (part : Nat) : l.counted ∈ (enterLaunch s l part).launches := by
  have e : (enterLaunch s l part).launches = s.launches ++ [l.counted] :=
    (wakeDies_onlyDue _ _ _).launches_eq.trans (writeHeader_devOnly _ _).launches_eq
  rw [e]
  exact List.mem_append_right _ List.mem_cons_self

theorem enterLaunch_due {s : State} {l : Launch} {part d : Nat} (h : d ∈ (s.pkg l.pkg).diesOf part) :
    (enterLaunch s l part).Due (.placementDecision l.pkg d) := by
  refine wakeDies_due ?_
  rw [(writeHeader_devOnly _ _).diesOf_eq]
  exact h

section
variable {s : State} {job pkg addr : Nat} {graph : Option (Nat × Nat)}

theorem enqueueLaunch_unread {fc : Nat} {u : State}
    (h : schedRead (freshNum s).2 pkg (s.jobPart job pkg) addr 128 = .error (fc, u)) :
    enqueueLaunch s job pkg addr graph = refuseLaunch u (recordLaunch s job pkg graph []) := by
  have e : schedRead { s with nextNum := s.nextNum + 1 } pkg (s.jobPart job pkg) addr 128 = .error (fc, u) := h
  simp only [enqueueLaunch, freshNum, e]
  rfl

theorem enqueueLaunch_read {b : List Byte} {u : State}
    (h : schedRead (freshNum s).2 pkg (s.jobPart job pkg) addr 128 = .ok (b, u)) :
    enqueueLaunch s job pkg addr graph =
      if addr % 64 ≠ 0 ∨ launchOk u (recordLaunch s job pkg graph b) (s.jobPart job pkg) = false
      then refuseLaunch u (recordLaunch s job pkg graph b)
      else enterLaunch u (recordLaunch s job pkg graph b) (s.jobPart job pkg) := by
  have e : schedRead { s with nextNum := s.nextNum + 1 } pkg (s.jobPart job pkg) addr 128 = .ok (b, u) := h
  simp only [enqueueLaunch, freshNum, e]
  rfl

/-- R306: a launch stands for the record, whether it may be run or not. -/
theorem enqueueLaunch_has : HasLaunch (enqueueLaunch s job pkg addr graph) s.nextNum graph job pkg := by
  cases hr : schedRead (freshNum s).2 pkg (s.jobPart job pkg) addr 128 with
  | error x =>
    rw [enqueueLaunch_unread hr]
    exact refuseLaunch_has _ _
  | ok x =>
    rw [enqueueLaunch_read hr]
    split
    · exact refuseLaunch_has _ _
    · exact ⟨_, enterLaunch_mem _ _ _, rfl, rfl, rfl, rfl⟩

end

/-- The graph with a launch node that runs. -/
def Graph.withRunning (k : Nat) (g : Graph) : Graph := { g with nodes := g.nodes.modify k (fun n => { n with st := 2 }) }

theorem evalNode_launch {s : State} {g : Graph} {k : Nat} {n : Node} (hn : n.kind = 0) :
    evalNode s g k n = enqueueLaunch (s.modGraph g.num (Graph.withRunning k)) g.job g.pkg n.addr (some (g.num, k)) := if_pos hn

/-- Settles O56. The walker's nodes and the scheduler's queues are lists and numbers; a launch node's launch stays in the list through
all that its end makes of it, and the scheduler's reads and writes change vaults and packages alone. -/
theorem schedulerSteps : Obligations.SchedulerSteps := by
  unfold Obligations.SchedulerSteps
  refine ⟨fun s pkg die h => ?decision, fun s l die h => lowerOffers_spec h, fun s u l slots hg ht hl hu => ?task,
    fun s u l m slots hg ht hl hm hu => ?gang, fun s l slots e ht => ?test, fun l last q hs h => afterLast_spec hs h,
    fun l last h => afterLast_isSome last h, fun s u pkg die l slots h hsys => decideQueue_user h hsys,
    fun s u pkg die e w p he hne hr hd hu => ?sys, fun p k die w x e he h64 h hx => draw_spec he h64 h hx, fun x => rfl,
    fun l v w h => byTicket_spec h, fun s pkg num h => ?eval, fun g k h => next_spec h,
    fun s g k n hg hk hn => evalNode_exit hg hn, fun s g k n hn => ?launch, fun s v u g k n l b hn hv hr ha hl hok => ?record,
    fun s g k n hn => evalNode_control_spec hn, took_spec, again_spec, load_spec, choose_spec, signal_spec⟩
  case decision =>
    rw [exec_placementDecision h]
    refine ⟨rfl, fun l slots u hr hd ho => ?_, fun l slots u hr hd ho => ?_, fun u hr hd ho => ?_⟩
    · rw [placeAt_takes hr hd ho]
      exact ⟨_, rfl, rfl, emitOnce_due _ _⟩
    · rw [placeAt_waits hr hd ho]
    · rw [placeAt_idle hr hd ho]
  case task =>
    intro x hx _
    subst hu
    rw [takeSlots_task hg ht]
    obtain ⟨⟨h1, h2, h3, h4, h5⟩, hd⟩ := placeTask_spec hl x hx
    exact ⟨h1, h2, h3, h4, h5, hd⟩
  case gang =>
    have hl' : u.launchOf l.num = some m := by
      rw [hu, hm]
      exact launchOf_modLaunch _ hl (fun _ => rfl)
    rw [takeSlots_gang hg ht hu hl' (by rw [hm])]
    exact ⟨hl', fun h => by rw [h]; rfl, fun h => by rw [h]; rfl⟩
  case test =>
    rw [takeSlots_test ht]
    exact ⟨emitOnce_tiles _ _, emitOnce_due _ _⟩
  case sys =>
    subst hu he
    exact decideQueue_sys hne hr hd
  case eval =>
    exact ⟨exec_graphNodeEval_none h, fun g hg hno => exec_graphNodeEval_idle h hg hno,
      fun g k n hg hf hs hp hk hn => exec_graphNodeEval_node h hg hf hs hp hk hn⟩
  case launch =>
    rw [evalNode_launch hn]
    exact enqueueLaunch_has
  case record =>
    subst hv
    have hread : enqueueLaunch (s.modGraph g.num (Graph.withRunning k)) g.job g.pkg n.addr (some (g.num, k)) =
        enterLaunch u l (s.jobPart g.job g.pkg) := by
      refine (enqueueLaunch_read (s := s.modGraph g.num (Graph.withRunning k)) hr).trans ?_
      rw [hl] at hok ⊢
      exact if_neg (by
        intro hbad
        rcases hbad with hbad | hbad
        · exact hbad ha
        · exact Bool.false_ne_true (hbad.symm.trans hok))
    rw [evalNode_launch hn, hread]
    refine ⟨enterLaunch_mem _ _ _, by rw [hl], by rw [hl], fun d hd => ?_⟩
    have hpkg : l.pkg = g.pkg := by rw [hl]
    rw [← hpkg]
    exact enterLaunch_due (by rw [hpkg]; exact hd)

end Sys2Proof.Machine
end

section
/-! PROOFS. What the end of a task leaves of the fences of tiles (R314): a fenced tile stays fenced. -/

namespace Sys2Proof.Machine

/-- Every tile that was fenced is fenced. -/
def FenceKept (s t : State) : Prop := ∀ q, (s.tile q).fenced = true → (t.tile q).fenced = true

theorem FenceKept.refl (s : State) : FenceKept s s := fun _ h => h

theorem FenceKept.trans {s t u : State} (h : FenceKept s t) (k : FenceKept t u) : FenceKept s u := fun q hq => k q (h q hq)

theorem fenceKept_of_tiles {s t : State} (h : t.tiles = s.tiles) : FenceKept s t := by
  intro q hq
  rw [State.tile, h]
  exact hq

theorem OnlyDue.fenceKept {s t : State} (h : OnlyDue s t) : FenceKept s t := fun q hq => by rw [h.tile_eq]; exact hq

theorem DevOnly.fenceKept {s t : State} (h : DevOnly s t) : FenceKept s t := fenceKept_of_tiles h.tiles_eq

theorem emit_fenceKept (s : State) (ev : Instr) : FenceKept s (emit s ev) := fenceKept_of_tiles rfl

theorem emitOnce_fenceKept (s : State) (ev : Instr) : FenceKept s (emitOnce s ev) := (emitOnce_onlyDue s ev).fenceKept

theorem emitNet_fenceKept (s : State) (a b n : Nat) (ev : Instr) : FenceKept s (emitNet s a b n ev) := fenceKept_of_tiles rfl

@[simp] theorem Tile.setPl_fenced (t : Tile) (p : Nat) (x : Plane) : (t.setPl p x).fenced = t.fenced := by
  by_cases h : p = 0 <;> simp [Tile.setPl, h]

theorem modTile_fenceKept (s : State) (r : Nat) (f : Tile → Tile) (h : ∀ t, (f t).fenced = t.fenced := by intro; rfl) :
    FenceKept s (s.modTile r f) := by
  intro q hq
  by_cases e : q = r
  · subst e
    rw [State.modTile_tile, h]
    exact hq
  · rw [State.modTile_tile_ne _ _ e]
    exact hq

theorem setTile_fenceKept (s : State) {r : Nat} {t : Tile} (h : t.fenced = (s.tile r).fenced) : FenceKept s (s.setTile r t) := by
  intro q hq
  by_cases e : q = r
  · subst e
    rw [State.setTile_tile, h]
    exact hq
  · rw [State.setTile_tile_ne _ _ e]
    exact hq

theorem modPlane_fenceKept (s : State) (r p : Nat) (f : Plane → Plane) : FenceKept s (s.modPlane r p f) :=
  modTile_fenceKept s r _ (fun t => Tile.setPl_fenced t p _)

theorem foldl_fenceKept {α : Type} {f : State → α → State} (h : ∀ s a, FenceKept s (f s a)) (l : List α) (s : State) :
    FenceKept s (l.foldl f s) := by
  induction l generalizing s with
  | nil => exact FenceKept.refl s
  | cons a l ih => exact (h s a).trans (ih _)

/-- A fold over a state with something beside it. -/
theorem foldl_fst_fenceKept {α β : Type} {f : State × β → α → State × β} (h : ∀ x a, FenceKept x.1 (f x a).1) (l : List α)
    (x : State × β) : FenceKept x.1 (l.foldl f x).1 := by
  induction l generalizing x with
  | nil => exact FenceKept.refl x.1
  | cons a l ih => exact (h x a).trans (ih _)

/-! ## Launches, graphs and jobs change no tile -/

theorem foldl_tiles {α : Type} {f : State → α → State} (h : ∀ s a, (f s a).tiles = s.tiles) (l : List α) (s : State) :
    (l.foldl f s).tiles = s.tiles := by
  induction l generalizing s with
  | nil => rfl
  | cons a l ih => exact (ih _).trans (h s a)

theorem readGraph_error {s : State} {pkg part addr : Nat} {x : Nat × State} (h : readGraph s pkg part addr = .error x) :
    x.2.tiles = s.tiles := by
  have h1 := schedRead_devOnly s pkg part addr 64
  unfold readGraph at h
  split at h
  next f hf =>
    rw [hf] at h1
    cases h
    exact h1.tiles_eq
  · dsimp only at h
    split at h
    · cases h
    · split at h <;> cases h

theorem readGraph_ok {s : State} {pkg part addr : Nat} {x : List Byte × List Byte × State} (h : readGraph s pkg part addr = .ok x) :
    x.2.2.tiles = s.tiles := by
  unfold readGraph at h
  split at h
  · cases h
  next y u hy =>
    have h1 := (schedRead_ok hy).tiles_eq
    dsimp only at h
    split at h
    · cases h
      exact h1
    · have h2 := schedRead_devOnly u pkg part (addr + 64) (64 * leNat (y.take 2))
      split at h
      next e he =>
        rw [he] at h2
        cases h
        exact h2.tiles_eq.trans h1
      next c v hc =>
        cases h
        exact (schedRead_ok hc).tiles_eq.trans h1

theorem writeHeader_tiles (s : State) (num : Nat) : (writeHeader s num).tiles = s.tiles := (writeHeader_devOnly s num).tiles_eq

theorem wakeDies_tiles (s : State) (pkg part : Nat) : (wakeDies s pkg part).tiles = s.tiles := by
  rw [(wakeDies_onlyDue s pkg part).1]

theorem graphGo_tiles (s : State) (num : Nat) : (graphGo s num).tiles = s.tiles := by
  unfold graphGo
  split
  · rfl
  · split
    · rfl
    · split
      · split
        · exact emitOnce_tiles _ _
        · rfl
      · exact (schedWrite_devOnly _ _ _ _ _).tiles_eq

theorem launchGo_tiles (s : State) (num : Nat) : (launchGo s num).tiles = s.tiles := by
  unfold launchGo
  split
  · rfl
  · split
    · rfl
    · dsimp only
      split
      · exact (graphGo_tiles _ _).trans ((wakeDies_tiles _ _ _).trans (writeHeader_tiles _ _))
      · exact (wakeDies_tiles _ _ _).trans (writeHeader_tiles _ _)

theorem enqueueLaunch_tiles (s : State) (job pkg addr : Nat) (graph : Option (Nat × Nat)) :
    (enqueueLaunch s job pkg addr graph).tiles = s.tiles := by
  cases hr : schedRead (freshNum s).2 pkg (s.jobPart job pkg) addr 128 with
  | error x =>
    have hd := schedRead_devOnly (freshNum s).2 pkg (s.jobPart job pkg) addr 128
    rw [hr] at hd
    rw [enqueueLaunch_unread hr]
    exact (launchGo_tiles _ _).trans hd.tiles_eq
  | ok x =>
    have hd := schedRead_ok hr
    rw [enqueueLaunch_read hr]
    split
    · exact (launchGo_tiles _ _).trans hd.tiles_eq
    · exact (wakeDies_tiles _ _ _).trans ((writeHeader_tiles _ _).trans hd.tiles_eq)

theorem acceptGraph_tiles (s : State) (job pkg addr : Nat) : (acceptGraph s job pkg addr).tiles = s.tiles := by
  unfold acceptGraph
  dsimp only [freshNum]
  split
  next u e => exact readGraph_error e
  next h b u e =>
    have hu : u.tiles = s.tiles := readGraph_ok e
    split
    · exact (graphGo_tiles _ _).trans ((schedWrite_devOnly _ _ _ _ _).tiles_eq.trans hu)
    · split
      · exact (schedWrite_devOnly _ _ _ _ _).tiles_eq.trans hu
      · exact hu

theorem startPhase_tiles (s : State) (num pkg : Nat) : (startPhase s num pkg).tiles = s.tiles := by
  unfold startPhase
  split
  · rfl
  next j _ =>
    dsimp only [freshNum]
    generalize hw : State.modJob _ num pkg _ = u
    have hu : u.tiles = s.tiles := by
      rw [← hw]
      rfl
    clear hw
    split
    · exact hu
    · have h1 := schedRead_devOnly u pkg j.part (j.phaseva + 16 * j.phase) 16
      split
      next e he =>
        rw [he] at h1
        exact h1.tiles_eq.trans hu
      next e v he =>
        have h1 := (schedRead_ok he).tiles_eq.trans hu
        split
        · exact h1
        · have h2 := schedRead_devOnly v pkg j.part (leNat (e.take 8)) (8 * leNat ((e.drop 8).take 2))
          split
          next x hx =>
            rw [hx] at h2
            exact h2.tiles_eq.trans h1
          next b w hx =>
            refine (foldl_tiles (fun s i => ?_) _ _).trans ((schedRead_ok hx).tiles_eq.trans h1)
            split
            · exact acceptGraph_tiles _ _ _ _
            · exact enqueueLaunch_tiles _ _ _ _ _

theorem endLeases_tiles (s : State) (pkg : Nat) (f : Lease → Bool) : (endLeases s pkg f).tiles = s.tiles :=
  foldl_tiles (f := fun s (x : Lease) => returnLanes s pkg x.num (fun _ => true)) (fun _ _ => rfl) _ s

theorem endJob_tiles (s : State) (j : Job) : (endJob s j).tiles = s.tiles := endLeases_tiles _ _ _

theorem jobGo_tiles (n : Nat) (s : State) (num pkg : Nat) : (jobGo n s num pkg).tiles = s.tiles := by
  induction n generalizing s with
  | zero => rfl
  | succ n ih =>
    unfold jobGo
    split
    · rfl
    next j _ =>
      split
      · rfl
      · extract_lets st u v j2 w
        have hv : w.tiles = s.tiles := (blackBox_devOnly u pkg _ _ _).tiles_eq
        split
        · exact (endJob_tiles _ _).trans hv
        · exact (ih _).trans ((startPhase_tiles _ _ _).trans hv)

theorem advance_tiles (s : State) : (advance s).tiles = s.tiles := foldl_tiles (fun _ _ => jobGo_tiles _ _ _ _) _ _

theorem countTask_tiles (s : State) (num n code discard : Nat) : (countTask s num n code discard).tiles = s.tiles :=
  (advance_tiles _).trans ((launchGo_tiles _ _).trans (writeHeader_tiles _ _))

theorem setOwners_tiles (s : State) (pkg part spill owner : Nat) : (setOwners s pkg part spill owner).tiles = s.tiles := by
  refine foldl_tiles (fun s k => ?_) _ _
  split <;> rfl

/-! ## The record of a task that has ended -/

theorem nget_map {α : Type} (f : Nat → α → α) (m : NMap α) (k : Nat) :
    nget (m.map (fun e => (e.1, f e.1 e.2))) k = (nget m k).map (f k) := by
  induction m with
  | nil => rfl
  | cons e m ih =>
    obtain ⟨a, v⟩ := e
    by_cases h : a = k
    · subst h
      simp [nget]
    · simp [nget, h, ih]

/-- What `dropTr` leaves of a tile. -/
def dropTile (s : State) (pkg part lo hi r : Nat) (t : Tile) : Tile :=
  if pkgOf r = pkg then
    { t with tr := t.tr.filter (fun u => !u.meets part lo hi),
             reqs := t.reqs.map (fun q =>
               if !q.sent && invMeets s pkg part lo hi r q.req then { q with req := { q.req with vault := 0 } } else q) }
  else t

theorem dropTile_fenced (s : State) (pkg part lo hi r : Nat) (t : Tile) : (dropTile s pkg part lo hi r t).fenced = t.fenced := by
  unfold dropTile
  split <;> rfl

theorem dropTr_tiles (s : State) (pkg part lo hi : Nat) :
    (dropTr s pkg part lo hi).tiles = s.tiles.map (fun e => (e.1, dropTile s pkg part lo hi e.1 e.2)) := by
  unfold dropTr
  refine List.map_congr_left fun e _ => ?_
  unfold dropTile
  split <;> rfl

theorem dropTr_fenceKept (s : State) (pkg part lo hi : Nat) : FenceKept s (dropTr s pkg part lo hi) := by
  intro q hq
  rw [State.tile, ngetD] at hq ⊢
  rw [dropTr_tiles, nget_map]
  cases h : nget s.tiles q with
  | none =>
    rw [h] at hq
    exact hq
  | some t =>
    rw [h] at hq
    exact (dropTile_fenced s pkg part lo hi q t).trans hq

theorem recordEnd_fenceKept (s : State) (r : Nat) (k : Task) (rg : Regs) (e : Ending) (discard : Nat) :
    FenceKept s (recordEnd s r k rg e discard) := by
  refine .trans ?_ (fenceKept_of_tiles (countTask_tiles _ _ _ _ _))
  refine .trans ?_ (schedWrite_devOnly _ _ _ _ _).fenceKept
  refine .trans ?_ (dropTr_fenceKept _ _ _ _ _)
  exact fenceKept_of_tiles (setOwners_tiles _ _ _ _ _)

theorem endHalf_fenceKept (s : State) (r : Nat) (k : Task) (rg : Regs) (e : Ending) (discard : Nat) :
    FenceKept s (endHalf s r k rg e discard) := by
  unfold endHalf
  split
  · exact recordEnd_fenceKept _ _ _ _ _ _
  · split
    · exact fenceKept_of_tiles rfl
    · refine .trans ?_ (recordEnd_fenceKept _ _ _ _ _ _)
      exact fenceKept_of_tiles rfl

end Sys2Proof.Machine
end

section
/-! PROOFS. The steps that end a task keep the fences of tiles (R30, R296, R314). -/

namespace Sys2Proof.Machine

/-! ## Sends, receives and pulls -/

theorem finSends_fenceKept (s : State) (r p : Nat) : FenceKept s (finSends s r p) := by
  unfold finSends
  refine .trans (modPlane_fenceKept s r p Plane.finSends) (foldl_fenceKept (fun s d => ?_) _ _)
  split
  · exact FenceKept.refl s
  · exact emitOnce_fenceKept s _

theorem withSend_fenceKept (s : State) (r id : Nat) (f : Send → Send) : FenceKept s (withSend s r id f) := by
  unfold withSend
  split
  · dsimp only
    split
    · refine .trans ?_ (finSends_fenceKept _ _ _)
      refine .trans ?_ (modPlane_fenceKept _ _ _ _)
      exact .trans (modPlane_fenceKept s r _ _) (finSends_fenceKept _ _ _)
    · exact .trans (modPlane_fenceKept s r _ _) (finSends_fenceKept _ _ _)
  · exact fenceKept_of_tiles rfl

theorem onSend_fenceKept {s : State} (r p id : Nat) {f : State → Send → State} (h : ∀ sd, FenceKept s (f s sd)) :
    FenceKept s (onSend s r p id f) := by
  unfold onSend
  split
  · exact h _
  · exact FenceKept.refl s

theorem emitAbandon_fenceKept (s : State) (r p : Nat) (sd : Send) (c : SendCopy) : FenceKept s (emitAbandon s r p sd c) := by
  unfold emitAbandon
  split
  · exact FenceKept.refl s
  · exact emitNet_fenceKept s _ _ _ _

/-- The abandoned numbers of a send that does not go. -/
theorem abandonCopies_fenceKept (s : State) (r p : Nat) (sd : Send) : FenceKept s
    (sd.copies.foldl (fun s c => if sd.numbered && c.fin.isNone then emitAbandon s r p sd c else s) s) := by
  refine foldl_fenceKept (fun s c => ?_) _ _
  split
  · exact emitAbandon_fenceKept s r p sd c
  · exact FenceKept.refl s

theorem tsSeen_fenceKept (s : State) (r path a n : Nat) : FenceKept s (tsSeen s r path a n) := by
  unfold tsSeen
  split
  · exact FenceKept.refl s
  · exact modTile_fenceKept s r _

theorem captureSend_fenceKept (s : State) (r p : Nat) (sd : Send) : FenceKept s (captureSend s r p sd) := by
  unfold captureSend
  split
  · exact .trans (abandonCopies_fenceKept s r p sd) (withSend_fenceKept _ _ _ _)
  · exact FenceKept.refl s
  · exact .trans (tsSeen_fenceKept s r _ _ _) (modPlane_fenceKept _ _ _ _)

theorem transmit_fenceKept (s : State) (r p : Nat) (sd : Send) : FenceKept s (transmit s r p sd) := by
  unfold transmit
  split
  · exact FenceKept.refl s
  · refine .trans ?_ (modPlane_fenceKept _ r p _)
    refine foldl_fst_fenceKept (fun x c => ?_) _ (s, _)
    split
    · exact emitNet_fenceKept _ _ _ _ _
    · exact FenceKept.refl _

theorem pumpSend_fenceKept (s : State) (r p id : Nat) : FenceKept s (pumpSend s r p id) := by
  unfold pumpSend
  refine .trans (onSend_fenceKept r p id fun sd => ?_) (onSend_fenceKept r p id fun sd => ?_)
  · split
    · exact captureSend_fenceKept _ _ _ _
    · exact FenceKept.refl _
  · split
    · exact FenceKept.refl _
    · exact transmit_fenceKept _ _ _ _

theorem pumpList_fenceKept (r p : Nat) (l : List Nat) (held : Bool) (s : State) : FenceKept s (pumpList r p l held s) := by
  induction l generalizing held s with
  | nil => exact FenceKept.refl s
  | cons id l ih =>
    refine .trans ?_ (ih _ _)
    split
    · exact FenceKept.refl s
    · exact pumpSend_fenceKept s r p id

theorem numberSend_fenceKept (s : State) (r p : Nat) (sd : Send) : FenceKept s (numberSend s r p sd) := by
  unfold numberSend
  refine .trans ?_ (withSend_fenceKept _ _ _ _)
  refine foldl_fst_fenceKept (fun x c => ?_) _ (s, _)
  split
  · exact FenceKept.refl _
  · split
    · exact FenceKept.refl _
    · split
      · exact FenceKept.refl _
      · exact fenceKept_of_tiles rfl

theorem numberSends_fenceKept (s : State) (r p : Nat) : FenceKept s (numberSends s r p) := by
  unfold numberSends
  split
  · exact FenceKept.refl s
  · exact foldl_fenceKept (fun s sd => numberSend_fenceKept s r p sd) _ _

theorem pumpSends_fenceKept (s : State) (r p : Nat) : FenceKept s (pumpSends s r p) := by
  unfold pumpSends
  refine .trans ?_ (finSends_fenceKept _ _ _)
  exact .trans (numberSends_fenceKept s r p) (pumpList_fenceKept _ _ _ _ _)

theorem endRecv_fenceKept (s : State) (r p : Nat) (e : Recv) (st : Nat) : FenceKept s (endRecv s r p e st) :=
  modPlane_fenceKept s r p _

theorem cancelSend_fenceKept (s : State) (r p sid fc : Nat) : FenceKept s (cancelSend s r p sid fc) :=
  onSend_fenceKept r p sid fun sd => .trans (abandonCopies_fenceKept s r p sd) (withSend_fenceKept _ _ _ _)

theorem pullEnds_fenceKept (s : State) (src r p : Nat) (d : Delivery) (st fc : Nat) : FenceKept s (pullEnds s src r p d st fc) :=
  .trans (modPlane_fenceKept s r p _) (emitNet_fenceKept _ _ _ _ _)

theorem pullFails_fenceKept (s : State) (q : Pull) (st fc : Nat) : FenceKept s (pullFails s q st fc) := by
  unfold pullFails
  split
  · exact FenceKept.refl s
  · split
    · exact FenceKept.refl s
    · dsimp only
      split
      · exact pullEnds_fenceKept _ _ _ _ _ _ _
      · split
        · exact .trans (pullEnds_fenceKept _ _ _ _ _ _ _) (pullEnds_fenceKept _ _ _ _ _ _ _)
        · exact pullEnds_fenceKept _ _ _ _ _ _ _

/-! ## What a task leaves behind -/

theorem abandonSeq_fenceKept (s : State) (r : Nat) (m : Msg) : FenceKept s (abandonSeq s r m) := by
  unfold abandonSeq
  split
  · exact FenceKept.refl s
  · exact fenceKept_of_tiles rfl

theorem noticeDiscard_fenceKept (s : State) (r : Nat) (m : Msg) : FenceKept s (noticeDiscard s r m) := by
  unfold noticeDiscard
  split
  · exact FenceKept.refl s
  · exact emitNet_fenceKept s _ _ _ _

theorem discardUq_fenceKept (s : State) (r : Nat) (uq : List Uq) (sq : List SpillE) (notice : Bool) :
    FenceKept s (discardUq s r uq sq notice) := by
  unfold discardUq
  refine .trans ?_ (foldl_fenceKept (fun s q => pullFails_fenceKept s q _ _) _ _)
  refine .trans (foldl_fenceKept (fun s u => ?_) _ _) (foldl_fenceKept (fun s m => ?_) _ _)
  · have h : FenceKept s (if u.admitted then s else abandonSeq s r u.hdr) := by
      split
      · exact FenceKept.refl s
      · exact abandonSeq_fenceKept s r _
    dsimp only
    split
    · exact .trans h (noticeDiscard_fenceKept _ _ _)
    · exact h
  · dsimp only
    split
    · exact .trans (abandonSeq_fenceKept s r m) (noticeDiscard_fenceKept _ _ _)
    · exact abandonSeq_fenceKept s r m

theorem dropUnsent_fenceKept (s : State) (r p : Nat) : FenceKept s (dropUnsent s r p) := by
  refine foldl_fenceKept (fun s sd => ?_) _ _
  split
  · exact cancelSend_fenceKept s r p _ _
  · exact FenceKept.refl s

theorem dropUnpaired_fenceKept (s : State) (r p : Nat) : FenceKept s (dropUnpaired s r p) :=
  .trans (modPlane_fenceKept s r p _) (modTile_fenceKept _ r _)

theorem mxFlag_fenceKept (s : State) (r p : Nat) (e : Mx) (st fc length : Nat) : FenceKept s (mxFlag s r p e st fc length) := by
  unfold mxFlag
  split
  · exact modPlane_fenceKept s r p _
  · exact FenceKept.refl s

theorem mxCancel_fenceKept (s : State) (r p : Nat) (e : Mx) (fc : Nat) : FenceKept s (mxCancel s r p e fc) := by
  have h : FenceKept s (mxFlag (mxSettled (s.modPlane r p fun pl => { pl with mx := pl.mx.filter (fun x => decide (x.id ≠ e.id)) }) r)
      r p e stCANCELLED fc 0) :=
    .trans (modPlane_fenceKept s r p _) (.trans (modTile_fenceKept _ r _) (mxFlag_fenceKept _ _ _ _ _ _ _))
  unfold mxCancel
  dsimp only
  split
  · exact .trans h (.trans (cancelSend_fenceKept _ _ _ _ _) (pumpSends_fenceKept _ _ _))
  · exact h

theorem endFollow_fenceKept (s : State) (r p : Nat) (c : CopyCmd) (fc : Nat) : FenceKept s (endFollow s r p c fc) := by
  unfold endFollow
  split
  · exact modPlane_fenceKept s r p _
  · exact FenceKept.refl s

theorem cancelCopy_fenceKept (s : State) (r p k : Nat) (c : CopyCmd) : FenceKept s (cancelCopy s r p k c) := by
  unfold cancelCopy
  split
  · exact FenceKept.refl s
  · exact modPlane_fenceKept s r p _

theorem cancelQueued_fenceKept (s : State) (r p : Nat) : FenceKept s (cancelQueued s r p) := by
  unfold cancelQueued
  refine .trans ?_ (foldl_fenceKept (fun s u => ?_) _ _)
  · refine .trans ?_ (modPlane_fenceKept _ r p _)
    refine .trans ?_ (foldl_fenceKept (fun s e => ?_) _ _)
    · refine .trans ?_ (modPlane_fenceKept _ r p _)
      refine foldl_fenceKept (fun s k => foldl_fenceKept (fun s c => ?_) _ _) _ _
      dsimp only
      split
      · exact endFollow_fenceKept s r p c 0
      · exact .trans (endFollow_fenceKept s r p c 0) (cancelCopy_fenceKept _ r p k c)
    · split
      · exact FenceKept.refl s
      · exact mxCancel_fenceKept s r p e 0
  · split
    · exact .trans (cancelCopy_fenceKept s r p _ _) (endFollow_fenceKept _ r p _ 0)
    · exact mxCancel_fenceKept s r p _ 0

/-! ## The speculation of a plane that ends -/

theorem pushDual_fenceKept (s : State) (r p : Nat) (op : DualOp) : FenceKept s (pushDual s r p op) :=
  .trans (modTile_fenceKept s r _) (emitOnce_fenceKept _ _)

theorem arriveAt_fenceKept (s : State) (r p n : Nat) : FenceKept s (arriveAt s r p n) := by
  unfold arriveAt
  extract_lets pl ph w u v
  have hu : FenceKept s u := modPlane_fenceKept s r p _
  have hv : FenceKept s v := by
    dsimp only [v]
    split
    · exact .trans hu (pushDual_fenceKept u r p _)
    · exact hu
  split
  · exact hv
  · refine .trans hv ?_
    exact .trans (modPlane_fenceKept v r p _) (emitOnce_fenceKept _ _)

theorem lateArrives_fenceKept (s : State) (r p : Nat) : FenceKept s (lateArrives s r p) :=
  .trans (modPlane_fenceKept s r p _) (foldl_fenceKept (fun s n => arriveAt_fenceKept s r p n) _ _)

theorem pumpRelease_fenceKept (s : State) (r p : Nat) : FenceKept s (pumpRelease s r p) := by
  obtain ⟨u, f, hu, e, -⟩ := pumpRelease_eq s r p
  rw [e]
  exact .trans hu.fenceKept (modPlane_fenceKept u r p f)

theorem rollbackOne_fenceKept (s : State) (r p : Nat) (c : Bool) : FenceKept s (rollbackOne s r p c) := by
  unfold rollbackOne
  split
  · exact FenceKept.refl s
  · split
    · exact FenceKept.refl s
    · refine .trans ?_ (mxKick_onlyDue _ r p).fenceKept
      refine .trans ?_ (pumpRelease_fenceKept _ r p)
      refine .trans ?_ (lateArrives_fenceKept _ r p)
      exact modTile_fenceKept s r _ (fun t => Tile.setPl_fenced t p _)

theorem suspended_fenceKept {s t : State} (h : FenceKept s t) (l : List Susp) : FenceKept s { t with suspended := l } := h

theorem rejoin_fenceKept (s : State) (r p : Nat) : FenceKept s (rejoin s r p) := by
  unfold rejoin
  split
  · exact FenceKept.refl s
  · exact suspended_fenceKept (modPlane_fenceKept s r p _) _

/-! ## The decision after a task -/

theorem monitorEntry_fenceKept (s : State) (r p : Nat) (t : TrapInfo) (start npc : Nat) :
    FenceKept s (monitorEntry s r p t start npc) := modTile_fenceKept s r _ (fun t => Tile.setPl_fenced t p _)

theorem startToken_fenceKept (s : State) (r p : Nat) : FenceKept s (startToken s r p) := by
  unfold startToken
  dsimp only
  split
  · split
    · refine .trans ?_ (monitorEntry_fenceKept _ r p _ _ _)
      exact .trans (modPlane_fenceKept s r p _) (modPlane_fenceKept _ r p _)
    · exact modPlane_fenceKept s r p _
  · exact FenceKept.refl s

theorem Tile.grant_fenced (t : Tile) (p : Nat) : (t.grant p).fenced = t.fenced := Tile.setPl_fenced t p _

theorem Tile.newWindow_fenced (t : Tile) : t.newWindow.fenced = t.fenced := rfl

theorem decideTile_fenceKept (s : State) (r : Nat) (last : Option Nat) : FenceKept s (decideTile s r last) := by
  unfold decideTile
  dsimp only
  split
  · exact FenceKept.refl s
  · split
    · exact .trans (setTile_fenceKept s (Tile.grant_fenced _ _)) (startToken_fenceKept _ _ _)
    · split
      · exact setTile_fenceKept s rfl
      · split
        · refine .trans (setTile_fenceKept s ?_) (startToken_fenceKept _ _ _)
          rw [Tile.grant_fenced, Tile.newWindow_fenced]
        · exact FenceKept.refl s

/-! ## The end of a task -/

theorem endPlane_fenceKept (s : State) (r p : Nat) (e : Ending) : FenceKept s (endPlane s r p e) := by
  unfold endPlane
  extract_lets down ran s1 pl n s2 s3 s4 s5 s6 s7 s8 s9
  have h1 : FenceKept s s1 := .trans (rollbackOne_fenceKept s r p true) (rejoin_fenceKept _ r p)
  have h2 : FenceKept s s2 := by
    dsimp only [s2]
    split
    · exact h1
    · refine .trans h1 ?_
      exact .trans (cancelQueued_fenceKept s1 r p) (.trans (dropUnsent_fenceKept _ r p) (dropUnpaired_fenceKept _ r p))
  have h3 : FenceKept s s3 := .trans h2 (discardUq_fenceKept _ _ _ _ _)
  have h4 : FenceKept s s4 := .trans h3 (foldl_fenceKept (fun s q => endRecv_fenceKept s r p q _) _ _)
  have h5 : FenceKept s s5 := .trans h4 (modPlane_fenceKept _ r p _)
  have h6 : FenceKept s s6 := by
    dsimp only [s6]
    split
    · exact .trans h5 (.trans (modPlane_fenceKept _ r p _) (modTile_fenceKept _ r _))
    · exact h5
  have h7 : FenceKept s s7 := .trans h6 (modTile_fenceKept _ r _)
  have h8 : FenceKept s s8 := .trans h7 (endHalf_fenceKept _ _ _ _ _ _)
  have h9 : FenceKept s s9 := .trans h8 (emitOnce_fenceKept _ _)
  split
  · exact .trans h9 (decideTile_fenceKept _ _ _)
  · exact h9

theorem cancelPlane_fenceKept (s : State) (r p : Nat) : FenceKept s (cancelPlane s r p) := by
  unfold cancelPlane
  dsimp only
  split
  · exact modPlane_fenceKept s r p _
  · exact endPlane_fenceKept s r p _

theorem endSusp_fenceKept (s : State) (u : Susp) (e : Ending) : FenceKept s (endSusp s u e) := by
  unfold endSusp
  refine .trans ?_ (emitOnce_fenceKept _ _)
  refine .trans ?_ (endHalf_fenceKept _ _ _ _ _ _)
  refine .trans ?_ (discardUq_fenceKept _ _ _ _ _)
  exact fenceKept_of_tiles rfl

theorem endPartner_fenceKept (s : State) (k : Task) : FenceKept s (endPartner s k) := by
  unfold endPartner
  split
  · split
    · exact FenceKept.refl s
    · exact cancelPlane_fenceKept s _ _
  · split
    · exact endSusp_fenceKept s _ _
    · exact FenceKept.refl s

theorem endTask_fenceKept (s : State) (r p : Nat) (e : Ending) : FenceKept s (endTask s r p e) := by
  unfold endTask
  dsimp only
  split
  · exact .trans (endPlane_fenceKept s r p e) (endPartner_fenceKept _ _)
  · exact endPlane_fenceKept s r p e

theorem unload_fenceKept (s : State) (r p : Nat) (u : Susp) : FenceKept s (unload s r p u) := by
  unfold unload freePlane
  refine .trans ?_ (emitOnce_fenceKept _ _)
  refine .trans ?_ (modPlane_fenceKept _ r p _)
  exact fenceKept_of_tiles rfl

theorem evict_fenceKept (s : State) (r p : Nat) (e : Ending) : FenceKept s (evict s r p e) := by
  unfold evict
  extract_lets pl
  split
  · split
    · exact unload_fenceKept s r p _
    · exact endTask_fenceKept s r p _
  · exact FenceKept.refl s

end Sys2Proof.Machine
end

section
/-! PROOFS. The asynchronous events of a tile (R35, R46, R84, R289, R292, R298, R300, R313, R314, R339). -/

namespace Sys2Proof.Machine

/-! ## Tiles without a speculation -/

section
variable {s t : State} {r : Nat}

theorem Tile.plane0_eq (s : State) (r : Nat) : (s.tile r).plane0 = s.plane r 0 := rfl

theorem Tile.plane1_eq (s : State) (r : Nat) : (s.tile r).plane1 = s.plane r 1 := rfl

/-- Which plane holds the other copy of a task says the planes' tasks and states alone. -/
theorem partnerOf_congr (h : ∀ x o, (t.plane x o).task = (s.plane x o).task ∧ (t.plane x o).state = (s.plane x o).state) (p : Nat) :
    partnerOf t r p = partnerOf s r p := by
  have hp (q a b : Nat) : planeOfTask (t.tile q) a b = planeOfTask (s.tile q) a b := by
    simp only [planeOfTask, Tile.plane0_eq, Tile.plane1_eq, (h q 0).1, (h q 0).2, (h q 1).1, (h q 1).2]
    rfl
  rw [partnerOf, (h r p).1, hp]
  rfl

theorem noSpecAt_congr (hn : NoSpecAt s r) (h : ∀ x o, (t.plane x o).spec = (s.plane x o).spec ∧
    (t.plane x o).task = (s.plane x o).task ∧ (t.plane x o).state = (s.plane x o).state) : NoSpecAt t r := by
  intro q hq
  obtain ⟨h1, h2⟩ := hn q hq
  refine ⟨(h r q).1.trans h1, fun x hx => (h x.1 x.2).1.trans (h2 x ?_)⟩
  rw [← hx]
  exact (partnerOf_congr (fun x o => (h x o).2) q).symm

theorem NoSpecAt.drains (h : NoSpecAt s r) : (s.tile r).drains = false := by
  have h0 := (h 0 (by omega)).1
  have h1 := (h 1 (by omega)).1
  simp [Tile.drains, Plane.drains, Tile.plane0_eq, Tile.plane1_eq, h0, h1]

/-- A change of a plane that leaves its speculation, its task and its state. -/
theorem NoSpecAt.modPlane (h : NoSpecAt s r) (x p : Nat) {f : Plane → Plane}
    (hf : ∀ pl, (f pl).spec = pl.spec ∧ (f pl).task = pl.task ∧ (f pl).state = pl.state) : NoSpecAt (s.modPlane x p f) r := by
  refine noSpecAt_congr h fun q o => ?_
  rw [modPlane_plane_ite]
  split
  next e =>
    obtain ⟨rfl, e⟩ := e
    have ho : s.plane q o = s.plane q p := by simp only [State.plane, Tile.pl, e]
    rw [ho]
    exact hf _
  · exact ⟨rfl, rfl, rfl⟩

end

theorem monitorEntry_plane (s : State) (r p : Nat) (t : TrapInfo) (start npc : Nat) :
    (monitorEntry s r p t start npc).plane r p = { s.plane r p with state := 4, readyAll := false } := by
  unfold monitorEntry
  rw [State.plane, State.modTile_tile]
  by_cases h : p = 0 <;> simp [Tile.pl, Tile.setPl, State.plane, h]

theorem Tile.setPl_dualDue (t : Tile) (p : Nat) (x : Plane) : (t.setPl p x).dualDue = t.dualDue := by
  by_cases h : p = 0 <;> simp [Tile.setPl, h]

theorem monitorEntry_dualDue (s : State) (r p : Nat) (t : TrapInfo) (start npc : Nat) :
    ((monitorEntry s r p t start npc).tile r).dualDue = (s.tile r).dualDue := by
  rw [monitorEntry, State.modTile_tile]
  exact Tile.setPl_dualDue _ _ _

/-- A change of a tile that leaves its planes. -/
theorem modTile_plane_eq (s : State) (r : Nat) {f : Tile → Tile} (h : ∀ t p, (f t).pl p = t.pl p) (x o : Nat) :
    (s.modTile r f).plane x o = s.plane x o := by
  by_cases e : x = r
  · subst e
    rw [State.plane, State.modTile_tile, h, State.plane]
  · rw [State.plane, State.modTile_tile_ne _ _ e, State.plane]

/-! ## DUAL pairs -/

section
variable {s : State} {r p : Nat}

theorem exec_dualTimeout_due {q kind : Nat} (h : (Instr.dualTimeout r q).wf = true) (hd : (s.tile r).dualDue = some (p, kind)) :
    exec (.dualTimeout r q) s = .next (takeMismatch s r p kind) := by
  have e : exec (.dualTimeout r q) s = execDualTimeout r q s := rfl
  rw [e, execDualTimeout, runEvent_ok h]
  simp only [hd]

theorem exec_dualTimeout_none (h : (Instr.dualTimeout r p).wf = true) (hd : (s.tile r).dualDue = none) :
    exec (.dualTimeout r p) s = .next (dualTimeouts (tidyDual (pumpDual s r p) r p) r p) := by
  have e : exec (.dualTimeout r p) s = execDualTimeout r p s := rfl
  rw [e, execDualTimeout, runEvent_ok h]
  simp only [hd]

/-- A mismatch that is due is taken: nothing else holds the tile, so the monitor is entered. -/
theorem takeMismatch_spec (kind : Nat) (hf : (s.tile r).fenced = false) (hm : (s.tile r).monitor = false) (hn : NoSpecAt s r)
    (hs : (s.plane r p).state = 3)
    (hb : ∀ n, (s.tile r).running = some n → (s.plane r n).regs.hbcnt < (s.plane r n).regs.hbiv) :
    MonitorEntered (takeMismatch s r p kind) r p 0x0D (BitVec.ofNat 64 kind) (s.plane r p).resumePoint ∧
      ((takeMismatch s r p kind).tile r).dualDue = none ∧ ((takeMismatch s r p kind).plane r p).regs = (s.plane r p).regs ∧
      SameMem s (takeMismatch s r p kind) := by
  have hmiss : ((s.tile r).running.any fun q => ((s.tile r).pl q).missed) = false := by
    rw [Option.any_eq_false]
    intro n e
    simpa [Plane.missed, State.plane] using hb n e
  have hpl := modTile_plane_eq s r (f := fun t => { t with dualDue := none }) (fun _ _ => rfl)
  have hn2 : NoSpecAt (s.modTile r (fun t => { t with dualDue := none })) r :=
    noSpecAt_congr hn fun x o => by rw [hpl]; exact ⟨rfl, rfl, rfl⟩
  have e : ∃ npc, takeMismatch s r p kind = monitorEntry ((s.modTile r (fun t => { t with dualDue := none })).modPlane r p
      (fun pl => { pl with exiting := none, yieldWait := false, plain := none })) r p
      { cause := cDUALMISMATCH, slot := 3, info := BitVec.ofNat 64 kind } (s.plane r p).resumePoint npc := by
    unfold takeMismatch
    simp only [hf, hm, hmiss, hn.drains, Bool.or_self, Bool.false_eq_true, if_false, rollPlanes_of_noSpecAt hn2, hpl, hs, if_true]
    exact ⟨_, rfl⟩
  obtain ⟨npc, e⟩ := e
  rw [e]
  refine ⟨monitorEntry_entered _ _ _ _ _ _, ?_, ?_, fun _ => rfl⟩
  · rw [monitorEntry_dualDue, State.modPlane_tile, Tile.setPl_dualDue, State.modTile_tile]
  · rw [monitorEntry_plane, State.modPlane_plane, hpl]

end

theorem queueTest_tiles (s : State) (pkg e : Nat) : (queueTest s pkg e).tiles = s.tiles := by
  unfold queueTest
  split
  · rfl
  · split
    · split
      · rfl
      · exact emitOnce_tiles _ _
    · split <;> rfl

theorem noteMismatch_tiles (s : State) (r r2 kind : Nat) : (noteMismatch s r r2 kind).tiles = s.tiles := by
  refine (blackBox_devOnly _ _ _ _ _).tiles_eq.trans ?_
  refine (queueTest_tiles _ _ _).trans ?_
  exact queueTest_tiles _ _ _

theorem noteMismatch_tile (s : State) (r r2 kind x : Nat) : (noteMismatch s r r2 kind).tile x = s.tile x := by
  rw [State.tile, noteMismatch_tiles, State.tile]

theorem mismatchDue_due (s : State) (r p kind : Nat) : ((mismatchDue s r p kind).tile r).dualDue.isSome = true := by
  rw [mismatchDue, State.modTile_tile]
  rfl

theorem mismatchDue_tile_ne (s : State) {r x : Nat} (p kind : Nat) (h : x ≠ r) : (mismatchDue s r p kind).tile x = s.tile x :=
  State.modTile_tile_ne _ _ h

theorem dualMismatch_spec (s : State) (r p r2 p2 kind : Nat) : ((dualMismatch s r p r2 p2 kind).tile r).dualDue.isSome = true ∧
    ((dualMismatch s r p r2 p2 kind).tile r2).dualDue.isSome = true ∧
    ∀ x, x ≠ r → x ≠ r2 → (dualMismatch s r p r2 p2 kind).tile x = s.tile x := by
  simp only [dualMismatch, noteMismatch_tile]
  refine ⟨?_, mismatchDue_due _ _ _ _, fun x h1 h2 => ?_⟩
  · by_cases h : r = r2
    · subst h
      exact mismatchDue_due _ _ _ _
    · rw [mismatchDue_tile_ne _ _ _ h]
      exact mismatchDue_due _ _ _ _
  · rw [mismatchDue_tile_ne _ _ _ h2, mismatchDue_tile_ne _ _ _ h1]

/-- An operation that stood alone for 4,096 clk, of a task whose partner is gone. -/
theorem dualTimeouts_left {s : State} {r p : Nat} {e : (Nat × Nat) × Nat × DualOp} {l : List ((Nat × Nat) × Nat × DualOp)}
    (hp : partnerOf s r p = none) (hd : (s.plane r p).task.dual = true) (ho : partnerOut s r p = false) (hw : dualWaiting s r p = e :: l)
    (ht : e.2.1 + clkNs s (pkgOf r) 4096 < s.podTime) : ((dualTimeouts s r p).tile r).dualDue.isSome = true := by
  simp only [dualTimeouts, hp, hd, ho, hw, Bool.not_true, Bool.or_self, Bool.false_eq_true, if_false, if_pos ht, noteMismatch_tile]
  exact mismatchDue_due _ _ _ _

/-- An operation that stood alone for 4,096 clk, with the partner there. -/
theorem dualTimeouts_pair {s : State} {r p r2 p2 : Nat} {e : Nat × DualOp} (hp : partnerOf s r p = some (r2, p2))
    (he : e ∈ dualAlone s r p r2 p2) (ht : e.1 + clkNs s (pkgOf r) 4096 < s.podTime) :
    ((dualTimeouts s r p).tile r).dualDue.isSome = true ∧ ((dualTimeouts s r p).tile r2).dualDue.isSome = true := by
  have hf : ((dualAlone s r p r2 p2).find? fun e => decide (e.1 + clkNs s (pkgOf r) 4096 < s.podTime)).isSome = true :=
    List.find?_isSome.2 ⟨e, he, decide_eq_true ht⟩
  obtain ⟨x, hx⟩ := Option.isSome_iff_exists.1 hf
  simp only [dualTimeouts, hp, hx]
  split
  · obtain ⟨h1, h2, -⟩ := dualMismatch_spec s r p r2 p2 (dualKind s r p x.2)
    exact ⟨h1, h2⟩
  · obtain ⟨h1, h2, -⟩ := dualMismatch_spec s r2 p2 r p (dualKind s r p x.2)
    exact ⟨h2, h1⟩

/-! ## Heartbeat misses and monitor faults (R35, R289) -/

theorem columnLost_tiles (s : State) (pkg e : Nat) : (columnLost s pkg e).tiles = s.tiles := by
  refine foldl_tiles (fun s y => ?_) _ _
  dsimp only
  split
  · exact emitOnce_tiles _ _
  · rfl

theorem fenceEntry_tiles (s : State) (pkg e reason : Nat) : (fenceEntry s pkg e reason).tiles = s.tiles := by
  unfold fenceEntry
  split
  · rfl
  · extract_lets s1 s2 s3 s4 s5
    have h2 : s2.tiles = s.tiles := (blackBox_devOnly s1 _ _ _ _).tiles_eq
    have h3 : s3.tiles = s.tiles := by
      dsimp only [s3]
      split <;> exact h2
    have h4 : s4.tiles = s.tiles := by
      dsimp only [s4]
      split
      · exact (emitOnce_tiles _ _).trans h3
      · exact h3
    have h5 : s5.tiles = s.tiles := by
      dsimp only [s5]
      split
      · exact (columnLost_tiles _ _ _).trans h4
      · exact h4
    exact (checkReplace_devOnly s5 pkg).tiles_eq.trans h5

theorem fenceEntry_tile (s : State) (pkg e reason x : Nat) : (fenceEntry s pkg e reason).tile x = s.tile x := by
  rw [State.tile, fenceEntry_tiles, State.tile]

section
variable {s : State} {r p : Nat}

theorem exec_hbmiss_eq (h : (Instr.hbmiss r).wf = true) (hr : (s.tile r).running = some p) : exec (.hbmiss r) s = .next
    (if !(s.plane r p).missed || (s.tile r).monitor || (s.tile r).fenced || (s.tile r).drains then s
     else match partnerOf s r p with
       | some (r2, p2) => hbmissPair (hbmissAt s r p) r2 p2 (s.plane r p).regs.hbcnt
       | none => hbmissAt s r p) := by
  have e : exec (.hbmiss r) s = execHbmiss r s := rfl
  rw [e, execHbmiss, runEvent_ok h]
  simp only [hr]
  rfl

theorem exec_hbmiss_early (h : (Instr.hbmiss r).wf = true) (hr : (s.tile r).running = some p)
    (hb : (s.plane r p).regs.hbcnt < (s.plane r p).regs.hbiv) : exec (.hbmiss r) s = .next s := by
  rw [exec_hbmiss_eq h hr]
  simp [Plane.missed, hb]

theorem exec_hbmiss_missed (h : (Instr.hbmiss r).wf = true) (hr : (s.tile r).running = some p)
    (hb : (s.plane r p).regs.hbiv ≤ (s.plane r p).regs.hbcnt) (hm : (s.tile r).monitor = false) (hf : (s.tile r).fenced = false)
    (hn : NoSpecAt s r) : (partnerOf s r p = none → exec (.hbmiss r) s = .next (hbmissAt s r p)) ∧
      ∀ x, partnerOf s r p = some x → exec (.hbmiss r) s = .next (hbmissPair (hbmissAt s r p) x.1 x.2 (s.plane r p).regs.hbcnt) := by
  have e := exec_hbmiss_eq h hr
  have hmiss : (s.plane r p).missed = true := decide_eq_true hb
  simp only [hmiss, hm, hf, hn.drains, Bool.not_true, Bool.or_self, Bool.false_eq_true, if_false] at e
  refine ⟨fun hp => ?_, fun x hp => ?_⟩
  · rw [e, hp]
  · rw [e, hp]

theorem MonitorEntered.of_tile {u v : State} {c : Nat} {i : BitVec 64} {pc : Nat} (h : MonitorEntered u r p c i pc)
    (e : v.tile r = u.tile r) : MonitorEntered v r p c i pc := by
  rw [MonitorEntered, e]
  exact h

theorem hbmissAt_spec (hn : NoSpecAt s r) : ((hbmissAt s r p).tile r).fenced = true ∧ (hbmissAt s r p).Due (.fenceNotice r r) ∧
    MonitorEntered (hbmissAt s r p) r p 0x0E (BitVec.ofNat 64 (s.plane r p).regs.hbcnt) (s.plane r p).resumePoint := by
  unfold hbmissAt
  rw [rollPlanes_of_noSpecAt hn]
  extract_lets s1 hb pkg s2 s3 pc s4 s5 s6
  have h2 (x : Nat) : s2.tile x = s.tile x := (blackBox_devOnly s1 _ _ _ _).tile_eq x
  have h3 : s3.tile r = { s.tile r with fenced := true } := by
    rw [fenceEntry_tile, State.modTile_tile, h2]
  have hpc : pc = (s.plane r p).resumePoint := by
    dsimp only [pc, State.plane]
    rw [h3]
    rfl
  have h4 : (s4.tile r).fenced = true := modPlane_fenceKept s3 r p _ r (by rw [h3])
  have h5 : (s5.tile r).fenced = true := by
    dsimp only [s5]
    split
    · exact h4
    · exact evict_fenceKept s4 r _ _ r h4
  have h6 : (s6.tile r).fenced = true := monitorEntry_fenceKept s5 r p _ _ _ r h5
  refine ⟨emitOnce_fenceKept s6 _ r h6, emitOnce_due s6 _, ?_⟩
  refine .of_tile ?_ ((emitOnce_onlyDue s6 _).tile_eq r)
  rw [← hpc]
  exact monitorEntry_entered s5 r p _ pc _

theorem monitorFaultRest_due (s : State) (r : Nat) : (monitorFaultRest s r).Due (.fenceNotice r r) := emitOnce_due _ _

theorem monitorFault_tile (s : State) (r c : Nat) : (monitorFault s r c).tile r =
    { s.tile r with fenced := true, mfault := true, monitor := false, running := none } := by
  rw [monitorFault, (emitOnce_onlyDue _ _).tile_eq, State.modTile_tile, (blackBox_devOnly s _ _ _ _).tile_eq]

theorem exec_watchdog_eq (h : (Instr.monitorWatchdogExpiry r).wf = true) : exec (.monitorWatchdogExpiry r) s = .next
    (if (s.tile r).monitor then
       if (s.tile r).mwatch < 2 ^ 22 then s else monitorFaultRest (monitorFault s r (Config.watchdogCause s.tick)) r
     else if (s.tile r).mfault then monitorFaultRest s r
     else s) := by
  have e : exec (.monitorWatchdogExpiry r) s = execMonitorWatchdogExpiry r s := rfl
  rw [e, execMonitorWatchdogExpiry, runEvent_ok h]

end

/-! ## Pre-emptions (R298, R300) -/

section
variable {s : State} {r p : Nat}

theorem markPreempt_idle (hs : (s.plane r p).state = 0 ∨ 4 < (s.plane r p).state) : markPreempt s r p = s := by
  unfold markPreempt
  exact if_neg (by omega)

theorem markPreempt_eq (h1 : 1 ≤ (s.plane r p).state) (h4 : (s.plane r p).state ≤ 4) (hn : NoSpecAt s r) :
    markPreempt s r p = s.modPlane r p (fun pl => { pl with preempt := some (pkgOf r * 4096 + 0x511) }) := by
  unfold markPreempt
  dsimp only
  rw [if_pos ⟨h1, h4⟩]
  exact rollPlanes_of_noSpecAt (hn.modPlane r p fun _ => ⟨rfl, rfl, rfl⟩)

theorem exec_preemptInterrupt_some {x : Nat × Nat} (h : (Instr.preemptInterrupt r p).wf = true) (hx : partnerOf s r p = some x) :
    exec (.preemptInterrupt r p) s = .next (markPreempt (markPreempt s r p) x.1 x.2) := by
  have e : exec (.preemptInterrupt r p) s = execPreemptInterrupt r p s := rfl
  rw [e, execPreemptInterrupt, runEvent_ok h]
  simp only [hx]

theorem exec_preemptInterrupt_none (h : (Instr.preemptInterrupt r p).wf = true) (hx : partnerOf s r p = none) :
    exec (.preemptInterrupt r p) s = .next (markPreempt s r p) := by
  have e : exec (.preemptInterrupt r p) s = execPreemptInterrupt r p s := rfl
  rw [e, execPreemptInterrupt, runEvent_ok h]
  simp only [hx]

theorem exec_preempt_eq (h : (Instr.preempt r).wf = true) : exec (.preempt r) s = .next
    (if (s.tile r).monitor || (s.tile r).fenced then s
     else match (s.plane r 0).preemptDue, (s.plane r 1).preemptDue with
      | some b, _ => takePreempt s r 0 b
      | none, some b => takePreempt s r 1 b
      | none, none => s) := by
  have e : exec (.preempt r) s = execPreempt r s := rfl
  rw [e, execPreempt, runEvent_ok h]
  rfl

theorem exec_preempt_out (h : (Instr.preempt r).wf = true) (hb : (s.tile r).monitor = true ∨ (s.tile r).fenced = true) :
    exec (.preempt r) s = .next s := by
  rw [exec_preempt_eq h, if_pos (by simpa using hb)]

theorem exec_preempt_due {b : Nat} (h : (Instr.preempt r).wf = true) (hp : p < 2) (hm : (s.tile r).monitor = false)
    (hf : (s.tile r).fenced = false) (hb : (s.plane r p).preemptDue = some b) (h0 : p = 1 → (s.plane r 0).preemptDue = none) :
    exec (.preempt r) s = .next (takePreempt s r p b) := by
  rw [exec_preempt_eq h, if_neg (by simp [hm, hf])]
  obtain rfl | rfl : p = 0 ∨ p = 1 := by omega
  · rw [hb]
  · rw [h0 rfl, hb]

theorem takePreempt_spec (b : Nat) (hn : NoSpecAt s r) :
    MonitorEntered (takePreempt s r p b) r p 0x10 (BitVec.ofNat 64 b) (s.plane r p).resumePoint ∧
      ((takePreempt s r p b).plane r p).preempt = none ∧ ((takePreempt s r p b).plane r p).halted = true ∧
      ((takePreempt s r p b).plane r p).regs = (s.plane r p).regs ∧ SameMem s (takePreempt s r p b) := by
  have e : ∃ npc, takePreempt s r p b = monitorEntry (s.modPlane r p (fun pl =>
      { pl with preempt := none, halted := true, exiting := none, plain := none, token := false })) r p
      { cause := cPREEMPT, info := BitVec.ofNat 64 b } (s.plane r p).resumePoint npc := by
    unfold takePreempt
    simp only [hn.drains, Bool.false_eq_true, if_false, rollPlanes_of_noSpecAt hn]
    exact ⟨_, rfl⟩
  obtain ⟨npc, e⟩ := e
  rw [e]
  refine ⟨monitorEntry_entered _ _ _ _ _ _, ?_, ?_, ?_, fun _ => rfl⟩ <;> rw [monitorEntry_plane, State.modPlane_plane]

theorem preemptDue_none {pl : Plane} (h : pl.state = 1 ∨ pl.resumeKind = true) : pl.preemptDue = none := if_pos h

theorem preemptDue_some {pl : Plane} (h1 : pl.state ≠ 1) (h2 : pl.resumeKind = false) : pl.preemptDue = pl.preempt :=
  if_neg (by simp [h1, h2])

end

/-! ## Cancels (R313) -/

section
variable {s : State} {r p n : Nat}

theorem runsLaunch_iff (pl : Plane) (n : Nat) : runsLaunch pl n = true ↔ 1 ≤ pl.state ∧ pl.state ≤ 4 ∧ pl.task.launch = n :=
  decide_eq_true_iff

/-- The plane that holds the task: the one named, or the tile's other one. -/
theorem exec_cancelInterrupt_plane {q : Nat} (h : (Instr.cancelInterrupt r p n).wf = true)
    (hq : q = p ∨ q = 1 - p ∧ runsLaunch (s.plane r p) n = false) (hr : runsLaunch (s.plane r q) n = true) :
    exec (.cancelInterrupt r p n) s = .next (cancelPlane s r q) := by
  have e : exec (.cancelInterrupt r p n) s = execCancelInterrupt r p n s := rfl
  have hf : [p, 1 - p].find? (fun p => runsLaunch (s.plane r p) n) = some q := by
    obtain rfl | ⟨rfl, hp⟩ := hq
    · simp [hr]
    · simp [hr, hp]
  rw [e, execCancelInterrupt, runEvent_ok h]
  simp only [hf]

theorem find_runsLaunch_none (h0 : runsLaunch (s.plane r p) n = false) (h1 : runsLaunch (s.plane r (1 - p)) n = false) :
    [p, 1 - p].find? (fun p => runsLaunch (s.plane r p) n) = none := by
  simp [h0, h1]

theorem exec_cancelInterrupt_susp {u : Susp} (h : (Instr.cancelInterrupt r p n).wf = true) (h0 : runsLaunch (s.plane r p) n = false)
    (h1 : runsLaunch (s.plane r (1 - p)) n = false)
    (hu : s.suspended.find? (fun u => decide (u.rank = r ∧ u.plane.task.launch = n)) = some u) :
    exec (.cancelInterrupt r p n) s = .next (endSusp s u { code := 2 }) := by
  have e : exec (.cancelInterrupt r p n) s = execCancelInterrupt r p n s := rfl
  rw [e, execCancelInterrupt, runEvent_ok h]
  simp only [find_runsLaunch_none h0 h1, hu]

theorem exec_cancelInterrupt_none (h : (Instr.cancelInterrupt r p n).wf = true) (h0 : runsLaunch (s.plane r p) n = false)
    (h1 : runsLaunch (s.plane r (1 - p)) n = false) (hu : ∀ u ∈ s.suspended, u.rank = r → u.plane.task.launch ≠ n) :
    exec (.cancelInterrupt r p n) s = .next s := by
  have e : exec (.cancelInterrupt r p n) s = execCancelInterrupt r p n s := rfl
  have hn : s.suspended.find? (fun u => decide (u.rank = r ∧ u.plane.task.launch = n)) = none := by
    simpa [List.find?_eq_none] using hu
  rw [e, execCancelInterrupt, runEvent_ok h]
  simp only [find_runsLaunch_none h0 h1, hn]

/-- A cancel that waits. -/
theorem cancelPlane_waits (h : (s.tile r).monitor = true ∨ (s.plane r p).drains = true) :
    cancelPlane s r p = s.modPlane r p (fun pl => { pl with cancel := true }) := if_pos h

theorem cancelPlane_ends (hm : (s.tile r).monitor = false) (hd : (s.plane r p).drains = false) :
    cancelPlane s r p = endPlane s r p { code := 2, pc := (s.plane r p).resumePoint } := if_neg (by simp [hm, hd])

end

/-! ## Fence notices (R84, R314) -/

theorem exec_fenceNotice_self {s : State} {r : Nat} (h : (Instr.fenceNotice r r).wf = true) :
    exec (.fenceNotice r r) s = .next (if (s.tile r).fenced then coordinate s r else s) := by
  have e : exec (.fenceNotice r r) s = execFenceNotice r r s := rfl
  rw [e, execFenceNotice, runEvent_ok h, if_pos rfl]

theorem exec_fenceNotice_other {s : State} {f r : Nat} (h : (Instr.fenceNotice f r).wf = true) (hne : f ≠ r) : ∃ t u,
    exec (.fenceNotice f r) s = .next t ∧ t = releaseFenced (pumpTile u r) f ∧
      u.suspended = (peerDownAt (peerDownAt s r 0 f) r 1 f).suspended.map
        (fun v => if v.rank = r then { v with plane := v.plane.peerDown f } else v) := by
  have e : exec (.fenceNotice f r) s = execFenceNotice f r s := rfl
  rw [e, execFenceNotice, runEvent_ok h, if_neg hne]
  dsimp only
  generalize peerDownAt (peerDownAt s r 0 f) r 1 f = u
  exact ⟨_, { u with suspended := u.suspended.map (fun v => if v.rank = r then { v with plane := v.plane.peerDown f } else v) },
    rfl, rfl, rfl⟩

theorem Plane.complete_prq (pl : Plane) (fn id : Nat) (q : Quad) : (pl.complete fn id q).prq = pl.prq := by
  unfold Plane.complete
  split
  · rfl
  · dsimp only
    split
    · split <;> rfl
    · rfl

theorem Plane.complete_sends (pl : Plane) (fn id : Nat) (q : Quad) : (pl.complete fn id q).sends = pl.sends := by
  unfold Plane.complete
  split
  · rfl
  · dsimp only
    split
    · split <;> rfl
    · rfl

theorem Plane.complete_flag {pl : Plane} {fn id : Nat} (q : Quad) (hb : (pl.regs.fl fn).bound = some id) (hf : fn < 64) :
    (pl.complete fn id q).regs.fl fn = { on := true, status := q, bound := none, last := id, soft := false } := by
  have hr (x : Plane) : (Plane.fire x).regs = x.regs := rfl
  unfold Plane.complete
  rw [if_neg (not_not.2 hb)]
  dsimp only
  split
  · split <;> simp [hr, Regs.fl, Regs.setFl, hf]
  · simp [hr, Regs.fl, Regs.setFl, hf]

theorem foldl_prq {α : Type} {f : Plane → α → Plane} (h : ∀ pl a, (f pl a).prq = pl.prq) (l : List α) (pl : Plane) :
    (l.foldl f pl).prq = pl.prq := by
  induction l generalizing pl with
  | nil => rfl
  | cons a l ih => exact (ih _).trans (h pl a)

theorem Plane.finSends_prq (pl : Plane) : pl.finSends.prq = pl.prq := by
  unfold Plane.finSends
  refine (foldl_prq (fun pl sd => ?_) _ _).trans rfl
  dsimp only
  have h : (match sd.flag with
      | some fn => pl.complete fn sd.id (sendRecord pl.regs.myrank sd)
      | none => pl).prq = pl.prq := by
    split
    · exact Plane.complete_prq _ _ _ _
    · rfl
  split <;> exact h

/-- A plane without sends has none that is done. -/
theorem Plane.finSends_nil {pl : Plane} (h : pl.sends = []) : pl.finSends.regs = pl.regs := by
  simp [Plane.finSends, h]

theorem Plane.peerDown_prq (pl : Plane) (f : Nat) : (pl.peerDown f).prq = pl.prq.filter (fun q => decide (q.src ≠ f)) := by
  unfold Plane.peerDown
  refine (Plane.finSends_prq _).trans ?_
  exact congrArg (fun l : List Recv => l.filter (fun q => decide (q.src ≠ f)))
    (foldl_prq (fun pl (q : Recv) => Plane.complete_prq pl q.flag q.id _) _ pl)

/-- The receive that names the fenced tile, alone at its plane, completes. -/
theorem Plane.peerDown_one {pl : Plane} {f : Nat} {q : Recv} (hp : pl.prq = [q]) (hs : pl.sends = []) (hf : q.src = f) (hl : q.flag < 64)
    (hb : (pl.regs.fl q.flag).bound = some q.id) : ((pl.peerDown f).regs.fl q.flag).on = true ∧
      ((pl.peerDown f).regs.fl q.flag).status = recvRecord q 0 0 6 0 0 0 15 := by
  have hk : pl.prq.filter (fun q => decide (q.src = f)) = [q] := by
    simp [hp, hf]
  have e : (pl.peerDown f).regs = (pl.complete q.flag q.id (recvRecord q 0 0 stPEERDOWN 0 0 0 15)).regs := by
    unfold Plane.peerDown
    rw [hk]
    refine (Plane.finSends_nil ?_).trans rfl
    dsimp only [List.foldl]
    rw [Plane.complete_sends, hs]
    rfl
  rw [e, Plane.complete_flag _ hb hl]
  exact ⟨rfl, rfl⟩

/-- Settles O54: at a tile without an open speculation each asynchronous event is its definition, with a rollback that has nothing to
take back; the miss of a heartbeat leaves the tile fenced, for no step that ends a task takes a fence away. -/
theorem interruptSteps : Obligations.InterruptSteps := by
  refine ⟨?c1, fun s r p h hd => exec_dualTimeout_none h hd, ?c3, ?c4, ?c5, ?c6, ?c7, fun pl => ⟨preemptDue_none, preemptDue_some⟩, ?c9,
    ?c10, runsLaunch_iff, ?c12, ?c13⟩
  case c1 =>
    intro s r q p kind h hd _ hf hm hn hs hb
    exact ⟨_, exec_dualTimeout_due h hd, takeMismatch_spec kind hf hm hn hs hb⟩
  case c3 =>
    exact fun s r p => ⟨fun e l hp hd ho hw ht => dualTimeouts_left hp hd ho hw ht, fun r2 p2 e hp he ht => dualTimeouts_pair hp he ht⟩
  case c4 =>
    rintro s _ r p r2 p2 kind rfl
    exact dualMismatch_spec s r p r2 p2 kind
  case c5 =>
    intro s r p h hr _
    refine ⟨fun hb => exec_hbmiss_early h hr hb, fun hb hm hf hn => ⟨_, rfl, ?_⟩⟩
    obtain ⟨h1, h2, h3⟩ := hbmissAt_spec (p := p) hn
    exact ⟨h1, h2, h3, exec_hbmiss_missed h hr hb hm hf hn⟩
  case c6 =>
    intro s r h
    refine ⟨fun hm hw => ?_, fun hm hw => ⟨Config.watchdogCause s.tick, _, ?_, rfl, monitorFaultRest_due _ _⟩,
      fun hm hf => ⟨?_, monitorFaultRest_due _ _⟩, fun hm hf => ?_, fun c => ?_⟩
    · rw [exec_watchdog_eq h, if_pos hm, if_pos hw]
    · rw [exec_watchdog_eq h, if_pos hm, if_neg (Nat.not_lt.2 hw)]
    · rw [exec_watchdog_eq h, if_neg (by simp [hm]), if_pos hf]
    · rw [exec_watchdog_eq h, if_neg (by simp [hm]), if_neg (by simp [hf])]
    · rw [monitorFault_tile]
      exact ⟨rfl, rfl, rfl, rfl⟩
  case c7 =>
    intro s r p h
    refine ⟨fun x hx => exec_preemptInterrupt_some h hx, fun hs hx => ?_, fun h1 h4 hx hn => ⟨_, exec_preemptInterrupt_none h hx, ?_⟩⟩
    · rw [exec_preemptInterrupt_none h hx, markPreempt_idle hs]
    · rw [markPreempt_eq h1 h4 hn, State.modPlane_plane]
      exact ⟨rfl, rfl, fun _ => rfl, rfl⟩
  case c9 =>
    intro s r b h
    refine ⟨exec_preempt_out h, fun p hp hm hf hb h0 hn => ⟨_, exec_preempt_due h hp hm hf hb h0, takePreempt_spec b hn⟩⟩
  case c10 =>
    intro s r p n h
    refine ⟨fun q hq hr => ⟨fun hw => ⟨_, exec_cancelInterrupt_plane h hq hr, ?_⟩, fun hm hd => ?_⟩,
      fun u h0 h1 hu => exec_cancelInterrupt_susp h h0 h1 hu, exec_cancelInterrupt_none h⟩
    · rw [cancelPlane_waits hw, State.modPlane_plane]
      exact ⟨rfl, rfl, fun _ => rfl⟩
    · rw [exec_cancelInterrupt_plane h hq hr, cancelPlane_ends hm hd]
  case c12 =>
    intro s f r h
    have hr : (Instr.fenceNotice r r).wf = true := by
      simp only [Instr.wf, Bool.and_eq_true] at h ⊢
      exact ⟨h.2, h.2⟩
    exact ⟨exec_fenceNotice_self hr, exec_fenceNotice_other h⟩
  case c13 =>
    intro pl f
    refine ⟨fun q hq => ?_, fun q hq hs => ?_, fun q hp hs hf hl hb => Plane.peerDown_one hp hs hf hl hb⟩
    · rw [Plane.peerDown_prq] at hq
      simpa using (List.mem_filter.1 hq).2
    · rw [Plane.peerDown_prq]
      exact List.mem_filter.2 ⟨hq, by simpa using hs⟩

end Sys2Proof.Machine
end

section
/-! PROOFS. What the message engine keeps while it moves its sends on (R74, R75, R86): the bytes that have landed and those on hand
of every delivery, and all of memory; and the steps that were due stay due. -/

namespace Sys2Proof.Machine

/-! ## Deliveries that go on -/

/-- A delivery but for the status of its forward and for whether its sender still waits. -/
def Delivery.core (d : Delivery) : Delivery := { d with fwdSt := 15, ack := false }

/-- The deliveries of a plane are the same, but for their forwards' statuses and the answers that they owe, and no speculation has
opened. -/
def Plane.LandedKept (a b : Plane) : Prop :=
  b.deliveries.map Delivery.core = a.deliveries.map Delivery.core ∧ (a.spec = none → b.spec = none)

theorem Plane.LandedKept.refl (pl : Plane) : pl.LandedKept pl := ⟨rfl, id⟩

theorem Plane.LandedKept.trans {a b c : Plane} (h : a.LandedKept b) (k : b.LandedKept c) : a.LandedKept c :=
  ⟨k.1.trans h.1, fun hn => k.2 (h.2 hn)⟩

/-- Memory is as before, every plane's deliveries go on, and what was due stays so. -/
def LandedKept (s t : State) : Prop :=
  t.mem = s.mem ∧ (∀ i, s.Due i → t.Due i) ∧ ∀ r p, (s.plane r p).LandedKept (t.plane r p)

theorem LandedKept.refl (s : State) : LandedKept s s := ⟨rfl, fun _ h => h, fun _ _ => Plane.LandedKept.refl _⟩

theorem LandedKept.trans {s t u : State} (h : LandedKept s t) (k : LandedKept t u) : LandedKept s u := by
  obtain ⟨hm, hd, hp⟩ := h
  obtain ⟨km, kd, kp⟩ := k
  exact ⟨km.trans hm, fun i hi => kd i (hd i hi), fun r p => (hp r p).trans (kp r p)⟩

theorem OnlyDue.landedKept {s t : State} (h : OnlyDue s t) : LandedKept s t :=
  ⟨h.mem_eq, h.2, fun r p => by rw [h.plane_eq]; exact Plane.LandedKept.refl _⟩

theorem modPlane_landedKept (s : State) (r p : Nat) {f : Plane → Plane}
    (h : ∀ pl : Plane, pl.LandedKept (f pl) := by exact fun _ => Plane.LandedKept.refl _) : LandedKept s (s.modPlane r p f) := by
  refine ⟨rfl, fun _ hi => hi, fun q o => ?_⟩
  rw [modPlane_plane_ite]
  split
  next e =>
    obtain ⟨rfl, e⟩ := e
    have ho : s.plane q o = s.plane q p := by simp only [State.plane, Tile.pl, e]
    rw [ho]
    exact h _
  · exact Plane.LandedKept.refl _

theorem foldl_landedKept {α : Type} {f : State → α → State} (h : ∀ s a, LandedKept s (f s a)) (l : List α) (s : State) :
    LandedKept s (l.foldl f s) := by
  induction l generalizing s with
  | nil => exact LandedKept.refl s
  | cons a l ih => exact (h s a).trans (ih _)

/-- A fold over a state with something beside it. -/
theorem foldl_fst_landedKept {α β : Type} {f : State × β → α → State × β} (h : ∀ x a, LandedKept x.1 (f x a).1) (l : List α)
    (x : State × β) : LandedKept x.1 (l.foldl f x).1 := by
  induction l generalizing x with
  | nil => exact LandedKept.refl x.1
  | cons a l ih => exact (h x a).trans (ih _)

/-- How far a delivery has come says its core. -/
theorem Plane.LandedKept.delivery_eq {a b : Plane} (h : a.LandedKept b) (did : Nat) :
    (b.delivery did).map (fun d => (d.got, d.data)) = (a.delivery did).map (fun d => (d.got, d.data)) := by
  have core (pl : Plane) : (pl.delivery did).map (fun d => (d.got, d.data)) =
      ((pl.deliveries.map Delivery.core).find? (fun d => decide (d.did = did))).map (fun d => (d.got, d.data)) := by
    rw [List.find?_map, Option.map_map]
    rfl
  rw [core, core, h.1]

/-! ## The moves of sends -/

theorem Plane.complete_deliveries (pl : Plane) (fn id : Nat) (q : Quad) : (pl.complete fn id q).deliveries = pl.deliveries := by
  unfold Plane.complete
  split
  · rfl
  · dsimp only
    split
    · split <;> rfl
    · rfl

theorem Plane.complete_noSpec {pl : Plane} (fn id : Nat) (q : Quad) (h : pl.spec = none) : (pl.complete fn id q).spec = none := by
  unfold Plane.complete
  split
  · exact h
  · simp only [Plane.fire, h]

theorem Plane.complete_landedKept (pl : Plane) (fn id : Nat) (q : Quad) : pl.LandedKept (pl.complete fn id q) :=
  ⟨by rw [Plane.complete_deliveries], Plane.complete_noSpec fn id q⟩

/-- The statuses of forwards are no part of a delivery's core. -/
theorem Plane.fwdSt_landedKept (pl : Plane) (sid st : Nat) : pl.LandedKept
    { pl with deliveries := pl.deliveries.map (fun d => if d.fwd = some sid then { d with fwdSt := st } else d) } := by
  refine ⟨?_, id⟩
  rw [List.map_map]
  refine List.map_congr_left (fun d _ => ?_)
  rw [Function.comp_apply]
  split <;> rfl

theorem Plane.finSends_landedKept (pl : Plane) : pl.LandedKept pl.finSends := by
  have fold (l : List Send) (f : Plane → Send → Plane) (h : ∀ (pl : Plane) (sd : Send), pl.LandedKept (f pl sd)) (pl : Plane) :
      pl.LandedKept (l.foldl f pl) := by
    induction l generalizing pl with
    | nil => exact Plane.LandedKept.refl pl
    | cons sd l ih => exact (h pl sd).trans (ih _)
  unfold Plane.finSends
  refine Plane.LandedKept.trans (b := { pl with sends := pl.sends.filter (fun sd => !sd.done) }) ⟨rfl, id⟩ (fold _ _ (fun pl sd => ?_) _)
  have hflag : pl.LandedKept (match sd.flag with
      | some fn => pl.complete fn sd.id (sendRecord pl.regs.myrank sd)
      | none => pl) := by
    split
    · exact Plane.complete_landedKept _ _ _ _
    · exact Plane.LandedKept.refl pl
  dsimp only
  split
  · exact hflag.trans (Plane.fwdSt_landedKept _ _ _)
  · exact hflag

theorem finSends_landedKept (s : State) (r p : Nat) : LandedKept s (finSends s r p) := by
  unfold finSends
  refine .trans (modPlane_landedKept s r p Plane.finSends_landedKept) (foldl_landedKept (fun s d => ?_) _ _)
  split
  · exact LandedKept.refl s
  · exact (emitOnce_onlyDue s _).landedKept

theorem withSend_landedKept (s : State) (r id : Nat) (f : Send → Send) : LandedKept s (withSend s r id f) := by
  have one (s : State) (r p : Nat) : LandedKept s (finSends (s.modPlane r p (fun pl => pl.modSend id f)) r p) :=
    (modPlane_landedKept s r p).trans (finSends_landedKept _ r p)
  unfold withSend
  split
  · dsimp only
    split
    · exact (one s r _).trans (one _ _ _)
    · exact one s r _
  · exact ⟨rfl, fun _ hi => hi, fun _ _ => Plane.LandedKept.refl _⟩

theorem emitAbandon_onlyDue (s : State) (r p : Nat) (sd : Send) (c : SendCopy) : OnlyDue s (emitAbandon s r p sd c) := by
  unfold emitAbandon
  split
  · exact OnlyDue.refl s
  · exact emitNet_onlyDue s _ _ _ _

/-- What a path has seen changes the marks of racing writes alone. -/
theorem tsSeen_eq (s : State) (r path a n : Nat) : tsSeen s r path a n = s ∨
    ∃ f : Tile → List Stale, tsSeen s r path a n = s.modTile r (fun t => t.withStale (f t)) := by
  unfold tsSeen
  split
  · exact .inl rfl
  · exact .inr ⟨_, rfl⟩

theorem tsSeen_landedKept (s : State) (r path a n : Nat) : LandedKept s (tsSeen s r path a n) := by
  obtain h | ⟨f, h⟩ := tsSeen_eq s r path a n <;> rw [h]
  · exact LandedKept.refl s
  · refine ⟨rfl, fun _ hi => hi, fun q o => ?_⟩
    rw [modTile_plane_eq s r (fun t p => Tile.withStale_pl t _ p)]
    exact Plane.LandedKept.refl _

theorem captureSend_landedKept (s : State) (r p : Nat) (sd : Send) : LandedKept s (captureSend s r p sd) := by
  unfold captureSend
  split
  · refine .trans (OnlyDue.landedKept (foldl_onlyDue (fun s c => ?_) sd.copies s)) (withSend_landedKept _ _ _ _)
    split
    · exact emitAbandon_onlyDue s r p sd c
    · exact OnlyDue.refl s
  · exact LandedKept.refl s
  · exact .trans (tsSeen_landedKept s r _ _ _) (modPlane_landedKept _ r p)

theorem transmit_landedKept (s : State) (r p : Nat) (sd : Send) : LandedKept s (transmit s r p sd) := by
  unfold transmit
  split
  · exact LandedKept.refl s
  · refine .trans ?_ (modPlane_landedKept _ r p)
    refine foldl_fst_landedKept (fun x c => ?_) _ (s, _)
    split
    · exact (emitNet_onlyDue _ _ _ _ _).landedKept
    · exact LandedKept.refl _

theorem onSend_landedKept {s : State} (r p id : Nat) {f : State → Send → State} (h : ∀ sd, LandedKept s (f s sd)) :
    LandedKept s (onSend s r p id f) := by
  unfold onSend
  split
  · exact h _
  · exact LandedKept.refl s

theorem pumpSend_landedKept (s : State) (r p id : Nat) : LandedKept s (pumpSend s r p id) := by
  unfold pumpSend
  refine .trans (onSend_landedKept r p id fun sd => ?_) (onSend_landedKept r p id fun sd => ?_)
  · split
    · exact captureSend_landedKept _ _ _ _
    · exact LandedKept.refl _
  · split
    · exact LandedKept.refl _
    · exact transmit_landedKept _ _ _ _

theorem pumpList_landedKept (r p : Nat) (l : List Nat) (held : Bool) (s : State) : LandedKept s (pumpList r p l held s) := by
  induction l generalizing held s with
  | nil => exact LandedKept.refl s
  | cons id l ih =>
    refine .trans ?_ (ih _ _)
    split
    · exact LandedKept.refl s
    · exact pumpSend_landedKept s r p id

theorem numberSend_landedKept (s : State) (r p : Nat) (sd : Send) : LandedKept s (numberSend s r p sd) := by
  unfold numberSend
  refine .trans ?_ (withSend_landedKept _ _ _ _)
  refine foldl_fst_landedKept (fun x c => ?_) _ (s, _)
  split
  · exact LandedKept.refl _
  · split
    · exact LandedKept.refl _
    · split
      · exact LandedKept.refl _
      · exact ⟨rfl, fun _ hi => hi, fun _ _ => Plane.LandedKept.refl _⟩

theorem pumpSends_landedKept (s : State) (r p : Nat) : LandedKept s (pumpSends s r p) := by
  unfold pumpSends numberSends
  refine .trans (.trans ?_ (pumpList_landedKept _ _ _ _ _)) (finSends_landedKept _ _ _)
  split
  · exact LandedKept.refl s
  · exact foldl_landedKept (fun s sd => numberSend_landedKept s r p sd) _ _

end Sys2Proof.Machine
end

section
/-! PROOFS. A retry whose buffer cannot be read (R80, R96), and why its abandon header may be missing. -/

namespace Sys2Proof.Machine

/-- R46: of a DUAL pair the odd tile's send, which holds the even tile's number, abandons nothing. -/
theorem emitAbandon_twin (s : State) (r p : Nat) {sd : Send} (c : SendCopy) (h : sd.twin ≠ 0) : emitAbandon s r p sd c = s := if_pos h

/-- The copy of a retry that meets the window of a faulted copy ends FAULT ENGFAULT, and its number is abandoned by emitAbandon. -/
theorem exec_sendRetry_faulted {s : State} {a : Ack} {p fn : Nat} {sd : Send} {c : SendCopy} (hwf : (Instr.sendRetry a).wf = true)
    (ha : epOf a.rank < 0x400) (hp : planeOfSend (s.tile a.rank) a.sid = some p) (hs : (s.plane a.rank p).send a.sid = some sd)
    (hc : openCopy sd a.dst = some c) (hq : queueTakes s a.rank a.dst (if sd.eager then sd.bytes else 0) = true)
    (hb : sendBytes s a.rank p sd 0 (if sd.eager then sd.bytes else 0) = .error (.faulted fn)) : exec (.sendRetry a) s =
      .next (withSend (emitAbandon s a.rank p sd c) a.rank a.sid (onCopy a.dst (SendCopy.finish 7 0x13))) := by
  have e : exec (.sendRetry a) s = execSendRetry a s := rfl
  rw [e, execSendRetry, runEvent_ok hwf, if_neg (Nat.not_le.2 ha)]
  simp [retryAt, onSend, hp, hs, hc, hq, hb, stFAULT, fcENGFAULT]

/-- An odd tile's send of 4 bytes at address 0, of which the copy for tile 1 has not ended. -/
def twinSend : Send :=
  { id := 1, kind := 1, flag := none, group := 0, tag := 0, len := 4, bytes := 4, addr := 0, eager := true, twin := 1,
    copies := [{ dst := 1, seq := 0, left := true }] }

/-- Tile 0 with that send, and over its buffer the window of a faulted copy on flag 9. -/
def twinFaulted : State :=
  State.reset.modPlane 0 0 (fun pl => { pl with
    sends := [twinSend],
    window := pl.window.setIfInBounds 1 (some { lo := 0, hi := 63, base := 0 }),
    wfault := pl.wfault.setIfInBounds 1 (some 9) })

/-- The retry of its copy. -/
def twinRetry : Ack := { rank := 0, job := 0, sid := 1, dst := 1, fin := false, status := 0, fcode := 0 }

/-- Refutes O48. Of a SEND_RETRY whose buffer cannot be read the statement asks that the abandon header of the copy's number is due,
whatever the send; the model sends none for the odd tile's send of a DUAL pair (twin ≠ 0), whose stream the even tile's send
numbers (R46), and the clause, unlike the last one, does not ask for twin = 0. Counterexample: the retry of twinSend in twinFaulted,
after which nothing is due, where ending the copy keeps whatever was due before. -/
theorem not_messageSteps : ¬ Obligations.MessageSteps := by
  unfold Obligations.MessageSteps
  rintro ⟨-, -, -, -, -, -, hanswers, -⟩
  obtain ⟨-, -, hretry⟩ := hanswers twinRetry twinFaulted 0 twinSend { dst := 1, seq := 0, left := true } (by decide) rfl rfl rfl
  obtain ⟨-, hfaulted, -⟩ := hretry 4 rfl rfl
  have hread : sendBytes twinFaulted 0 0 twinSend 0 4 = .error (.faulted 9) := rfl
  obtain ⟨u, hu, -, m, hdue, -⟩ := hfaulted 9 rfl hread
  have hnext := exec_sendRetry_faulted (s := twinFaulted) (a := twinRetry) (p := 0) (sd := twinSend) rfl (by decide) rfl rfl rfl rfl hread
  rw [emitAbandon_twin _ _ _ _ (by decide), hu] at hnext
  injection hnext with hnext
  obtain ⟨-, hkeeps, -⟩ := withSend_landedKept u 0 1 (onCopy 1 (SendCopy.finish 7 0x13))
  obtain ⟨d, hd, -⟩ := hnext ▸ hkeeps _ hdue
  have hnone : (withSend twinFaulted 0 1 (onCopy 1 (SendCopy.finish 7 0x13))).agenda = [] := rfl
  exact absurd (hnone ▸ hd) List.not_mem_nil

end Sys2Proof.Machine
end

section
/-! PROOFS. Deliveries line by line, pulls, and transfers that the transport abandons (R77, R79, R82, R84, R86, R93, R150). -/

namespace Sys2Proof.Machine

/-! ## A store to any tile -/

theorem writeGrans_plane (s : State) (r path op a : Nat) (bytes : List Byte) (n q o : Nat) :
    (writeGrans s r path op a bytes n).plane q o = s.plane q o := by
  induction n with
  | zero => rfl
  | succ n ih =>
    obtain ⟨m, st, e, -⟩ := tsWriteGran_eq (writeGrans s r path op a bytes n) r path op a bytes (a / 16 + n)
    rw [writeGrans, e, modTile_plane_eq _ r (fun t p => Tile.withStale_pl t st p)]
    exact ih

/-- A store changes no plane. -/
theorem tsStore_plane (s : State) (r path op a : Nat) (bytes : List Byte) (q o : Nat) :
    (tsStore s r path op a bytes).plane q o = s.plane q o := by
  by_cases h : 0 < bytes.length
  · rw [tsStore_eq _ _ _ _ _ h, writeGrans_plane]
  · have hnil : bytes = [] := List.length_eq_zero_iff.1 (by omega)
    rw [hnil]
    rfl

/-- R91, R93: what a store changes in the memory of whatever tile it goes to. -/
theorem tsStore_mem (s : State) (r : Nat) {path : Nat} (hp : IsPath path) (op a : Nat) {bytes : List Byte} (h : 0 < bytes.length) :
    SameGransBut s (tsStore s r path op a bytes) r a bytes.length ∧
      (AllSeen s r path → SameMemBut s (tsStore s r path op a bytes) (tsAddr r a) bytes.length ∧
        (s.Safe → ∀ k < bytes.length, memGet (tsStore s r path op a bytes).mem (tsAddr r a + k) = (bytes[k]?).getD 0)) := by
  rw [tsStore_eq _ _ _ _ _ h]
  refine ⟨fun b hb => writeGrans_mem_out _ _ _ _ _ _ _ (by omega), fun hs => ?_⟩
  obtain ⟨-, -, hout, hin⟩ := writeGrans_of_allSeen hp hs op a bytes ((a + bytes.length - 1) / 16 + 1 - a / 16)
  exact ⟨hout, fun hw k hk => hin hw k hk (by omega)⟩

/-- Where no write races, every path has seen all of them. -/
theorem allSeen_of_nil {s : State} {r : Nat} (path : Nat) (h : (s.tile r).stale = []) : AllSeen s r path := by
  intro e he
  rw [h] at he
  cases he

/-! ## Deliveries of a plane -/

theorem Plane.delivery_did {pl : Plane} {did : Nat} {d : Delivery} (h : pl.delivery did = some d) : d.did = did := by
  simpa using List.find?_some h

/-- A delivery that was replaced. -/
theorem putDelivery_delivery {s : State} {r p : Nat} {d e : Delivery} (h : (s.plane r p).delivery e.did = some d) :
    ((putDelivery s r p e).plane r p).delivery e.did = some e := by
  have hd : d.did = e.did := Plane.delivery_did h
  have hp : ((fun d : Delivery => decide (d.did = e.did)) ∘ fun d => if d.did = e.did then e else d) =
      fun d => decide (d.did = e.did) := by
    funext d
    rw [Function.comp_apply]
    split <;> simp_all
  rw [putDelivery, State.modPlane_plane]
  unfold Plane.delivery at h ⊢
  rw [List.find?_map, hp, h, Option.map_some, if_pos hd]

/-! ## What follows when a line has landed -/

theorem wakeSpill_onlyDue (s : State) (r p : Nat) : OnlyDue s (wakeSpill s r p) := by
  unfold wakeSpill
  split
  · exact emitOnce_onlyDue s _
  · exact OnlyDue.refl s

theorem answer_onlyDue (s : State) (r : Nat) (m : Msg) (fin : Bool) (st fc : Nat) : OnlyDue s (answer s r m fin st fc) := by
  unfold answer
  split
  · exact OnlyDue.refl s
  · exact emitNet_onlyDue s _ _ _ _

theorem pushDelivery_onlyDue (s : State) (r p did : Nat) : OnlyDue s (pushDelivery s r p did) := by
  unfold pushDelivery
  split
  · exact OnlyDue.refl s
  · split
    · exact OnlyDue.refl s
    · split
      · exact emitOnce_onlyDue s _
      · split
        · exact OnlyDue.refl s
        · exact emitOnce_onlyDue s _

theorem ackPlaced_landedKept (s : State) (r p : Nat) (d : Delivery) : LandedKept s (ackPlaced s r p d) := by
  unfold ackPlaced
  refine .trans (modPlane_landedKept s r p (fun pl => ?_)) (answer_onlyDue _ _ _ _ _ _).landedKept
  refine ⟨?_, id⟩
  rw [List.map_map]
  refine List.map_congr_left (fun e _ => ?_)
  rw [Function.comp_apply]
  split <;> rfl

theorem ackPlaced_regs (s : State) (r p : Nat) (d : Delivery) : ((ackPlaced s r p d).plane r p).regs = (s.plane r p).regs := by
  rw [ackPlaced, (answer_onlyDue _ _ _ _ _ _).plane_eq, State.modPlane_plane]

theorem forwardLine_landedKept (s : State) (r p : Nat) (d : Delivery) (b : List Byte) : LandedKept s (forwardLine s r p d b) := by
  unfold forwardLine
  dsimp only
  split
  · exact .trans (modPlane_landedKept s r p) (pumpSends_landedKept _ r p)
  · exact modPlane_landedKept s r p

theorem forwardLine_regs (s : State) (r p : Nat) {d : Delivery} (b : List Byte) (h : d.fwd = none) :
    ((forwardLine s r p d b).plane r p).regs = (s.plane r p).regs := by
  simp only [forwardLine, h, Option.isSome_none, Bool.false_eq_true, if_false, State.modPlane_plane]

/-- Without a speculation a delivery conflicts with none. -/
theorem deliveryConflict_of_none {s : State} {r p : Nat} (mv pv a n : Nat) (h : (s.plane r p).spec = none) :
    deliveryConflict s r p mv pv a n = s := by
  simp only [deliveryConflict, h]

/-- What follows the landing of the bytes b of a delivery, of which rest stay: free till lines wake the spill queue, a forward takes
the bytes, an eager sender is answered, and the delivery goes on. -/
def afterLine (s : State) (r p : Nat) (d : Delivery) (b rest : List Byte) : State :=
  let s := if rest = [] ∧ d.lines ≠ 0 then wakeSpill s r p else s
  let s := forwardLine s r p d b
  let s := if d.ack && rest.isEmpty then ackPlaced s r p d else s
  pushDelivery (deliveryConflict s r p d.hdr.mv d.hdr.pv (d.recv.addr + d.got) b.length) r p d.did

section
variable {s : State} {r p : Nat} (d : Delivery) (b rest : List Byte) (hs : (s.plane r p).spec = none)
include hs

/-- Outside a speculation these are moves of the message engine, and steps that become due. -/
theorem afterLine_eq : ∃ u v, LandedKept s u ∧ (d.fwd = none → (u.plane r p).regs = (s.plane r p).regs) ∧
    OnlyDue u v ∧ afterLine s r p d b rest = v := by
  have hwake : OnlyDue s (if rest = [] ∧ d.lines ≠ 0 then wakeSpill s r p else s) := by
    split
    · exact wakeSpill_onlyDue s r p
    · exact OnlyDue.refl s
  let w := forwardLine (if rest = [] ∧ d.lines ≠ 0 then wakeSpill s r p else s) r p d b
  have hfwd : LandedKept s w := hwake.landedKept.trans (forwardLine_landedKept _ r p d b)
  have hregs : d.fwd = none → (w.plane r p).regs = (s.plane r p).regs := fun h => by rw [forwardLine_regs _ r p b h, hwake.plane_eq]
  have hack : LandedKept w (if d.ack && rest.isEmpty then ackPlaced w r p d else w) ∧
      ((if d.ack && rest.isEmpty then ackPlaced w r p d else w).plane r p).regs = (w.plane r p).regs := by
    split
    · exact ⟨ackPlaced_landedKept w r p d, ackPlaced_regs w r p d⟩
    · exact ⟨LandedKept.refl w, rfl⟩
  have hkept := hfwd.trans hack.1
  have hspec := (hkept.2.2 r p).2 hs
  refine ⟨_, _, hkept, fun h => hack.2.trans (hregs h), pushDelivery_onlyDue _ r p d.did, ?_⟩
  rw [← deliveryConflict_of_none d.hdr.mv d.hdr.pv (d.recv.addr + d.got) b.length hspec]
  rfl

theorem afterLine_landedKept : LandedKept s (afterLine s r p d b rest) := by
  obtain ⟨u, v, hu, -, hv, rfl⟩ := afterLine_eq d b rest hs
  exact hu.trans hv.landedKept

theorem afterLine_regs (h : d.fwd = none) : ((afterLine s r p d b rest).plane r p).regs = (s.plane r p).regs := by
  obtain ⟨u, v, -, hr, hv, rfl⟩ := afterLine_eq d b rest hs
  rw [hv.plane_eq, hr h]

end

/-! ## A line lands (R77) -/

section
variable {s : State} {r p did : Nat} {d : Delivery}

theorem exec_payloadLineLands (hwf : (Instr.payloadLineLands r p did).wf = true) (hd : (s.plane r p).delivery did = some d)
    (hne : d.data ≠ []) : exec (.payloadLineLands r p did) s = .next (landLine s r p d) := by
  have e : exec (.payloadLineLands r p did) s = execPayloadLineLands r p did s := rfl
  rw [e, execPayloadLineLands, runEvent_ok hwf]
  simp only [hd, hne, if_false]

/-- The bytes of the line that lands next. -/
def Delivery.line64 (d : Delivery) : List Byte := d.data.take (64 - (d.recv.addr + d.got) % 64)

/-- The delivery when its next line has landed. -/
def Delivery.past (d : Delivery) : Delivery :=
  { d with got := d.got + d.line64.length, data := d.data.drop d.line64.length,
           lines := if d.data.drop d.line64.length = [] then 0 else d.lines }

/-- The tile store when the next line of a delivery has landed. -/
def lineStored (s : State) (r : Nat) (d : Delivery) : State := tsStore s r pathN d.recv.id (d.recv.addr + d.got) d.line64

variable (hdr : d.lines = 0 ∨ draining s r = false)
include hdr

theorem landLine_wait (hw : winTile (s.tile r) p (d.recv.addr + d.got) d.line64.length 4 = .wait) : ∃ t, landLine s r p d = t ∧
    OnlyDue s t ∧ t.Due (.payloadLineLands r p d.did) := by
  refine ⟨_, rfl, ?_⟩
  have hw' : winTile (s.tile r) p (d.recv.addr + d.got) (d.data.take (64 - (d.recv.addr + d.got) % 64)).length 4 = .wait := hw
  unfold landLine
  rw [if_neg (by rintro ⟨h1, h2⟩; rcases hdr with h | h <;> simp_all), hw']
  dsimp only
  split
  · exact ⟨emit_onlyDue s _, emit_due s _⟩
  · exact ⟨emitOnce_onlyDue s _, emitOnce_due s _⟩

theorem landLine_faulted {fn : Nat} (hw : winTile (s.tile r) p (d.recv.addr + d.got) d.line64.length 4 = .faulted fn) :
    landLine s r p d = failDelivery s r p d 7 0x13 := by
  have hw' : winTile (s.tile r) p (d.recv.addr + d.got) (d.data.take (64 - (d.recv.addr + d.got) % 64)).length 4 = .faulted fn := hw
  unfold landLine
  rw [if_neg (by rintro ⟨h1, h2⟩; rcases hdr with h | h <;> simp_all), hw']
  rfl

theorem landLine_clear (hw : winTile (s.tile r) p (d.recv.addr + d.got) d.line64.length 4 = .clear) : landLine s r p d =
    afterLine (putDelivery (lineStored s r d) r p d.past) r p d d.line64 (d.data.drop d.line64.length) := by
  have hw' : winTile (s.tile r) p (d.recv.addr + d.got) (d.data.take (64 - (d.recv.addr + d.got) % 64)).length 4 = .clear := hw
  unfold landLine
  rw [if_neg (by rintro ⟨h1, h2⟩; rcases hdr with h | h <;> simp_all), hw']
  rfl

end

theorem Delivery.line64_length (d : Delivery) : d.line64.length = min (64 - (d.recv.addr + d.got) % 64) d.data.length := List.length_take

/-- R77: a line that meets no window lands at the receive's address and nowhere else. -/
theorem landLine_spec {s : State} {r p did : Nat} {d : Delivery} (hd : (s.plane r p).delivery did = some d) (hne : d.data ≠ [])
    (hdr : d.lines = 0 ∨ draining s r = false) (hw : winTile (s.tile r) p (d.recv.addr + d.got) d.line64.length 4 = .clear)
    (hs : (s.plane r p).spec = none) :
    (AllSeen s r pathN → SameMemBut s (landLine s r p d) (tsAddr r (d.recv.addr + d.got)) d.line64.length) ∧
      SameGransBut s (landLine s r p d) r (d.recv.addr + d.got) d.line64.length ∧
      ((s.tile r).stale = [] → s.Safe → ∀ k < d.line64.length,
        some (memGet (landLine s r p d).mem (tsAddr r (d.recv.addr + d.got) + k)) = d.data[k]?) ∧
      (((landLine s r p d).plane r p).delivery did).map (fun e => (e.got, e.data)) =
        some (d.got + d.line64.length, d.data.drop d.line64.length) ∧
      (d.fwd = none → ((landLine s r p d).plane r p).regs = (s.plane r p).regs) := by
  have hpos : 0 < d.line64.length := by
    have := List.length_pos_iff.2 hne
    rw [Delivery.line64_length]
    omega
  obtain ⟨hgran, hseen⟩ := tsStore_mem s r (show IsPath pathN by simp [IsPath]) d.recv.id (d.recv.addr + d.got) hpos
  have hplane : (lineStored s r d).plane r p = s.plane r p := tsStore_plane s r pathN _ _ _ r p
  have hput : (putDelivery (lineStored s r d) r p d.past).plane r p = _ := State.modPlane_plane _ r p _
  have hspec : ((putDelivery (lineStored s r d) r p d.past).plane r p).spec = none := by rw [hput, hplane]; exact hs
  have hkept := afterLine_landedKept d d.line64 (d.data.drop d.line64.length) hspec
  obtain ⟨hmem, -, hland⟩ := hkept
  have hmem' : (landLine s r p d).mem = (lineStored s r d).mem := by rw [landLine_clear hdr hw, hmem]; rfl
  have hdid : d.past.did = did := Plane.delivery_did (d := d) hd
  refine ⟨fun ha b hb => ?_, fun b hb => ?_, fun hst hsafe k hk => ?_, ?_, fun hf => ?_⟩
  · rw [hmem']; exact (hseen ha).1 b hb
  · rw [hmem']; exact hgran b hb
  · have hlt : k < 64 - (d.recv.addr + d.got) % 64 ∧ k < d.data.length := by
      rw [Delivery.line64_length] at hk
      omega
    have hbyte : d.line64[k]? = d.data[k]? := List.getElem?_take_of_lt hlt.1
    have hin := (hseen (allSeen_of_nil pathN hst)).2 hsafe k hk
    rw [hmem', show (lineStored s r d).mem = _ from rfl, lineStored, hin, hbyte, List.getElem?_eq_getElem hlt.2]
    rfl
  · rw [landLine_clear hdr hw, (hland r p).delivery_eq, ← hdid, putDelivery_delivery (d := d) (by rw [hplane, hdid]; exact hd)]
    rfl
  · rw [landLine_clear hdr hw, afterLine_regs d _ _ hspec hf, hput, hplane]

/-! ## The end of a delivery (R79, R82) -/

/-- The plane of a delivery that ends: it is gone, and its receive's flag completes. -/
def Plane.closed (pl : Plane) (d : Delivery) (q : Quad) : Plane :=
  Plane.complete { pl with deliveries := pl.deliveries.filter (fun e => decide (e.did ≠ d.did)) } d.recv.flag d.recv.id q

theorem Plane.closed_delivery (pl : Plane) (d : Delivery) (q : Quad) : (pl.closed d q).delivery d.did = none := by
  unfold Plane.delivery Plane.closed
  rw [Plane.complete_deliveries, List.find?_eq_none]
  intro e he
  simpa using (List.mem_filter.1 he).2

/-- R79, R82: the end of a delivery at its plane, and the answer to an eager sender that waits for it. -/
theorem closeDelivery_spec (s : State) (r p : Nat) (d : Delivery) (st fc fwd : Nat) :
    (closeDelivery s r p d st fc fwd).mem = s.mem ∧ (closeDelivery s r p d st fc fwd).plane r p =
        (s.plane r p).closed d (recvRecord d.recv d.hdr.src d.hdr.tag st fc d.hdr.len d.got fwd) ∧
      (d.ack = true → r = d.hdr.dst → (closeDelivery s r p d st fc fwd).Due (.sendAcknowledgement
        { rank := d.hdr.src, job := d.hdr.job, sid := d.hdr.sid, dst := d.hdr.dst, fin := true, status := 0, fcode := 0 })) := by
  let u := completeFlag (s.modPlane r p (fun pl => { pl with deliveries := pl.deliveries.filter (fun e => decide (e.did ≠ d.did)) }))
    r p d.recv.flag d.recv.id (recvRecord d.recv d.hdr.src d.hdr.tag st fc d.hdr.len d.got fwd)
  let v := if d.ack then answer u r d.hdr true stOK 0 else u
  have hu : u.plane r p = (s.plane r p).closed d (recvRecord d.recv d.hdr.src d.hdr.tag st fc d.hdr.len d.got fwd) :=
    (State.modPlane_plane _ r p _).trans (by rw [State.modPlane_plane]; rfl)
  have hv : OnlyDue u v := by
    by_cases ha : d.ack
    · exact (show v = _ from if_pos ha) ▸ answer_onlyDue u r d.hdr true stOK 0
    · exact (show v = _ from if_neg ha) ▸ OnlyDue.refl u
  have hw : OnlyDue v (closeDelivery s r p d st fc fwd) := wakeSpill_onlyDue v r p
  refine ⟨hw.mem_eq.trans hv.mem_eq, by rw [hw.plane_eq, hv.plane_eq, hu], fun ha hr => hw.2 _ ?_⟩
  rw [show v = _ from if_pos ha, answer, if_neg (not_not.2 hr)]
  exact emitNet_due _ _ _ _ _

theorem exec_deliveryComplete {s : State} {r p did : Nat} {d : Delivery} (hwf : (Instr.deliveryComplete r p did).wf = true)
    (hd : (s.plane r p).delivery did = some d) (hf : d.fin = none) (hp : d.pulling = false) (hn : d.data = []) (hw : d.fwd = none) :
    exec (.deliveryComplete r p did) s = .next (closeDelivery s r p d d.status 0 15) := by
  have e : exec (.deliveryComplete r p did) s = execDeliveryComplete r p did s := rfl
  rw [e, execDeliveryComplete, runEvent_ok hwf]
  simp [hd, finishDelivery, hf, hp, hn, hw]

theorem Delivery.status_eq (d : Delivery) :
    d.status = if d.recv.cap < d.hdr.len ∨ d.got < d.want then 1 else if d.stubbed then 3 else 0 := rfl

/-! ## Pulls at the sender (R75, R77, R84) -/

section
variable {s : State} {q : Pull} (hwf : (Instr.pullRequest q).wf = true) (he : epOf q.rank < 0x400)
include hwf he

theorem exec_pullRequest_fenced (hf : (s.tile q.rank).fenced = true) : exec (.pullRequest q) s = .next (pullFails s q 6 0) := by
  have e : exec (.pullRequest q) s = execPullRequest q s := rfl
  rw [e, execPullRequest, runEvent_ok hwf, if_neg (Nat.not_le.2 he), if_pos hf]
  rfl

theorem exec_pullRequest_served {p : Nat} {sd : Send} (hf : (s.tile q.rank).fenced = false)
    (hp : planeOfSend (s.tile q.rank) q.sid = some p) (hd : (s.plane q.rank p).diverted = false)
    (hs : (s.plane q.rank p).send q.sid = some sd) : exec (.pullRequest q) s = .next (pullFrom s p sd q) := by
  have e : exec (.pullRequest q) s = execPullRequest q s := rfl
  rw [e, execPullRequest, runEvent_ok hwf, if_neg (Nat.not_le.2 he), if_neg (by simp [hf])]
  simp [servePull, hp, hd, hs]

end

/-! A pull brings next what stands ready and the queue to the receiver has room for. -/

section
variable {s : State} {p n : Nat} {sd : Send} {q : Pull} {fin : Bool}
  (hn : n = min (sd.onHand q.want - q.done) (64 * ((queueRoom s q.rank q.dst).getD q.want)))
  (hfin : fin = sd.pulledOut q.want (q.done + n))
include hn hfin

theorem pullFrom_waits (h : n = 0 ∧ fin = false ∨ sendBytes s q.rank p sd q.done n = .error .wait) :
    pullFrom s p sd q = emitOnce s (.pullRequest q) := by
  unfold pullFrom
  dsimp only
  rw [← hn, ← hfin]
  split
  · rfl
  next h0 => rw [h.resolve_left h0]

theorem pullFrom_faulted {fn : Nat} (h0 : ¬ (n = 0 ∧ fin = false)) (h : sendBytes s q.rank p sd q.done n = .error (.faulted fn)) :
    pullFrom s p sd q = pullFails (withSend s q.rank q.sid (onCopy q.dst (SendCopy.finish 7 0x13))) q 7 0x13 := by
  unfold pullFrom
  dsimp only
  rw [← hn, ← hfin, if_neg h0, h]
  rfl

theorem pullFrom_brings {b : List Byte} (h0 : ¬ (n = 0 ∧ fin = false)) (h : sendBytes s q.rank p sd q.done n = .ok b) :
    pullFrom s p sd q = if fin = true then
        pulled (withSend (sendSeen s q.rank sd q.done n) q.rank q.sid (onCopy q.dst (SendCopy.finish (if sd.eager then 3 else 0) 0))) q
          (s.plane q.rank p).regs.myrank b true
      else emit (pulled (sendSeen s q.rank sd q.done n) q (s.plane q.rank p).regs.myrank b false)
        (.pullRequest { q with done := q.done + n }) := by
  unfold pullFrom
  dsimp only
  rw [← hn, ← hfin, if_neg h0, h]
  rfl

end

/-- The reading of a send's bytes leaves memory and what is due. -/
theorem sendSeen_frame (s : State) (r : Nat) (sd : Send) (i n : Nat) :
    (sendSeen s r sd i n).mem = s.mem ∧ (sendSeen s r sd i n).agenda = s.agenda := by
  unfold sendSeen
  split
  · exact ⟨rfl, rfl⟩
  · obtain h | ⟨f, h⟩ := tsSeen_eq s r pathN (sd.addr + i) n <;> rw [h] <;> exact ⟨rfl, rfl⟩

/-- R75, R93: where no write races and no speculation is open, a send's bytes are those of its buffer. -/
theorem sendBytes_plain {s : State} {r p i n : Nat} {sd : Send} {b : List Byte} (h4 : sd.kind ≠ 4) (h6 : sd.kind ≠ 6)
    (hst : (s.tile r).stale = []) (hsp : (s.plane r p).spec = none) (h : sendBytes s r p sd i n = .ok b) :
    b = memRead s.mem (tsAddr r (sd.addr + i)) n := by
  have hbyte (a : Nat) : tsByte s r p pathN a = memGet s.mem (tsAddr r a) := by simp [tsByte, oldGran, hst, hsp]
  have hbytes : tsBytes s r p pathN (sd.addr + i) n = memRead s.mem (tsAddr r (sd.addr + i)) n := by
    refine List.ext_getElem? (fun k => ?_)
    by_cases hk : k < n
    · rw [tsBytes_getElem? _ _ _ _ _ hk, memRead_getElem? _ _ _ _ hk, hbyte]
      simp only [tsAddr, Nat.add_assoc]
    · rw [List.getElem?_eq_none (by rw [tsBytes_length]; omega), List.getElem?_eq_none (by rw [memRead_length]; omega)]
  rw [sendBytes, if_neg (by simp [h4, h6]), engineRead] at h
  split at h
  next h0 =>
    injection h with h
    rw [← h, h0]
    rfl
  · split at h
    · cases h
    · split at h
      · injection h with h
        rw [← h, hbytes]
      · cases h

/-! ## What a pull brings (R77, R82) -/

/-- Lines that leave for a delivery are due there. -/
theorem foldl_emitNet_due (l : List Nat) (src r : Nat) (f : Nat → Nat) (ev : Instr) (s : State) (h : l ≠ []) :
    (l.foldl (fun s i => emitNet s src r (f i) ev) s).Due ev := by
  cases l with
  | nil => exact absurd rfl h
  | cons i l =>
    obtain ⟨-, hd⟩ := foldl_onlyDue (fun s i => emitNet_onlyDue s src r (f i) ev) l (emitNet s src r (f i) ev)
    exact hd _ (emitNet_due s src r (f i) ev)

/-- A delivery to which a pull has brought bytes. -/
def Delivery.fed (d : Delivery) (b : List Byte) (last : Bool) : Delivery := { d with data := d.data ++ b, pulling := !last }

/-- Bytes of a pull leave: the delivery has them on hand, and their lines are due, or with no byte its end. -/
theorem pipe_spec (s : State) (src r p : Nat) (d : Delivery) (b : List Byte) (last : Bool) :
    OnlyDue (putDelivery s r p (d.fed b last)) (pipe s src r p d b last) ∧
      (b ≠ [] → (pipe s src r p d b last).Due (.payloadLineLands r p d.did)) ∧
      (b = [] → last = true → (pipe s src r p d b last).Due (.deliveryComplete r p d.did)) := by
  let a := d.recv.addr + d.got + d.data.length
  let n := if b = [] then 0 else (a % 64 + b.length + 63) / 64
  let u := (List.range n).foldl (fun s i => emitNet s src r (if 64 * i < b.length then 64 else 0) (.payloadLineLands r p d.did))
    (putDelivery s r p (d.fed b last))
  have hu : OnlyDue (putDelivery s r p (d.fed b last)) u := foldl_onlyDue (fun s i => emitNet_onlyDue s _ _ _ _) _ _
  have e : pipe s src r p d b last = if last && decide (b = []) then emitNet u src r 0 (.deliveryComplete r p d.did) else u := rfl
  rw [e]
  refine ⟨?_, fun hb => ?_, fun hb hl => ?_⟩
  · split
    · exact hu.trans (emitNet_onlyDue u _ _ _ _)
    · exact hu
  · rw [if_neg (by simp [hb])]
    refine foldl_emitNet_due _ src r (fun i => if 64 * i < b.length then 64 else 0) _ _ ?_
    have hpos := List.length_pos_iff.2 hb
    have hn : n = (a % 64 + b.length + 63) / 64 := if_neg hb
    simp only [ne_eq, List.range_eq_nil]
    omega
  · rw [if_pos (by simp [hb, hl])]
    exact emitNet_due u _ _ _ _

theorem putDelivery_partnerOf (s : State) (r p q o : Nat) (d : Delivery) : partnerOf (putDelivery s r p d) q o = partnerOf s q o := by
  refine partnerOf_congr (fun x y => ?_) o
  rw [putDelivery, modPlane_plane_ite]
  split
  next h =>
    obtain ⟨rfl, h⟩ := h
    have ho : s.plane x y = s.plane x p := by simp only [State.plane, Tile.pl, h]
    rw [ho]
    exact ⟨rfl, rfl⟩
  · exact ⟨rfl, rfl⟩

theorem OnlyDue.partnerOf_eq {s t : State} (h : OnlyDue s t) (r p : Nat) : partnerOf t r p = partnerOf s r p :=
  partnerOf_congr (fun x o => by rw [h.plane_eq]; exact ⟨rfl, rfl⟩) p

/-- Without a DUAL partner the bytes of a pull go to the delivery that asked, alone. -/
theorem pulled_eq {s : State} {q : Pull} {src k : Nat} {b : List Byte} {fin : Bool} {d : Delivery}
    (hk : planeOfDelivery (s.tile q.dst) q.did = some k) (hp : partnerOf s q.dst k = none)
    (hd : (s.plane q.dst k).delivery q.did = some d) : pulled s q src b fin = pipe s q.rank q.dst k d b fin := by
  have hpipe : partnerOf (pipe s q.rank q.dst k d b fin) q.dst k = none := by
    rw [(pipe_spec s q.rank q.dst k d b fin).1.partnerOf_eq, putDelivery_partnerOf, hp]
  simp [pulled, hk, hd, hpipe]

/-! ## Transfers that the transport abandons (R84, R150) -/

section
variable {s : State} {a : Ack} (hwf : (Instr.transportAbandon a).wf = true)
include hwf

theorem exec_transportAbandon : exec (.transportAbandon a) s = .next (abandonTransfer s a) := by
  have e : exec (.transportAbandon a) s = execTransportAbandon a s := rfl
  rw [e, execTransportAbandon, runEvent_ok hwf]

/-- A transfer of which nothing travels over Ultra Ethernet is not abandoned. -/
theorem exec_transportAbandon_fabric (h : ∀ d ∈ s.agenda, overUet s d.ev = false) : exec (.transportAbandon a) s = .next s := by
  have h1 : s.agenda.any (fun d => isTransfer s a d.ev && overUet s d.ev) = false := by
    rw [List.any_eq_false]
    intro d hd
    simp [h d hd]
  have h2 : s.agenda.findSome? (fun d => if isRequest a d.ev && overUet s d.ev then requestOf d.ev else none) = none := by
    rw [List.findSome?_eq_none_iff]
    intro d hd
    simp [h d hd]
  have h3 : s.agenda.findSome? (fun d => if overUet s d.ev then searchStep a d.ev else none) = none := by
    rw [List.findSome?_eq_none_iff]
    intro d hd
    simp [h d hd]
  rw [exec_transportAbandon hwf, abandonTransfer, h1, h2, h3]
  rfl

theorem exec_transportAbandon_transfer {d : Due} (hd : d ∈ s.agenda) (ht : isTransfer s a d.ev = true) (hu : overUet s d.ev = true) :
    exec (.transportAbandon a) s = .next (receiverFails (senderFails (dropDue s (isTransfer s a)) a) a) := by
  rw [exec_transportAbandon hwf, abandonTransfer, if_pos (List.any_eq_true.2 ⟨d, hd, by simp [ht, hu]⟩)]

theorem exec_transportAbandon_request {q : Req} (h : ∀ d ∈ s.agenda, isTransfer s a d.ev = true → overUet s d.ev = false)
    (hq : s.agenda.findSome? (fun d => if isRequest a d.ev && overUet s d.ev then requestOf d.ev else none) = some q) :
    exec (.transportAbandon a) s = .next (emit (dropDue s (isRequest a))
      (.vaultReply { req := q, status := 7, fcode := 0x07, data := [], done := 0, home := 0 })) := by
  have h1 : s.agenda.any (fun d => isTransfer s a d.ev && overUet s d.ev) = false := by
    rw [List.any_eq_false]
    intro d hd
    cases ht : isTransfer s a d.ev
    · simp
    · simp [h d hd ht]
  rw [exec_transportAbandon hwf, abandonTransfer, h1, hq]
  rfl

end

/-- A step that is due without those of a kind is due and not of it. -/
theorem mem_dropDue {s : State} {f : Instr → Bool} {d : Due} : d ∈ (dropDue s f).agenda ↔ d ∈ s.agenda ∧ f d.ev = false := by
  simp [dropDue]

theorem senderFails_eq {s : State} {a : Ack} {p : Nat} {sd : Send} {c : SendCopy} (he : epOf a.rank < 0x400)
    (hp : planeOfSend (s.tile a.rank) a.sid = some p) (hs : (s.plane a.rank p).send a.sid = some sd) (hc : openCopy sd a.dst = some c) :
    senderFails s a = withSend (abandonFrom s a.rank (s.plane a.rank p) sd c) a.rank a.sid (onCopy a.dst (SendCopy.finish 7 0x07)) := by
  rw [senderFails, if_neg (Nat.not_le.2 he)]
  simp [senderPlane, hp, hs, hc, stFAULT, fcLINKERR]

/-- Settles O49. Each step in the cases of its definition; what follows a line that has landed changes no memory and leaves the
delivery where the line has left it, though a forward may move every send of the plane on (LandedKept). -/
theorem deliverySteps : Obligations.DeliverySteps := by
  unfold Obligations.DeliverySteps
  refine ⟨?lands, ?completes, ?pulls, ?onHand, fun s r p i n sd b h4 h6 hst hsp h => sendBytes_plain h4 h6 hst hsp h, ?brings, ?abandons,
    fun a s p sd c he hp hs hc => ⟨_, senderFails_eq he hp hs hc, rfl, fun _ => rfl⟩⟩
  case lands =>
    intro s r p did n a d hwf hd hne hdr ha hn
    subst ha
    rw [← Delivery.line64_length] at hn
    subst hn
    have hexec := exec_payloadLineLands hwf hd hne
    refine ⟨fun hw => ?_, fun fn hw => ?_, fun hw hs => ⟨_, hexec, landLine_spec hd hne hdr hw hs⟩⟩
    · obtain ⟨t, ht, honly, hdue⟩ := landLine_wait hdr hw
      exact ⟨t, by rw [hexec, ht], hdue, by rw [honly.1], sameMem_of_mem_eq honly.mem_eq⟩
    · rw [hexec, landLine_faulted hdr hw]
  case completes =>
    intro s r p did d hwf hd hf hp hn hw hfl hb
    obtain ⟨hmem, hplane, hack⟩ := closeDelivery_spec s r p d d.status 0 15
    refine ⟨_, exec_deliveryComplete hwf hd hf hp hn hw, sameMem_of_mem_eq hmem, ?_, ?_, hack⟩
    · rw [hplane, ← Plane.delivery_did hd]
      exact Plane.closed_delivery _ _ _
    · have hflag : ((s.plane r p).closed d
          (recvRecord d.recv d.hdr.src d.hdr.tag d.status 0 d.hdr.len d.got 15)).regs.fl d.recv.flag = _ :=
        Plane.complete_flag _ hb hfl
      rw [FlagSet, hplane, hflag]
      exact ⟨rfl, rfl, rfl⟩
  case pulls =>
    intro q s hwf he
    refine ⟨exec_pullRequest_fenced hwf he, fun hf p sd hp hd hs n fin hn hfin => ?_⟩
    have hexec := exec_pullRequest_served hwf he hf hp hd hs
    refine ⟨fun h => ?_, fun fn h0 h => ?_, fun b hb => ?_⟩
    · rw [hexec, pullFrom_waits hn hfin h]
      exact ⟨_, rfl, emitOnce_due _ _, emitOnce_tiles _ _, sameMem_of_mem_eq (emitOnce_mem _ _)⟩
    · rw [hexec, pullFrom_faulted hn hfin h0 h]
    · obtain ⟨hm, hag⟩ := sendSeen_frame s q.rank sd q.done n
      refine ⟨sendSeen s q.rank sd q.done n, sameMem_of_mem_eq hm, hag, fun h => ?_, fun h hn0 => ?_⟩
      · rw [hexec, pullFrom_brings hn hfin (by simp [h]) hb, if_pos h]
      · rw [hexec, pullFrom_brings hn hfin (by simp [hn0]) hb, if_neg (by simp [h])]
        exact ⟨_, rfl, emit_due _ _, rfl⟩
  case onHand =>
    intro sd w k
    refine ⟨fun h4 h6 => ?_, fun h4 hh => ?_, fun h6 hh => ?_⟩
    · simp [Send.onHand, Send.pulledOut, h4, h6]
    · simp [Send.onHand, Send.pulledOut, h4, hh]
    · simp [Send.onHand, Send.pulledOut, h6, hh]
  case brings =>
    intro s q src k b fin d hk hp hd
    have hdid : d.did = q.did := Plane.delivery_did hd
    obtain ⟨honly, hlines, hend⟩ := pipe_spec s q.rank q.dst k d b fin
    rw [pulled_eq hk hp hd, ← hdid]
    refine ⟨?_, hlines, hend⟩
    rw [honly.plane_eq]
    exact putDelivery_delivery (e := d.fed b fin) (hdid ▸ hd)
  case abandons =>
    intro a s hwf
    refine ⟨exec_transportAbandon_fabric hwf, fun d hd ht hu => ?_, fun h q hq => ?_⟩
    · exact ⟨_, exec_transportAbandon_transfer hwf hd ht hu, rfl, fun _ => rfl, fun e he => (mem_dropDue.1 he).2,
        fun e he hf => mem_dropDue.2 ⟨he, hf⟩⟩
    · refine ⟨_, exec_transportAbandon_request hwf h hq, rfl, fun _ => rfl, emit_due _ _, fun d hd hr => ?_⟩
      obtain hd | hd := List.mem_append.1 hd
      · exact absurd hr (by simp [(mem_dropDue.1 hd).2])
      · rw [List.mem_singleton.1 hd]

end Sys2Proof.Machine
end

section
/-! PROOFS. The message words (R70, R73, R75, R83, R85, R87, R230 to R234). -/

namespace Sys2Proof.Machine

/-! ## The fields of a status record (Table 4.5) -/

theorem RecF.bits_toNat (f : RecF) : f.bits.toNat = f.peer % 2 ^ 24 * 2 ^ 104 + f.group % 256 * 2 ^ 96 + f.tag % 65536 * 2 ^ 80 +
    f.status % 16 * 2 ^ 76 + f.kind % 16 * 2 ^ 72 + f.fcode % 256 * 2 ^ 64 + min f.length (2 ^ 32 - 1) * 2 ^ 32 +
    f.aux % 16 * 2 ^ 28 + f.dlen % 2 ^ 25 := by
  rw [RecF.bits, BitVec.toNat_ofNat]
  exact Nat.mod_eq_of_lt (by omega)

theorem RecF.bits_status (f : RecF) : recStatus f.bits = f.status % 16 := by
  rw [recStatus, bitsHL, RecF.bits_toNat]
  omega

theorem RecF.bits_kind (f : RecF) : recKind f.bits = f.kind % 16 := by
  rw [recKind, bitsHL, RecF.bits_toNat]
  omega

theorem RecF.bits_fcode (f : RecF) : recFcode f.bits = f.fcode % 256 := by
  rw [recFcode, bitsHL, RecF.bits_toNat]
  omega

theorem RecF.bits_aux (f : RecF) : recAux f.bits = f.aux % 16 := by
  rw [recAux, bitsHL, RecF.bits_toNat]
  omega

/-- A field of a record, where its digits are known. -/
theorem extractLsb'_of_digits {q : Quad} {i w x : Nat} (h : q.toNat / 2 ^ i % 2 ^ w = x % 2 ^ w) :
    q.extractLsb' i w = BitVec.ofNat w x := by
  apply BitVec.eq_of_toNat_eq
  rw [BitVec.extractLsb'_toNat, Nat.shiftRight_eq_div_pow, h, BitVec.toNat_ofNat]

theorem RecF.bits_peer (f : RecF) : f.bits.extractLsb' 104 24 = BitVec.ofNat 24 f.peer :=
  extractLsb'_of_digits (by rw [RecF.bits_toNat]; omega)

theorem RecF.bits_group (f : RecF) : f.bits.extractLsb' 96 8 = BitVec.ofNat 8 f.group :=
  extractLsb'_of_digits (by rw [RecF.bits_toNat]; omega)

theorem RecF.bits_tag (f : RecF) : f.bits.extractLsb' 80 16 = BitVec.ofNat 16 f.tag :=
  extractLsb'_of_digits (by rw [RecF.bits_toNat]; omega)

theorem RecF.bits_length {f : RecF} (h : f.length < 2 ^ 32) : f.bits.extractLsb' 32 32 = BitVec.ofNat 32 f.length :=
  extractLsb'_of_digits (by rw [RecF.bits_toNat]; omega)

theorem RecF.bits_dlen (f : RecF) : f.bits.extractLsb' 0 25 = BitVec.ofNat 25 f.dlen :=
  extractLsb'_of_digits (by rw [RecF.bits_toNat]; omega)

/-! ## Flags -/

theorem freeFlag_ok {s : State} {fn : Nat} (h : (s.regs.fl fn).bound = none) : freeFlag s fn = .ok () := by
  simp [freeFlag, h, orStall]

theorem freeFlag_stall {s : State} {fn : Nat} (h : (s.regs.fl fn).bound ≠ none) : freeFlag s fn = .error .stall := by
  cases hb : (s.regs.fl fn).bound with
  | none => exact absurd hb h
  | some id => simp [freeFlag, hb, orStall, stallW]

theorem Regs.setFl_fl (r : Regs) {fn : Nat} (f : Flag) (h : fn < 64) : (r.setFl fn f).fl fn = f := by
  simp [Regs.setFl, Regs.fl, h]

theorem Regs.setFl_flag_ne (r : Regs) {fn k : Nat} (f : Flag) (h : k ≠ fn) : (r.setFl fn f).flag[k]? = r.flag[k]? := by
  simp [Regs.setFl, Ne.symm h]

/-- R17, R87: a completion changes of the registers the flag alone. -/
theorem Plane.complete_regs {pl : Plane} {fn id : Nat} (q : Quad) (h : (pl.regs.fl fn).bound = some id) :
    (pl.complete fn id q).regs = pl.regs.setFl fn { on := true, status := q, bound := none, last := id, soft := false } := by
  unfold Plane.complete
  rw [if_neg (not_not.2 h)]
  dsimp only
  split
  · split <;> rfl
  · rfl

/-- A change of the context plane, by its place. -/
theorem modPlane_cur_ctx (s : State) (f : Plane → Plane) : (s.modPlane s.cur s.ctxP f).ctx = f s.ctx := State.modCtx_ctx s f

/-! ## Operations that are issued (R17, R220) -/

/-- The state that has given out an operation number. -/
def State.numbered (s : State) : State := { s with nextId := s.nextId + 1 }

/-- The context after a flag was bound. -/
theorem bindFlag_ctx (s : State) (fn id : Nat) : (bindFlag s fn id).ctx =
    { s.ctx with regs := s.regs.setFl fn { s.regs.fl fn with on := false, bound := some id } } := State.modRegs_ctx s _

theorem bindFlag_regs (s : State) (fn id : Nat) :
    (bindFlag s fn id).regs = s.regs.setFl fn { s.regs.fl fn with on := false, bound := some id } := State.modRegs_regs s _

theorem bindFlag_mon (s : State) (fn id : Nat) : (bindFlag s fn id).mon = s.mon := State.modRegs_mon s _

theorem bindFlag_ctxP (s : State) (fn id : Nat) : (bindFlag s fn id).ctxP = s.ctxP := State.modRegs_ctxP s _

theorem bindFlag_bank (s : State) (fn id : Nat) : (bindFlag s fn id).bank = s.bank := by
  have hm : (bindFlag s fn id).curTile.mbank = s.curTile.mbank := by
    rw [bindFlag, modRegs_curTile]
    exact Tile.setPl_mbank _ _ _
  rw [State.bank, bindFlag_mon, hm, bindFlag_regs]
  rfl

section
variable {s v : State} (h : SpecMoves s.numbered v)
include h

/-- A number given out and a flag bound to it, after at most a change of the speculation, are what the frame of a word that starts an
operation allows. -/
theorem engineFrame_bindFlag {fn : Nat} (hf : fn < 64) : EngineFrame s (bindFlag v fn s.nextId) [fn] := by
  obtain ⟨⟨helse, hid, hag⟩, hm, hb, st, sp, ht, -⟩ := h
  have hregs : (bindFlag v fn s.nextId).regs = s.regs.setFl fn { s.regs.fl fn with on := false, bound := some s.nextId } := by
    rw [bindFlag_regs, regs_of_specMoves ht]
    rfl
  refine ⟨SameElsewhere.trans (t := v) helse (sameOutside_modTile v _).1, sameMem_of_mem_eq hm, hag, hid, hb, ?_, ?_, ?_, ?_⟩
  · rw [bindFlag_bank, bank_of_specMoves ht]
    rfl
  · rw [hregs]
    rfl
  · intro k hk
    rw [List.mem_singleton.1 hk, hregs, Regs.setFl_fl _ _ hf]
  · intro k hk
    rw [hregs, Regs.setFl_flag_ne _ _ (fun e => hk (List.mem_singleton.2 e))]

theorem SpecMoves.task_eq : v.ctx.task = s.ctx.task := by
  obtain ⟨-, -, -, st, sp, ht, -⟩ := h
  rw [ctx_of_specMoves ht]
  rfl

theorem SpecMoves.tsPhys_eq (a : Nat) : tsPhys v a = tsPhys s a := by
  obtain ⟨-, -, -, st, sp, ht, -⟩ := h
  rw [tsPhys, mon_of_specMoves ht, regs_of_specMoves ht]
  rfl

end

theorem bindFlag_tsPhys (s : State) (fn id a : Nat) : tsPhys (bindFlag s fn id) a = tsPhys s a := by
  rw [tsPhys, bindFlag_mon, bindFlag_regs]
  rfl

/-! ## Checks of buffers and rooms -/

/-- The trap of a buffer that reaches past the end of the task's tile store (R19): TSBOUND, with its address. -/
def badBuffer (t : Nat) : TrapInfo := { cause := 0x06, info := BitVec.ofNat 64 t }

/-- The trap of a word whose operands are not allowed: ILLEGAL, with the word (R231). -/
def badWord (i : Instr) : TrapInfo := { cause := 0x01, info := BitVec.ofNat 64 (i.word % 2 ^ 32) }

theorem needBuffer_ok {s : State} {t n : Nat} (h : BufferOk s t n) : needBuffer s t n = .ok () := by
  rw [needBuffer]
  split
  · rfl
  next h0 => exact needRange_ok (h.resolve_left h0)

theorem needBuffer_trap {s : State} {t n : Nat} (h : ¬ BufferOk s t n) :
    needBuffer s t n = .error (.trap (badBuffer t)) := by
  obtain ⟨h0, hr⟩ := not_or.1 h
  simp [needBuffer, h0, needRange, need, hr, trapW, cTSBOUND, badBuffer]

theorem heldRoom_ok {s : State} (h : s.ctx.spec = none ∨ (s.ctx.sends.filter (fun sd => sd.spec)).length < 16) : heldRoom s = .ok () := by
  rcases h with h | h <;> simp [heldRoom, orStall, specOpen, h]

/-! ## Sends (R231) -/

/-- What the reading of a send's buffer tracks leaves a speculation open or not. -/
theorem track_specOpen (s : State) (a n : Nat) : specOpen (track s s.cur s.ctxP a n) = specOpen s := by
  unfold track
  split
  · rfl
  · rw [specOpen, modPlane_cur_ctx, specOpen]
    cases h : s.ctx.spec with
    | none => simp [h]
    | some sp => rfl

section
variable {s : State} {kind fn group tag : Nat} {l a : Word} {ds : List Nat} {i : Instr}

theorem sendWord_range (h : ¬ BufferOk s a.toNat (capLen l.toNat)) :
    sendWord s kind fn group tag l a ds i = .error (.trap (badBuffer a.toNat)) := by
  simp only [sendWord, needBuffer_trap h, bind, Except.bind]

variable (h : BufferOk s a.toNat (capLen l.toNat))
include h

theorem sendWord_tag (ht : tag = 0xFFFF) : sendWord s kind fn group tag l a ds i =
    .error (.trap (badWord i)) := by
  simp only [sendWord, needBuffer_ok h, ht, if_true, illegal, trapW, cILLEGAL, badWord, bind, Except.bind]

theorem sendWord_long (ht : tag ≠ 0xFFFF) (hk : kind = 2) (hl : s.ctx.task.eager < l.toNat) : sendWord s kind fn group tag l a ds i =
    .error (.trap (badWord i)) := by
  simp only [sendWord, needBuffer_ok h, ht, hk, hl, and_self, if_true, if_false, illegal, trapW, cILLEGAL, badWord, bind, Except.bind]

/-- The state in which a send's buffer is tracked. -/
def sendTracked (s : State) (l a : Word) : State :=
  track s.numbered s.numbered.cur s.numbered.ctxP (tsPhys s.numbered a.toNat) (capLen l.toNat)

theorem sendWord_ok (ht : tag ≠ 0xFFFF) (hk : ¬ (kind = 2 ∧ s.ctx.task.eager < l.toNat)) (hr : heldRoom s = .ok ()) :
    sendWord s kind fn group tag l a ds i = .ok (addSend (bindFlag (sendTracked s l a) fn s.nextId)
      (newSend (sendTracked s l a) s.nextId kind fn group tag l.toNat a.toNat ds)) := by
  simp only [sendWord, needBuffer_ok h, ht, hk, hr, if_false, bind, Except.bind]
  rfl

end

section
variable {i : Instr} {s : State} {g kind fn group tag : Nat} {l a : Word} {ds : State → List Nat}
  (he : exec i s = runWord 2 g s (fun s => sendWord s kind fn group tag l a (ds s) i)) (hrun : Runs s g)
include he hrun

theorem sends_range (h : ¬ BufferOk s a.toNat (capLen l.toNat)) : TrapsM i s 0x06 a.toNat := by
  rw [TrapsM, he]
  exact runWord_trap (t := badBuffer a.toNat) hrun (sendWord_range h)

variable (h : BufferOk s a.toNat (capLen l.toNat))
include h

theorem sends_tag (ht : tag = 0xFFFF) : TrapsM i s 0x01 (i.word % 2 ^ 32) := by
  rw [TrapsM, he]
  exact runWord_trap (t := badWord i) hrun (sendWord_tag h ht)

theorem sends_long (ht : tag ≠ 0xFFFF) (hk : kind = 2) (hl : s.ctx.task.eager < l.toNat) : TrapsM i s 0x01 (i.word % 2 ^ 32) := by
  rw [TrapsM, he]
  exact runWord_trap (t := badWord i) hrun (sendWord_long h ht hk hl)

/-- A send word that passes its checks gives the message engine its send. -/
theorem sends_ok (hf : fn < 64) (ht : tag ≠ 0xFFFF) (hk : ¬ (kind = 2 ∧ s.ctx.task.eager < l.toNat)) (hr : heldRoom s = .ok ()) :
    Sends i s kind fn group tag l a ds := by
  have hmove : SpecMoves s.numbered (sendTracked s l a) := track_specMoves s.numbered _ _
  have hopen : specOpen (sendTracked s l a) = s.ctx.spec.isSome := track_specOpen s.numbered _ _
  have hexec := he.trans (runWord_ok hrun (sendWord_ok h ht hk hr))
  refine ⟨_, _, hexec, engineFrame_bindFlag hmove hf, rfl, rfl, rfl, rfl, rfl, rfl, rfl,
    hmove.tsPhys_eq a.toNat, ?_, ?_, hopen, rfl, ?_⟩
  · simp [newSend, Function.comp_def]
  · simp [newSend, hmove.task_eq]
  · simp [newSend, hmove.task_eq]

end

section
variable {f : MS} {s : State} {m l a : Word}

theorem exec_send_reads (hb : (s.regs.fl f.fn).bound = none) (hm : readX s f.rd = .ok m) (hl : readX s f.xl = .ok l)
    (ha : readX s f.xa = .ok a) : exec (.send f) s =
      runWord 2 f.g s (fun s => sendWord s 1 f.fn (envGroup m) (envTag m) l a [envRank m] (.send f)) := by
  have e : exec (.send f) s = execSend f s := rfl
  rw [e, execSend]
  exact runWord_congr (by simp [freeFlag_ok hb, hm, hl, ha, bind, Except.bind])

theorem exec_sendr_reads (hb : (s.regs.fl f.fn).bound = none) (hm : readX s f.rd = .ok m) (hl : readX s f.xl = .ok l)
    (ha : readX s f.xa = .ok a) : exec (.sendr f) s = runWord 2 f.g s (fun u =>
      sendWord u 1 f.fn (routeOf s f.n / 2 ^ 24 % 256) (m.toNat % 65536) l a [routeOf u f.n % 2 ^ 24] (.sendr f)) := by
  have e : exec (.sendr f) s = execSendr f s := rfl
  rw [e, execSendr]
  exact runWord_congr (by simp [freeFlag_ok hb, hm, hl, ha, bind, Except.bind])

theorem exec_sendm_reads (hb : (s.regs.fl f.fn).bound = none) (hm : readX s f.rd = .ok m) (hl : readX s f.xl = .ok l)
    (ha : readX s f.xa = .ok a) : exec (.sendm f) s = runWord 2 f.g s (fun s =>
      sendWord s 2 f.fn (envGroup m) (envTag m) l a ((members s s.ctx.task.job (pkgOf s.regs.myrank) (envGroup m)).filter
        (fun d => decide (d ≠ s.regs.myrank))) (.sendm f)) := by
  have e : exec (.sendm f) s = execSendm f s := rfl
  rw [e, execSendm]
  exact runWord_congr (by simp [freeFlag_ok hb, hm, hl, ha, bind, Except.bind])

/-- A send word on a bound flag stalls (R17, R220). -/
theorem send_stalls (hrun : Runs s f.g) (hb : (s.regs.fl f.fn).bound ≠ none) :
    Stalls (.send f) s ∧ Stalls (.sendr f) s ∧ Stalls (.sendm f) s := by
  have e1 : exec (.send f) s = execSend f s := rfl
  have e2 : exec (.sendr f) s = execSendr f s := rfl
  have e3 : exec (.sendm f) s = execSendm f s := rfl
  refine ⟨?_, ?_, ?_⟩
  · rw [Stalls, e1, execSend]
    exact runWord_stall hrun (by simp only [freeFlag_stall hb, bind, Except.bind])
  · rw [Stalls, e2, execSendr]
    exact runWord_stall hrun (by simp only [freeFlag_stall hb, bind, Except.bind])
  · rw [Stalls, e3, execSendm]
    exact runWord_stall hrun (by simp only [freeFlag_stall hb, bind, Except.bind])

/-! ## Receives (R86, R232) -/

section
variable (fwd : Option Nat) (hm : readX s f.rd = .ok m) (hl : readX s f.xl = .ok l) (ha : readX s f.xa = .ok a)
  (hs : s.ctx.spec = none) (hb : (s.regs.fl f.fn).bound = none) (hbuf : BufferOk s a.toNat (capLen l.toNat))
include hm hl ha hs hb hbuf

theorem recvWord_full (hq : 128 ≤ s.ctx.prq.length) : recvWord s f fwd = .error .stall := by
  simp [recvWord, noSpec_ok hs, freeFlag_ok hb, hm, hl, ha, needBuffer_ok hbuf, orStall, Nat.not_lt.2 hq, stallW, bind, Except.bind]

/-- A receive that is posted, or refused for its group or its source (R70). -/
theorem recvWord_spec (hf : f.fn < 64) (hq : s.ctx.prq.length < 128) : ∃ u e, recvWord s f fwd =
      .ok (if recvOk u u.ctx.task.job u.regs.myrank e.src e.group then postRecv u u.cur u.ctxP e else endRecv u u.cur u.ctxP e 5) ∧
    EngineFrame s u [f.fn] ∧ e.id = s.nextId ∧ e.flag = f.fn ∧ e.src = m.toNat % 2 ^ 24 ∧ e.tag = bitsHL m.toNat 39 24 ∧
    e.group = bitsHL m.toNat 47 40 ∧ e.addr = tsPhys s a.toNat ∧ e.cap = min l.toNat 16777216 ∧ e.fwd = fwd := by
  let u := bindFlag s.numbered f.fn s.nextId
  let e : Recv := { id := s.nextId, flag := f.fn, src := envRank m, tag := envTag m, group := envGroup m, addr := tsPhys u a.toNat,
                    cap := capLen l.toNat, fwd := fwd, mv := u.ctx.task.bgroups, pv := phaseVec u.regs }
  refine ⟨u, e, ?_, engineFrame_bindFlag (SpecMoves.refl _) hf, rfl, rfl, rfl, rfl, rfl, bindFlag_tsPhys _ _ _ _, rfl, rfl⟩
  simp only [recvWord, noSpec_ok hs, freeFlag_ok hb, hm, hl, ha, needBuffer_ok hbuf, orStall, hq, decide_true, if_true, bind, Except.bind]
  rfl

end

end

theorem exec_recv_eq (f : MS) (s : State) : exec (.recv f) s = runWord 2 f.g s (fun s => recvWord s f none) := rfl

theorem exec_recvf_eq (f : MS) (s : State) : exec (.recvf f) s = runWord 2 f.g s (fun s => recvWord s f (some (routeOf s f.n))) := rfl

/-- A RECVF hands on to its routing register, a RECV to none (R86). -/
theorem exec_recvs_eq {f : MS} (s : State) {i : Instr} (hi : i = .recv f ∨ i = .recvf f) : ∃ fwd : State → Option Nat,
    exec i s = runWord 2 f.g s (fun s => recvWord s f (fwd s)) ∧ (i = .recv f → fwd s = none) ∧
    (i = .recvf f → fwd s = some (routeOf s f.n)) := by
  rcases hi with rfl | rfl
  · exact ⟨fun _ => none, exec_recv_eq f s, fun _ => rfl, nofun⟩
  · exact ⟨fun s => some (routeOf s f.n), exec_recvf_eq f s, nofun, fun _ => rfl⟩

/-! ## RCANCEL (R83, R233) -/

theorem exec_rcancel_eq (f : MF) (s : State) : exec (.rcancel f) s = execRcancel f s := rfl

section
variable {f : MF} {s : State} (hrun : Runs s f.g)
include hrun

theorem exec_rcancel_none (hs : s.ctx.spec = none)
    (h : s.ctx.prq.find? (fun e => decide ((s.regs.fl f.fn).bound = some e.id ∧ e.flag = f.fn)) = none) :
    exec (.rcancel f) s = .next s := by
  rw [exec_rcancel_eq, execRcancel]
  exact runWord_ok hrun (by simp only [noSpec_ok hs, h, bind, Except.bind])

theorem exec_rcancel_some {e : Recv} (hs : s.ctx.spec = none)
    (h : s.ctx.prq.find? (fun e => decide ((s.regs.fl f.fn).bound = some e.id ∧ e.flag = f.fn)) = some e) : exec (.rcancel f) s =
      .next (endRecv (s.modCtx (fun pl => { pl with prq := pl.prq.erase e })) s.cur s.ctxP e 2) := by
  rw [exec_rcancel_eq, execRcancel]
  exact runWord_ok hrun (by simp only [noSpec_ok hs, h, bind, Except.bind]; rfl)

end

/-- A receive that is taken back ends CANCELLED, and of the registers its flag alone changes. -/
theorem cancelRecv_spec {s : State} {e : Recv} {fn : Nat} (hf : fn < 64) (hb : (s.regs.fl fn).bound = some e.id) (he : e.flag = fn)
    {t : State} (ht : t = endRecv (s.modCtx (fun pl => { pl with prq := pl.prq.erase e })) s.cur s.ctxP e 2) :
    t.ctx.prq = s.ctx.prq.erase e ∧ (t.regs.fl fn).on = true ∧ (t.regs.fl fn).bound = none ∧ recStatus (t.regs.fl fn).status = 2 ∧
      SameOutside s t ∧ SameMem s t ∧ ∀ k, k ≠ fn → t.regs.flag[k]? = s.regs.flag[k]? := by
  subst he
  let u := s.modCtx (fun pl => { pl with prq := pl.prq.erase e })
  have hu : u.ctx = { s.ctx with prq := s.ctx.prq.erase e } := State.modCtx_ctx _ _
  have htu : t = u.modPlane u.cur u.ctxP (fun pl => pl.complete e.flag e.id (recvRecord e 0 0 2 0 0 0 15)) := by
    rw [ht, show u.ctxP = s.ctxP from State.modCtx_ctxP _ _]
    rfl
  have hctx : t.ctx = u.ctx.complete e.flag e.id (recvRecord e 0 0 2 0 0 0 15) := by rw [htu, modPlane_cur_ctx]
  have hregs : t.regs = s.regs.setFl e.flag
      { on := true, status := recvRecord e 0 0 2 0 0 0 15, bound := none, last := e.id, soft := false } := by
    rw [State.regs, hctx, Plane.complete_regs _ (by rw [hu]; exact hb), hu]
    rfl
  have hfl := Regs.setFl_fl s.regs
    { on := true, status := recvRecord e 0 0 2 0 0 0 15, bound := none, last := e.id, soft := false } hf
  refine ⟨?_, ?_, ?_, ?_, ?_, ?_, fun k hk => ?_⟩
  · rw [hctx, Plane.complete_prq, hu]
  · rw [hregs, hfl]
  · rw [hregs, hfl]
  · rw [hregs, hfl]
    exact RecF.bits_status _
  · rw [htu]
    exact SameOutside.trans (sameOutside_modTile s _) (sameOutside_modTile u _)
  · rw [htu]
    exact fun _ => rfl
  · rw [hregs, Regs.setFl_flag_ne _ _ hk]

/-! ## PROBE (R87, R234) -/

theorem exec_probe_eq (f : MXF) (s : State) : exec (.probe f) s = execProbe f s := rfl

section
variable {f : MXF} {s : State} {m : Word} (hrun : Runs s f.g) (hb : (s.regs.fl f.fn).bound = none) (hm : readX s f.rd = .ok m)
include hrun hb hm

theorem exec_probe_ran {u : State} (hu : u = bindFlag s.numbered f.fn s.nextId) : exec (.probe f) s =
    .next (if s.ctx.task.dual then pushDual u u.cur u.ctxP (.probe f.fn s.nextId m) else probeAt u u.cur u.ctxP f.fn s.nextId m) := by
  have hd : u.ctx.task = s.ctx.task := by
    rw [hu, bindFlag_ctx]
    rfl
  rw [← hd, hu, exec_probe_eq, execProbe]
  exact runWord_ok hrun (by simp only [freeFlag_ok hb, hm, bind, Except.bind]; rfl)

theorem probe_endsAtOnce (hf : f.fn < 64) (hd : s.ctx.task.dual = false) : EndsAtOnce (.probe f) s f.fn (probeRecord s.ctx m) := by
  let u := bindFlag s.numbered f.fn s.nextId
  have hexec := exec_probe_ran hrun hb hm (u := u) rfl
  rw [hd, if_neg Bool.false_ne_true] at hexec
  have hu : u.ctx = { s.ctx with regs := s.regs.setFl f.fn { s.regs.fl f.fn with on := false, bound := some s.nextId } } :=
    bindFlag_ctx s.numbered f.fn s.nextId
  have hrec : probeRecord (u.plane u.cur u.ctxP) m = probeRecord s.ctx m := by
    rw [show u.plane u.cur u.ctxP = u.ctx from rfl, hu]
    rfl
  have hbound : (u.ctx.regs.fl f.fn).bound = some s.nextId := by
    rw [hu]
    exact congrArg Flag.bound (Regs.setFl_fl s.regs _ hf)
  have hfl : (probeAt u u.cur u.ctxP f.fn s.nextId m).regs.fl f.fn =
      { on := true, status := probeRecord s.ctx m, bound := none, last := s.nextId, soft := false } := by
    rw [probeAt, hrec, completeFlag, State.regs, modPlane_cur_ctx]
    exact Plane.complete_flag _ hbound hf
  exact ⟨_, hexec, by rw [hfl], by rw [hfl], by rw [hfl]⟩

end

theorem fits_iff (src tag group : Nat) (h : Msg) : fits src tag group h = true ↔
    group = h.group ∧ (src = 0xFFFFFF ∨ src = h.src) ∧ (tag = 0xFFFF ∨ tag = h.tag) := decide_eq_true_iff

/-- What a PROBE finds: the first admitted message that fits, or nothing. -/
theorem probeRecord_spec {pl : Plane} {m : Word} {ok : Uq → Prop} (hok : ∀ u, ok u ↔ u.admitted = true ∧
      u.hdr.group = bitsHL m.toNat 47 40 ∧ (m.toNat % 2 ^ 24 = 0xFFFFFF ∨ m.toNat % 2 ^ 24 = u.hdr.src) ∧
      (bitsHL m.toNat 39 24 = 0xFFFF ∨ bitsHL m.toNat 39 24 = u.hdr.tag)) :
    ((∀ u ∈ pl.uq, ¬ ok u) → probeRecord pl m = 0) ∧
    (∀ l u r, pl.uq = l ++ u :: r → (∀ w ∈ l, ¬ ok w) → ok u → probeRecord pl m =
      RecF.bits { peer := u.hdr.src, group := u.hdr.group, tag := u.hdr.tag, status := 0, kind := 5, length := u.hdr.len, aux := 1 }) := by
  have hfit (u : Uq) : (u.admitted && fits (m.toNat % 2 ^ 24) (bitsHL m.toNat 39 24) (bitsHL m.toNat 47 40) u.hdr) = true ↔ ok u := by
    rw [Bool.and_eq_true, fits_iff, hok, eq_comm (a := u.hdr.group)]
  refine ⟨fun hno => ?_, fun l u r huq hl hu => ?_⟩
  · have hnone : pl.uq.find? (fun u => u.admitted && fits (m.toNat % 2 ^ 24) (bitsHL m.toNat 39 24) (bitsHL m.toNat 47 40) u.hdr) = none :=
      List.find?_eq_none.2 (fun u hu hc => hno u hu ((hfit u).1 hc))
    rw [probeRecord, hnone]
  · have hsome : pl.uq.find? (fun u => u.admitted && fits (m.toNat % 2 ^ 24) (bitsHL m.toNat 39 24) (bitsHL m.toNat 47 40) u.hdr) =
        some u := by
      rw [huq, List.find?_append, List.find?_eq_none.2 (fun w hw hc => hl w hw ((hfit w).1 hc)), List.find?_cons, (hfit u).2 hu]
      rfl
    rw [probeRecord, hsome]
    rfl

/-! ## Groups (R70) -/

theorem isMember_zero_iff (s : State) (job pkg rank : Nat) : isMember s job pkg 0 rank = true ↔
    rank % 4096 < 0x400 ∧ ∃ j, s.jobAt job (rank / 4096) = some j ∧ s.partOf rank = some j.part := by
  rw [isMember, if_pos rfl, jobTile, Bool.and_eq_true, decide_eq_true_eq, epOf, pkgOf]
  cases s.jobAt job (rank / 4096) <;> simp

theorem isMember_iff (s : State) (job pkg rank : Nat) {g : Nat} (hg : g ≠ 0) :
    isMember s job pkg g rank = true ↔ ∃ j, s.jobAt job pkg = some j ∧ rank ∈ ngetD j.groups g [] := by
  rw [isMember, if_neg hg, groupRanks]
  cases s.jobAt job pkg <;> simp

theorem recvOk_iff (s : State) (job me src g : Nat) : recvOk s job me src g = true ↔ isMember s job (me / 4096) g me = true ∧
    (src = 0xFFFFFF ∨ isMember s job (me / 4096) g src = true ∨ (g = 0 ∧ 0x400 ≤ src % 4096 ∧ src % 4096 < 0x500)) := by
  rw [recvOk, Bool.and_eq_true, Bool.or_eq_true, Bool.or_eq_true, decide_eq_true_eq, decide_eq_true_eq, or_assoc]
  exact Iff.rfl

/-- Settles O44. A word's checks in the order of its body; what it gives the message engine stands behind the frame of a word that
starts an operation (engineFrame_bindFlag). -/
theorem messageWords : Obligations.MessageWords := by
  unfold Obligations.MessageWords
  refine ⟨?sends, ?recvs, ?rcancel, ?probe, recvOk_iff, fun s job pkg rank =>
    ⟨isMember_zero_iff s job pkg rank, fun g hg => isMember_iff s job pkg rank hg⟩, ?record⟩
  case sends =>
    intro f s m l a hf hrun hm hl ha hroom
    have hr := heldRoom_ok hroom
    have hone {p : Prop} : ¬ (1 = 2 ∧ p) := fun h => absurd h.1 (by decide)
    refine ⟨send_stalls hrun, fun hb h => ?range, fun hb h =>
      ⟨fun ht => ?anyTag, fun ht => ⟨?send, fun hlong => ?long, fun hshort => ?sendm⟩, fun ht => ?sendr⟩⟩
    case range => exact ⟨sends_range (exec_send_reads hb hm hl ha) hrun h, sends_range (exec_sendr_reads hb hm hl ha) hrun h,
        sends_range (exec_sendm_reads hb hm hl ha) hrun h⟩
    case anyTag => exact ⟨sends_tag (exec_send_reads hb hm hl ha) hrun h ht, sends_tag (exec_sendm_reads hb hm hl ha) hrun h ht⟩
    case send => exact sends_ok (ds := fun _ => [envRank m]) (exec_send_reads hb hm hl ha) hrun h hf ht hone hr
    case long => exact sends_long (exec_sendm_reads hb hm hl ha) hrun h ht rfl hlong
    case sendm => exact sends_ok (exec_sendm_reads hb hm hl ha) hrun h hf ht (fun hk => absurd hk.2 (Nat.not_lt.2 hshort)) hr
    case sendr => exact sends_ok (ds := fun s => [routeOf s f.n % 2 ^ 24]) (exec_sendr_reads hb hm hl ha) hrun h hf ht hone hr
  case recvs =>
    intro f s m l a hf hrun hm hl ha hs hb hbuf
    refine ⟨fun hq => ⟨?_, ?_⟩, fun hq i hi => ?_⟩
    · rw [Stalls, exec_recv_eq]
      exact runWord_stall hrun (recvWord_full none hm hl ha hs hb hbuf hq)
    · rw [Stalls, exec_recvf_eq]
      exact runWord_stall hrun (recvWord_full (some (routeOf s f.n)) hm hl ha hs hb hbuf hq)
    obtain ⟨fwd, he, hnone, hsome⟩ := exec_recvs_eq s hi
    obtain ⟨u, e, hw, hframe, hid, hflag, hsrc, htag, hgroup, haddr, hcap, hfwd⟩ := recvWord_spec (fwd s) hm hl ha hs hb hbuf hf hq
    exact ⟨u, e, he.trans (runWord_ok hrun hw), hframe, hid, hflag, hsrc, htag, hgroup, haddr, hcap,
      fun h => hfwd.trans (hnone h), fun h => hfwd.trans (hsome h)⟩
  case rcancel =>
    intro f s hf hrun
    refine ⟨fun hs => ?_, fun hs hno => exec_rcancel_none hrun hs ?_, fun hs e he => ⟨_, exec_rcancel_some hrun hs he, ?_⟩⟩
    · rw [Stalls, exec_rcancel_eq, execRcancel]
      exact runWord_stall hrun (by simp only [noSpec_stall hs, bind, Except.bind])
    · refine List.find?_eq_none.2 (fun e he hc => ?_)
      obtain ⟨h1, h2⟩ := of_decide_eq_true hc
      exact (hno e he).elim (fun h => h h1) (fun h => h h2)
    · obtain ⟨h1, h2⟩ : (s.regs.fl f.fn).bound = some e.id ∧ e.flag = f.fn := by simpa using List.find?_some he
      exact cancelRecv_spec hf h1 h2 rfl
  case probe =>
    intro f s m hf hrun hm
    refine ⟨fun hb => ?_, fun hb hd => probe_endsAtOnce hrun hb hm hf hd,
      fun hb hd => ⟨_, engineFrame_bindFlag (SpecMoves.refl _) hf, ?_⟩⟩
    · rw [Stalls, exec_probe_eq, execProbe]
      exact runWord_stall hrun (by simp only [freeFlag_stall hb, bind, Except.bind])
    · rw [exec_probe_ran hrun hb hm rfl, if_pos hd]
  case record =>
    intro pl m ok hok
    obtain ⟨hnone, hfirst⟩ := probeRecord_spec (pl := pl) hok
    refine ⟨hnone, fun l u r huq hl hu => ?_⟩
    rw [hfirst l u r huq hl hu]
    exact ⟨RecF.bits_peer _, RecF.bits_group _, RecF.bits_tag _, RecF.bits_status _, RecF.bits_kind _, RecF.bits_fcode _,
      fun h => RecF.bits_length h, RecF.bits_aux _, RecF.bits_dlen _⟩

end Sys2Proof.Machine
end

section
/-! PROOFS. The flag and fence words (R94, R103, R228, R235, R247): what an FLCLR does to a COPYQ that waits for another flag. -/

namespace Sys2Proof.Machine

/-- A COPYQ that waits for flag 6. -/
def waitingCopy : CopyCmd := { id := 1, kind := 2, flag := 7, blk := 0, fk := some 6 }

/-- Tile 0 runs a task whose flag 6 is set, with that COPYQ at the head of channel 0: nothing has looked at the flag yet. -/
def flagSetUnseen : State :=
  { State.reset with tiles := [(0, { running := some 0, plane0 :=
    { regs := ({} : Regs).setFl 6 { on := true }, chan := (Vector.replicate 4 []).setIfInBounds 0 [waitingCopy] } })] }

/-- Refutes O36. Of an FLCLR the statement asks that the channels stay as they are, and putFlag looks at every flag that a COPYQ waits
for: where flag 6 is set and a COPYQ at the head of its channel has not been found to start on it, an FLCLR of flag 5 marks that COPYQ
as started. -/
theorem not_flagAndFenceWords : ¬ Obligations.FlagAndFenceWords := by
  unfold Obligations.FlagAndFenceWords
  rintro ⟨-, h, -⟩
  have hrun : Runs flagSetUnseen 0 := by unfold Runs; decide
  have hbound : (flagSetUnseen.regs.fl 5).bound = none := by decide
  obtain ⟨-, h⟩ := h { g := 0, fn := 5 } flagSetUnseen (by decide) hrun
  obtain ⟨t, hexec, -, -, -, -, -, -, -, hchan, -⟩ := h hbound false
  have hput : exec (.flclr { g := 0, fn := 5 }) flagSetUnseen = .next (putFlag flagSetUnseen 5 false) := rfl
  have ht : t = putFlag flagSetUnseen 5 false := by
    have := hexec.symm.trans hput
    simpa using this
  have hbefore : flagSetUnseen.ctx.chan[0].map (·.fired.isSome) = [false] := by decide
  have hafter : (putFlag flagSetUnseen 5 false).ctx.chan[0].map (·.fired.isSome) = [true] := by decide
  rw [ht] at hchan
  rw [hchan rfl, hbefore] at hafter
  exact absurd hafter (by decide)

end Sys2Proof.Machine
end

section
/-! PROOFS. The vault words and the lease words (R17, R101, R220, R236 to R246, R252). -/

namespace Sys2Proof.Machine

/-! ## Requests that are issued (R236) -/

/-- The state of a word that starts an operation once its flag fn is bound. -/
def State.issued (s : State) (fn : Nat) : State := bindFlag s.numbered fn s.nextId

theorem issued_task (s : State) (fn : Nat) : (s.issued fn).ctx.task = s.ctx.task := by
  rw [State.issued, bindFlag_ctx]
  rfl

theorem issued_ctxP (s : State) (fn : Nat) : (s.issued fn).ctxP = s.ctxP := bindFlag_ctxP s.numbered fn s.nextId

@[simp] theorem Tile.setPl_reqs (t : Tile) (p : Nat) (x : Plane) : (t.setPl p x).reqs = t.reqs := by
  by_cases h : p = 0 <;> simp [Tile.setPl, h]

theorem issued_reqs (s : State) (fn : Nat) : (s.issued fn).curTile.reqs = s.curTile.reqs := by
  rw [State.issued, bindFlag, modRegs_curTile]
  exact Tile.setPl_reqs _ _ _

theorem issued_frame (s : State) {fn : Nat} (hf : fn < 64) : EngineFrame s (s.issued fn) [fn] :=
  engineFrame_bindFlag (SpecMoves.refl _) hf

theorem issued_bound (s : State) {fn : Nat} (hf : fn < 64) : ((s.issued fn).ctx.regs.fl fn).bound = some s.nextId := by
  obtain ⟨-, -, -, -, -, -, -, hbound, -⟩ := issued_frame s hf
  exact congrArg Flag.bound (hbound fn (by simp))

/-- The flag of an operation that has ended in the current context. -/
theorem completeFlag_ctx_fl (s : State) {fn id : Nat} (q : Quad) (h : (s.ctx.regs.fl fn).bound = some id) (hf : fn < 64) :
    (completeFlag s s.cur s.ctxP fn id q).regs.fl fn = { on := true, status := q, bound := none, last := id, soft := false } := by
  rw [completeFlag, State.regs, modPlane_cur_ctx]
  exact Plane.complete_flag q h hf

/-- A request as its word gives it to the engine. -/
def issuedReq (s : State) (fn : Nat) (op : VOp) (va len dst a : Nat) : Req :=
  { newReq (s.issued fn) s.nextId fn op va len with dst := dst, a := a }

/-- The place that a request takes among those of its tile. -/
def issuedSt (s : State) (fn : Nat) (op : VOp) (va len addr plen dst a : Nat) : ReqSt :=
  { req := issuedReq s fn op va len dst a, addr := addr, len := plen, ready := !(s.issued fn).ctx.task.dual,
    under := specOpen (s.issued fn) }

/-- The state in which a tile holds one more request. -/
def State.withReq (s : State) (e : ReqSt) : State := s.modTile s.cur (fun t => { t with reqs := t.reqs ++ [e] })

theorem withReq_curTile (s : State) (e : ReqSt) : (s.withReq e).curTile = { s.curTile with reqs := s.curTile.reqs ++ [e] } :=
  modTile_curTile s _

theorem withReq_ctxP (s : State) (e : ReqSt) : (s.withReq e).ctxP = s.ctxP := by
  rw [State.ctxP, withReq_curTile]
  rfl

theorem withReq_ctx (s : State) (e : ReqSt) : (s.withReq e).ctx = s.ctx := by
  rw [State.ctx, withReq_ctxP, withReq_curTile]
  rfl

theorem withReq_bank (s : State) (e : ReqSt) : (s.withReq e).bank = s.bank := by
  rw [State.bank, State.mon, State.regs, withReq_ctx, withReq_curTile]
  rfl

/-- The requests of a tile are no part of what a word that starts an operation must leave. -/
theorem EngineFrame.withReq {s u : State} {fs : List Nat} (h : EngineFrame s u fs) (e : ReqSt) : EngineFrame s (u.withReq e) fs := by
  obtain ⟨helse, hmem, hag, hid, hb, hbank, hregs, hfs, hno⟩ := h
  have hr : (u.withReq e).regs = u.regs := congrArg Plane.regs (withReq_ctx u e)
  exact ⟨helse.trans (sameOutside_modTile u _).1, hmem, hag, hid, hb, (withReq_bank u e).trans hbank, by rw [hr]; exact hregs,
    fun k hk => by rw [hr]; exact hfs k hk, fun k hk => by rw [hr]; exact hno k hk⟩

section
variable {s : State} {fn : Nat} {op : VOp} {va len addr plen dst a : Nat}

/-- R236: the number and the flag, then the checks, then the place among the tile's requests. -/
theorem issueReq_eq : issueReq s fn op va len addr plen dst a =
    match (if op = .query then none else reqCheck (issuedReq s fn op va len dst a)) with
    | some fc => .ok (completeFlag (s.issued fn) (s.issued fn).cur (s.issued fn).ctxP fn s.nextId
        (reqRecord (issuedReq s fn op va len dst a) 7 fc 0 0 0))
    | none =>
      let u := (s.issued fn).withReq (issuedSt s fn op va len addr plen dst a)
      .ok (if u.ctx.task.dual then pushDual u u.cur u.ctxP (.req s.nextId) else pumpReqs u u.cur) := rfl

theorem issueReq_refused {fc : Nat} (hop : op ≠ .query)
    (h : reqCheck { (default : Req) with op := op, va := va, len := len } = some fc) :
    issueReq s fn op va len addr plen dst a = .ok (completeFlag (s.issued fn) (s.issued fn).cur (s.issued fn).ctxP fn s.nextId
      (reqRecord { (default : Req) with op := op, va := va, len := len } 7 fc 0 0 0)) := by
  have hcheck : reqCheck (issuedReq s fn op va len dst a) = some fc := h
  rw [issueReq_eq, if_neg hop, hcheck]
  rfl

theorem issueReq_issued (h : op = .query ∨ reqCheck { (default : Req) with op := op, va := va, len := len } = none) {u : State}
    (hu : u = (s.issued fn).withReq (issuedSt s fn op va len addr plen dst a)) : issueReq s fn op va len addr plen dst a =
      .ok (if s.ctx.task.dual then pushDual u u.cur u.ctxP (.req s.nextId) else pumpReqs u u.cur) := by
  have hcheck : (if op = .query then none else reqCheck (issuedReq s fn op va len dst a)) = none := by
    split
    · rfl
    next hq => exact h.resolve_left hq
  have hd : u.ctx.task = s.ctx.task := by rw [hu, withReq_ctx, issued_task]
  rw [issueReq_eq, hcheck, ← hd, hu]

/-- A word whose body issues a request gives the message engine that request. -/
theorem requests_of {i : Instr} {g : Nat} {body : State → Chk State} (he : exec i s = runWord 2 g s body) (hrun : Runs s g)
    (hf : fn < 64) (hb : body s = issueReq s fn op va len addr plen dst a) : Requests i s fn op va len addr plen dst a := by
  refine ⟨fun fc hop h => ?_, fun h => ?_⟩
  · have hdone := he.trans (runWord_ok hrun (hb.trans (issueReq_refused hop h)))
    have hfl := completeFlag_ctx_fl (s.issued fn) (reqRecord { (default : Req) with op := op, va := va, len := len } 7 fc 0 0 0)
      (issued_bound s hf) hf
    exact ⟨_, hdone, by rw [hfl], by rw [hfl], by rw [hfl]⟩
  · have htask := issued_task s fn
    refine ⟨_, issuedSt s fn op va len addr plen dst a, he.trans (runWord_ok hrun (hb.trans (issueReq_issued h rfl))),
      (issued_frame s hf).withReq _, ?_, rfl, rfl, issued_ctxP s fn, rfl, rfl, rfl, rfl, rfl, rfl, ?_, ?_, ?_, rfl, rfl, rfl, rfl⟩
    · rw [withReq_curTile, issued_reqs]
    · exact congrArg Task.job htask
    · exact congrArg Task.part htask
    · exact congrArg Task.bgroups htask

end

/-! ## Words of the M slot: their stalls and traps -/

section
variable {i : Instr} {s : State} {g : Nat} {body : State → Chk State} (he : exec i s = runWord 2 g s body) (hrun : Runs s g)
include he hrun

theorem stalls_of (hb : body s = .error .stall) : Stalls i s := he.trans (runWord_stall hrun hb)

theorem trapsM_of {cause info : Nat} (hb : body s = .error (.trap { cause := cause, info := BitVec.ofNat 64 info })) :
    TrapsM i s cause info := by
  rw [TrapsM, he]
  exact runWord_trap (t := { cause := cause, info := BitVec.ofNat 64 info }) hrun hb

end

theorem needAlign_trap {t n : Nat} (h : t % n ≠ 0) :
    needAlign t n = .error (.trap { cause := 0x05, info := BitVec.ofNat 64 t }) := by
  simp [needAlign, need, h, trapW, cALIGN]

theorem needRange_trap {s : State} {t n : Nat} (h : tsLimit s < t + n) :
    needRange s t n = .error (.trap { cause := 0x06, info := BitVec.ofNat 64 t }) := by
  simp [needRange, need, Nat.not_le.2 h, trapW, cTSBOUND]

/-! ## The vault words (R237 to R242) -/

theorem exec_get_eq (f : MS) (s : State) : exec (.get f) s = execGet f s := rfl

theorem exec_put_eq (f : MS) (s : State) : exec (.put f) s = execPut f s := rfl

theorem exec_redf_eq (f : MS) (s : State) : exec (.redf f) s = execRedf f s := rfl

theorem exec_atom_eq (f : MA) (s : State) : exec (.atom f) s = execAtom f s := rfl

theorem exec_red_eq (f : MA) (s : State) : exec (.red f) s = execRed f s := rfl

theorem exec_fship_eq (f : MFs) (s : State) : exec (.fship f) s = execFship f s := rfl

theorem exec_query_eq (f : MAF) (s : State) : exec (.query f) s = execQuery f s := rfl

section
variable {f : MS} {s : State} {v l a : Word} (hrun : Runs s f.g) (hv : readX s f.rd = .ok v)
  (hl : readX s f.xl = .ok l) (ha : readX s f.xa = .ok a) (hb : (s.regs.fl f.fn).bound = none)
include hrun hv hl ha hb

theorem get_requests (hf : f.fn < 64) (h : BufferOk s a.toNat l.toNat) :
    Requests (.get f) s f.fn .get v.toNat l.toNat 0 0 (tsPhys s a.toNat) 0 :=
  requests_of (exec_get_eq f s) hrun hf (by simp only [freeFlag_ok hb, hv, hl, ha, needBuffer_ok h, bind, Except.bind])

theorem get_traps (h : ¬ BufferOk s a.toNat l.toNat) : TrapsM (.get f) s 0x06 a.toNat :=
  trapsM_of (exec_get_eq f s) hrun (by simp only [freeFlag_ok hb, hv, hl, ha, needBuffer_trap h, badBuffer, bind, Except.bind])

variable (hs : s.ctx.spec = none)
include hs

theorem put_requests (hf : f.fn < 64) (h : BufferOk s a.toNat l.toNat) :
    Requests (.put f) s f.fn .put v.toNat l.toNat (tsPhys s a.toNat) l.toNat 0 0 :=
  requests_of (exec_put_eq f s) hrun hf (by simp only [noSpec_ok hs, freeFlag_ok hb, hv, hl, ha, needBuffer_ok h, bind, Except.bind])

theorem put_traps (h : ¬ BufferOk s a.toNat l.toNat) : TrapsM (.put f) s 0x06 a.toNat :=
  trapsM_of (exec_put_eq f s) hrun
    (by simp only [noSpec_ok hs, freeFlag_ok hb, hv, hl, ha, needBuffer_trap h, badBuffer, bind, Except.bind])

theorem redf_requests (hf : f.fn < 64) : Requests (.redf f) s f.fn (.redf l.toNat) v.toNat 4 0 0 0 (a.toNat % 2 ^ 32) :=
  requests_of (exec_redf_eq f s) hrun hf (by simp only [noSpec_ok hs, freeFlag_ok hb, hv, hl, ha, bind, Except.bind])

end

section
variable {f : MA} {s : State} {v a : Word} (hrun : Runs s f.g) (hv : readX s f.rd = .ok v)
  (ha : readX s f.xa = .ok a) (hs : s.ctx.spec = none) (hb : (s.regs.fl f.fn).bound = none)
include hrun hv ha hs hb

theorem atom_align (h : a.toNat % 16 ≠ 0) : TrapsM (.atom f) s 0x05 a.toNat :=
  trapsM_of (exec_atom_eq f s) hrun (by simp only [noSpec_ok hs, freeFlag_ok hb, hv, ha, needAlign_trap h, bind, Except.bind])

theorem atom_range (h : a.toNat % 16 = 0) (hr : tsLimit s < a.toNat + 48) : TrapsM (.atom f) s 0x06 a.toNat :=
  trapsM_of (exec_atom_eq f s) hrun
    (by simp only [noSpec_ok hs, freeFlag_ok hb, hv, ha, needAlign_ok h, needRange_trap hr, bind, Except.bind])

theorem atom_requests (hf : f.fn < 64) (h : a.toNat % 16 = 0) (hr : a.toNat + 48 ≤ tsLimit s) :
    Requests (.atom f) s f.fn (.atom f.op f.w) v.toNat (if f.w then 16 else 8) (tsPhys s a.toNat) 32 (tsPhys s a.toNat + 32) 0 :=
  requests_of (exec_atom_eq f s) hrun hf
    (by simp only [noSpec_ok hs, freeFlag_ok hb, hv, ha, needAlign_ok h, needRange_ok hr, bind, Except.bind])

theorem red_requests (hf : f.fn < 64) : Requests (.red f) s f.fn (.red f.op f.w) v.toNat (if f.w then 8 else 4) 0 0 0
    (a.toNat % 2 ^ (if f.w then 64 else 32)) :=
  requests_of (exec_red_eq f s) hrun hf (by simp only [noSpec_ok hs, freeFlag_ok hb, hv, ha, bind, Except.bind])

end

theorem fship_requests {f : MFs} {s : State} {v a : Word} (hf : f.fn < 64) (hrun : Runs s f.g) (hv : readX s f.rd = .ok v)
    (ha : readX s f.xa = .ok a) (hs : s.ctx.spec = none) (hb : (s.regs.fl f.fn).bound = none) (h : a.toNat % 16 = 0)
    (hr : a.toNat + 32 ≤ tsLimit s) :
    Requests (.fship f) s f.fn (.fship f.r) v.toNat 64 (tsPhys s a.toNat) 16 (tsPhys s a.toNat + 16) 0 :=
  requests_of (exec_fship_eq f s) hrun hf
    (by simp only [noSpec_ok hs, freeFlag_ok hb, hv, ha, needAlign_ok h, needRange_ok hr, bind, Except.bind])

theorem query_requests {f : MAF} {s : State} {a : Word} (hf : f.fn < 64) (hrun : Runs s f.g) (ha : readX s f.xa = .ok a)
    (hs : s.ctx.spec = none) (hb : (s.regs.fl f.fn).bound = none) (h : a.toNat % 64 = 0) (hr : a.toNat + 128 ≤ tsLimit s) :
    Requests (.query f) s f.fn .query 0 128 (tsPhys s a.toNat) 4224 a.toNat 0 :=
  requests_of (exec_query_eq f s) hrun hf
    (by simp only [noSpec_ok hs, freeFlag_ok hb, ha, needAlign_ok h, needRange_ok hr, bind, Except.bind])

/-! ## The lane manager's words (R243 to R246) -/

theorem exec_lease_eq (f : MXF) (s : State) : exec (.lease f) s = execLease f s := rfl

theorem exec_unlease_eq (f : MX) (s : State) : exec (.unlease f) s = execUnlease f s := rfl

theorem exec_leaseq_eq (f : MXF) (s : State) : exec (.leaseq f) s = execLeaseq f s := rfl

theorem exec_slotq_eq (f : MXF) (s : State) : exec (.slotq f) s = execSlotq f s := rfl

theorem exec_lease_ran {f : MXF} {s u : State} {v : Word} (hrun : Runs s f.g) (hs : s.ctx.spec = none)
    (hb : (s.regs.fl f.fn).bound = none) (hv : readX s f.rd = .ok v) (hu : u = s.issued f.fn) : exec (.lease f) s =
      .next (if s.ctx.task.dual then pushDual u u.cur u.ctxP (.lease f.fn s.nextId v)
        else leasePost u u.cur u.ctxP f.fn s.nextId 0 v) := by
  rw [← issued_task s f.fn, hu, exec_lease_eq, execLease]
  exact runWord_ok hrun (by simp only [noSpec_ok hs, freeFlag_ok hb, hv, bind, Except.bind]; rfl)

theorem exec_unlease_ran {f : MX} {s : State} {v : Word} (hrun : Runs s f.g) (hs : s.ctx.spec = none) (hv : readX s f.rd = .ok v) :
    exec (.unlease f) s = .next (if s.ctx.task.dual then pushDual s s.cur s.ctxP (.unlease (v.toNat % 65536))
      else unleaseAt s (s.cur / 4096) s.ctx.task.job (v.toNat % 65536)) := by
  rw [exec_unlease_eq, execUnlease]
  exact runWord_ok hrun (by simp only [noSpec_ok hs, hv, bind, Except.bind]; rfl)

/-- LEASEQ and SLOTQ ask the lane manager, each in its own way. -/
theorem exec_asks {f : MXF} {s : State} {v : Word} {i : Instr} {b : Bool}
    (hi : (i = .leaseq f ∧ b = false) ∨ (i = .slotq f ∧ b = true)) (hrun : Runs s f.g) (hb : (s.regs.fl f.fn).bound = none) (hv : readX s f.rd = .ok v) :
    exec i s = .next (askWord s f.fn b (v.toNat % (if b then 4096 else 65536))) := by
  rcases hi with ⟨rfl, rfl⟩ | ⟨rfl, rfl⟩
  · rw [exec_leaseq_eq, execLeaseq]
    exact runWord_ok hrun (by simp only [freeFlag_ok hb, hv, bind, Except.bind]; rfl)
  · rw [exec_slotq_eq, execSlotq]
    exact runWord_ok hrun (by simp only [freeFlag_ok hb, hv, bind, Except.bind]; rfl)

/-- A plane with one more question at the lane manager. -/
def Plane.asking (pl : Plane) (id : Nat) : Plane := { pl with askIds := pl.askIds ++ [id] }

theorem askWord_spec {s : State} {fn what : Nat} {slot : Bool} (hf : fn < 64) {l : LmAsk}
    (hl : l = { rank := s.cur, plane := s.ctxP, fn := fn, id := s.nextId, slot := slot, what := what }) :
    ∃ u, SameElsewhere s u ∧ SameMem s u ∧ u.agenda = s.agenda ∧ u.ctx.askIds = s.ctx.askIds ++ [s.nextId] ∧
      (u.regs.fl fn).on = false ∧ (u.regs.fl fn).bound = some s.nextId ∧
      askWord s fn slot what = (if s.ctx.task.dual then pushDual u u.cur u.ctxP (.ask l)
        else { u with agenda := u.agenda ++ [{ ev := .laneManagerAnswer l }] }) := by
  let u := (s.issued fn).modCtx (fun pl => pl.asking s.nextId)
  obtain ⟨helse, hmem, hag, -, -, -, -, hfs, -⟩ := issued_frame s hf
  have hctx : u.ctx = (s.issued fn).ctx.asking s.nextId := State.modCtx_ctx _ _
  have hregs : u.regs = (s.issued fn).regs := by
    rw [State.regs, hctx]
    rfl
  have hctxP : u.ctxP = s.ctxP := (State.modCtx_ctxP _ _).trans (issued_ctxP s fn)
  have htask : u.ctx.task = s.ctx.task := (congrArg Plane.task hctx).trans (issued_task s fn)
  have hfl := hfs fn (by simp)
  have hask : (s.issued fn).ctx.askIds = s.ctx.askIds := by
    rw [State.issued, bindFlag_ctx]
    rfl
  refine ⟨u, helse.trans (sameOutside_modTile _ _).1, hmem, hag, ?_, by rw [hregs, hfl], by rw [hregs, hfl], ?_⟩
  · rw [hctx, Plane.asking, hask]
  · rw [hl, ← hctxP, ← htask]
    rfl

/-- Settles O45. Each word's checks in the order of its body; what passes them issues the request (requests_of), or goes to the lane
manager behind the frame of a word that starts an operation. -/
theorem requestAndLeaseWords : Obligations.RequestAndLeaseWords := by
  unfold Obligations.RequestAndLeaseWords
  refine ⟨?getPut, ?atoms, ?fship, ?query, ?leases, ?unlease⟩
  case getPut =>
    intro f s v l a hf hrun hv hl ha hb
    refine ⟨fun h => ⟨get_requests hrun hv hl ha hb hf h, fun hs => put_requests hrun hv hl ha hb hs hf h⟩,
      fun hs => redf_requests hrun hv hl ha hb hs hf,
      fun h => ⟨get_traps hrun hv hl ha hb h, fun hs => put_traps hrun hv hl ha hb hs h⟩,
      fun hs => ⟨stalls_of (exec_put_eq f s) hrun ?_, stalls_of (exec_redf_eq f s) hrun ?_⟩⟩ <;>
    simp only [noSpec_stall hs, bind, Except.bind]
  case atoms =>
    intro f s v a hf hrun hv ha
    refine ⟨fun hs => ⟨stalls_of (exec_atom_eq f s) hrun ?_, stalls_of (exec_red_eq f s) hrun ?_⟩,
      fun hs hb => ⟨atom_align hrun hv ha hs hb, atom_range hrun hv ha hs hb, atom_requests hrun hv ha hs hb hf, red_requests hrun hv ha hs hb hf⟩⟩ <;>
    simp only [noSpec_stall hs, bind, Except.bind]
  case fship => exact fun f s v a hf hrun hv ha hs hb => fship_requests hf hrun hv ha hs hb
  case query => exact fun f s a hf hrun ha hs hb => query_requests hf hrun ha hs hb
  case leases =>
    intro f s v hf hrun hv hb
    refine ⟨fun hs => stalls_of (exec_lease_eq f s) hrun ?_, fun hs => ⟨_, issued_frame s hf, exec_lease_ran hrun hs hb hv rfl⟩,
      fun i b hi l hl => ?_⟩
    · simp only [noSpec_stall hs, bind, Except.bind]
    · obtain ⟨u, helse, hmem, hag, hask, hon, hbound, hu⟩ := askWord_spec hf hl
      exact ⟨u, helse, hmem, hag, hask, hon, hbound, (exec_asks hi hrun hb hv).trans (congrArg _ hu)⟩
  case unlease =>
    intro f s v hrun hv
    refine ⟨fun hs => stalls_of (exec_unlease_eq f s) hrun ?_, fun hs => exec_unlease_ran hrun hs hv⟩
    simp only [noSpec_stall hs, bind, Except.bind]

end Sys2Proof.Machine
end

section
/-! PROOFS. Copies (R92, R96 to R98, R121, R122, R226 to R228): how one starts, moves a part of its bytes, and ends. -/

namespace Sys2Proof.Machine

/-! ## Channels -/

theorem putHead_plane (s : State) (r p k : Nat) (c : CopyCmd) : (putHead s r p k c).plane r p =
    { s.plane r p with chan := (s.plane r p).chan.setIfInBounds k (c :: ((s.plane r p).ch k).tail) } := State.modPlane_plane _ _ _ _

theorem setCh_plane (s : State) (r p k : Nat) (l : List CopyCmd) : (setCh s r p k l).plane r p =
    { s.plane r p with chan := (s.plane r p).chan.setIfInBounds k l } := State.modPlane_plane _ _ _ _

theorem getElem?_setIfInBounds {α : Type} {n k : Nat} (v : Vector α n) (x : α) (h : k < n) : (v.setIfInBounds k x)[k]? = some x := by
  simp [h]

theorem putHead_ch (s : State) (r p : Nat) {k : Nat} (c : CopyCmd) (hk : k < 4) :
    ((putHead s r p k c).plane r p).ch k = c :: ((s.plane r p).ch k).tail := by
  rw [putHead_plane, Plane.ch, getElem?_setIfInBounds _ _ hk, Option.getD_some]

/-! ## The start (R122, R228, R96) -/

/-- What a copy on a flag no longer misses when it starts. -/
def startSeen (s : State) (r : Nat) : Option Flag → State
  | none => s
  | some f => s.modTile r (fun t => t.withStale (startSees t.stale f))

/-- The window that a copy opens. -/
def CopyCmd.winOf (c : CopyCmd) (pl : Plane) : Option Win :=
  if c.dvault = true ∨ c.total pl.regs = 0 then none
  else some { lo := copyPhys pl c (c.wspan pl.regs).1, hi := copyPhys pl c (c.wspan pl.regs).2, base := copyPhys pl c 0 }

/-- A plane whose channel k has opened the window of a copy. -/
def Plane.opened (pl : Plane) (k : Nat) (c : CopyCmd) (w : Option Win) : Plane :=
  { pl with
    window := pl.window.setIfInBounds k w
    lock := pl.lock.setIfInBounds k []
    wfault := pl.wfault.setIfInBounds k none
    spec := pl.spec.map (fun x => if c.spec then { x with chans := x.chans ++ [k] } else x)
    regs := { pl.regs with wmark := pl.regs.wmark.setIfInBounds k (if c.dvault then 0 else c.mark pl.regs 0) } }

theorem startSeen_plane (s : State) (r : Nat) (fl : Option Flag) (q o : Nat) : (startSeen s r fl).plane q o = s.plane q o := by
  cases fl with
  | none => rfl
  | some f => exact modTile_plane_eq s r (fun t p => Tile.withStale_pl t _ p) q o

theorem startSeen_mem (s : State) (r : Nat) (fl : Option Flag) : (startSeen s r fl).mem = s.mem := by cases fl <;> rfl

theorem exec_copyStart_eq (s : State) {r p k : Nat} (h : (Instr.copyStart r p k).wf = true) :
    exec (.copyStart r p k) s = .next (copyStartAt s r p k) := by
  have e : exec (.copyStart r p k) s = execCopyStart r p k s := rfl
  rw [e, execCopyStart]
  exact runEvent_ok h

/-- Whether nothing but its flag holds a command at the head of its channel (R122). -/
def CopyCmd.Free (c : CopyCmd) (pl : Plane) (k : Nat) : Prop :=
  c.mon = true ∨ ((pl.halted = false ∨ c.fired ≠ none) ∧ (pl.hold[k]?).getD none = none)

theorem CopyCmd.Free.not_held {c : CopyCmd} {pl : Plane} {k : Nat} (h : c.Free pl k) (hs : c.started = false) :
    ¬ (c.started = true ∨ (c.fired = none ∧ pl.mayStart k c = false)) := by
  rintro (hc | ⟨hf, hm⟩)
  · simp [hs] at hc
  · rcases h with h | ⟨h | h, hh⟩
    · simp [Plane.mayStart, h] at hm
    · simp [Plane.mayStart, h, hh] at hm
    · exact h hf

section
variable {s : State} {r p k : Nat} {c : CopyCmd} {l : List CopyCmd} (hch : (s.plane r p).ch k = c :: l) (hs : c.started = false)
  (hfree : c.Free (s.plane r p) k)
include hch hs hfree

theorem copyStartAt_waits (h : c.go (s.plane r p).regs = none) : copyStartAt s r p k = emitOnce s (.copyStart r p k) := by
  simp only [copyStartAt, hch, List.head?_cons, if_neg (hfree.not_held hs), h]

theorem copyStartAt_starts {fl : Option Flag} (h : c.go (s.plane r p).regs = some fl) : copyStartAt s r p k =
    emitOnce (putHead ((startSeen s r fl).modPlane r p (fun pl => pl.opened k c (c.winOf (s.plane r p)))) r p k
      { c with started := true }) (.watermarkAdvance r p k) := by
  simp only [copyStartAt, hch, List.head?_cons, if_neg (hfree.not_held hs), h]
  cases fl <;> rfl

theorem copyStart_spec (hk : k < 4) {fl : Option Flag} (h : c.go (s.plane r p).regs = some fl) {t : State} (ht : t = copyStartAt s r p k) :
    (t.plane r p).ch k = { c with started := true } :: l ∧ (t.plane r p).window[k]? = some (c.winOf (s.plane r p)) ∧
      (t.plane r p).regs.wmark[k]? = some (if c.dvault then 0 else c.mark (s.plane r p).regs 0) ∧
      t.Due (.watermarkAdvance r p k) ∧ SameMem s t := by
  rw [ht, copyStartAt_starts hch hs hfree h, (emitOnce_onlyDue _ _).plane_eq]
  refine ⟨?_, ?_, ?_, emitOnce_due _ _, sameMem_of_mem_eq ?_⟩
  · rw [putHead_ch _ _ _ _ hk, State.modPlane_plane, startSeen_plane]
    exact congrArg (fun x => { c with started := true } :: x.tail) hch
  · rw [putHead_plane, State.modPlane_plane, startSeen_plane]
    exact getElem?_setIfInBounds _ _ hk
  · rw [putHead_plane, State.modPlane_plane, startSeen_plane]
    exact getElem?_setIfInBounds _ _ hk
  · rw [emitOnce_mem]
    exact startSeen_mem s r fl

end

/-- The flag on which a copy starts, and whether it has still to wait for it. -/
theorem CopyCmd.go_none {c : CopyCmd} {g : Regs} {fk : Nat} (h : c.fk = some fk) (hf : c.fired = none) (ho : (g.fl fk).on = false) :
    c.go g = none := by
  simp [CopyCmd.go, h, hf, ho]

theorem CopyCmd.go_some {c : CopyCmd} {g : Regs} (h : ∀ fk, c.fk = some fk → c.fired ≠ none ∨ (g.fl fk).on = true) :
    ∃ fl, c.go g = some fl := by
  cases hk : c.fk with
  | none => exact ⟨none, by simp [CopyCmd.go, hk]⟩
  | some fk =>
    cases hf : c.fired with
    | some f => exact ⟨some f, by simp [CopyCmd.go, hk, hf]⟩
    | none => exact ⟨some (g.fl fk), by simp [CopyCmd.go, hk, hf, (h fk hk).resolve_left (by simp [hf])]⟩

/-! ## A step of a copy (R97) -/

theorem exec_watermarkAdvance_eq (s : State) {r p k : Nat} (h : (Instr.watermarkAdvance r p k).wf = true) :
    exec (.watermarkAdvance r p k) s = .next (pumpTile (advanceAt s r p k) r) := by
  have e : exec (.watermarkAdvance r p k) s = execWatermarkAdvance r p k s := rfl
  rw [e, execWatermarkAdvance]
  exact runEvent_ok h

/-- The part of a copy that comes next. -/
def CopyCmd.nextPart (c : CopyCmd) (g : Regs) : Nat × Nat × CRun := (c.moved, c.partEnd g c.moved - c.moved, c.runAt g c.moved)

section
variable {s : State} {r p k : Nat} {c : CopyCmd} {l : List CopyCmd} (hch : (s.plane r p).ch k = c :: l) (hs : c.started = true)
  (hw : c.waiting = false)
include hch hs hw

theorem advanceAt_done (h : c.total (s.plane r p).regs ≤ c.moved) : advanceAt s r p k = emitOnce s (.copyComplete r p k) := by
  simp only [advanceAt, hch, List.head?_cons, hs, hw, h, Bool.not_true, Bool.false_or, Bool.false_eq_true, if_true, if_false]

/-- A copy from the tile store, by what stands in the way of its next part. -/
theorem advanceAt_part (h : c.moved < c.total (s.plane r p).regs) (hv : c.svault = false) {q : Nat × Nat × CRun}
    (hq : q = c.nextPart (s.plane r p).regs) :
    (partGate s r p k c q = .wait → advanceAt s r p k = emitOnce s (.watermarkAdvance r p k)) ∧
    (∀ fn, partGate s r p k c q = .faulted fn → advanceAt s r p k = faultCopy s r p k c 0x13) ∧
    (partGate s r p k c q = .clear → c.spec = false → advanceAt s r p k = moveNext s r p k c q) := by
  have key : advanceAt s r p k = (match partGate s r p k c q with
      | .wait => emitOnce s (.watermarkAdvance r p k)
      | .faulted _ => faultCopy s r p k c 0x13
      | .clear =>
        if c.spec && !c.dvault && !escRoomAll (s.plane r p) [(copyPhys (s.plane r p) c (q.2.2.dstOf q.1), q.2.1)] then
          emitOnce (engStall s r p) (.watermarkAdvance r p k)
        else moveNext s r p k c q) := by
    simp only [advanceAt, hch, List.head?_cons, hs, hw, Nat.not_le.2 h, hv, Bool.not_true, Bool.false_or, Bool.false_eq_true,
      if_false, Bool.false_and, hq, CopyCmd.nextPart]
    rfl
  refine ⟨fun hg => ?_, fun fn hg => ?_, fun hg hsp => ?_⟩
  · rw [key, hg]
  · rw [key, hg]
  · rw [key, hg]
    simp only [hsp, Bool.false_and, Bool.false_eq_true, if_false]

end

/-- R121: the first run of a nest begins where the copy does. -/
theorem CopyCmd.runAt_first {c : CopyCmd} (g : Regs) {i : Nat} (ht : c.ten = false) (hi : i < c.len0) :
    c.runAt g i = { start := 0, len := c.len0, src := c.src, dst := c.dst, rd := c.len0 } := by
  simp [CopyCmd.runAt, ht, Nat.div_eq_of_lt hi]

/-! ## The bytes of a run (R121) -/

theorem nget_filter_keys {α : Type} (f : Nat → Bool) (m : NMap α) {j : Nat} (h : f j = true) :
    nget (m.filter (fun u => f u.1)) j = nget m j := by
  induction m with
  | nil => rfl
  | cons u m ih =>
    obtain ⟨a, v⟩ := u
    rw [List.filter_cons]
    by_cases ha : a = j
    · subst ha
      simp [h, nget]
    · split <;> simp [nget, ha, ih]

theorem nget_map_shift {α : Type} (a j : Nat) (m : NMap α) : nget (m.map (fun e => (a + e.1, e.2))) (a + j) = nget m j := by
  induction m with
  | nil => rfl
  | cons u m ih => simp [nget, ih]

theorem nget_range'_zip {α : Type} (b : List α) (j i : Nat) (h : i < b.length) :
    nget ((List.range' j b.length).zip b) (j + i) = b[i]? := by
  induction b generalizing j i with
  | nil => simp at h
  | cons x b ih =>
    rw [List.length_cons, List.range'_succ, List.zip_cons_cons, nget]
    cases i with
    | zero => simp
    | succ i =>
      have hi : i < b.length := by simpa using h
      rw [if_neg (by omega), show j + (i + 1) = j + 1 + i by omega, ih _ _ hi, List.getElem?_cons_succ]

/-- What a run of a copy holds of its source: its bytes under their places in the copy. -/
def CRun.held (x : CRun) (b : List Byte) : List (Nat × Byte) := ((List.range x.rd).zip b).map (fun e => (x.start + e.1, e.2))

theorem CRun.nget_held {x : CRun} {b : List Byte} (hb : b.length = x.rd) {i : Nat} (hi : i < x.rd) :
    nget (x.held b) (x.start + i) = b[i]? := by
  have h := nget_range'_zip b 0 i (by omega)
  rw [Nat.zero_add] at h
  rw [CRun.held, nget_map_shift, ← hb, List.range_eq_range', h]

/-- Where no write races and no speculation is open, a byte of any tile reads as memory holds it. -/
theorem tsByte_quiet {s : State} {r p : Nat} (hst : (s.tile r).stale = []) (hsp : (s.plane r p).spec = none) (path a : Nat) :
    tsByte s r p path a = memGet s.mem (tsAddr r a) := by
  simp [tsByte, oldGran, hst, hsp]

theorem tsSeen_quiet {s : State} {r : Nat} (hst : (s.tile r).stale = []) (path a n : Nat) : tsSeen s r path a n = s := by
  simp [tsSeen, hst]

/-! ## A part that is moved -/

/-- The command of a copy to the tile store, past n bytes more. -/
def CopyCmd.past (c : CopyCmd) (m : Nat) : CopyCmd :=
  { c with moved := m, unit := c.unit.filter (fun u => decide (m ≤ u.1)), piece := c.piece + 1 }

/-- What follows the write of a part: the watermark stands past it, and the lock is off at the end of a piece (R96, R98). -/
def partDone (s : State) (r p k : Nat) (c : CopyCmd) (q : Nat × Nat × CRun) : State :=
  let rg := (s.plane r p).regs
  let m := q.1 + q.2.1
  let u := c.piece16 rg q.1
  let s := noteUnit s r c.id u.1 (copyPhys (s.plane r p) c (q.2.2.dstOf q.1)) q.2.1
  let s := s.modPlane r p (fun pl =>
    { pl with regs := { rg with wmark := rg.wmark.setIfInBounds k (c.mark rg m) },
              lock := pl.lock.setIfInBounds k (if u.2 ≤ m then [] else
                (c.parts rg u.2 (u.2 - u.1) u.1).map (fun y => (copyPhys pl c (y.2.2.dstOf y.1), y.2.1))),
              spec := pl.spec.map (fun sp => if c.spec then { sp with engCounted := false } else sp) })
  emitOnce (putHead s r p k (c.past m)) (.watermarkAdvance r p k)

theorem noteUnit_plane (s : State) (r id u a n q o : Nat) : (noteUnit s r id u a n).plane q o = s.plane q o := by
  refine modTile_plane_eq s r (fun t p => ?_) q o
  split <;> rfl

theorem partDone_spec (s : State) (r p : Nat) {k : Nat} (c : CopyCmd) (q : Nat × Nat × CRun) (hk : k < 4) {t : State}
    (ht : t = partDone s r p k c q) : t.mem = s.mem ∧ t.Due (.watermarkAdvance r p k) ∧
      (t.plane r p).ch k = c.past (q.1 + q.2.1) :: ((s.plane r p).ch k).tail ∧
      (t.plane r p).regs.wmark[k]? = some (c.mark (s.plane r p).regs (q.1 + q.2.1)) ∧
      ((c.piece16 (s.plane r p).regs q.1).2 ≤ q.1 + q.2.1 → (t.plane r p).lock[k]? = some []) := by
  rw [ht]
  unfold partDone
  dsimp only
  rw [(emitOnce_onlyDue _ _).plane_eq]
  refine ⟨emitOnce_mem _ _, emitOnce_due _ _, ?_, ?_, fun hend => ?_⟩
  · rw [putHead_ch _ _ _ _ hk, State.modPlane_plane, noteUnit_plane]
    rfl
  · rw [putHead_plane, State.modPlane_plane, noteUnit_plane]
    exact getElem?_setIfInBounds _ _ hk
  · rw [putHead_plane, State.modPlane_plane, noteUnit_plane]
    simp only [if_pos hend]
    exact getElem?_setIfInBounds _ _ hk

/-- What a copy to the tile store does with a part. -/
theorem moveNext_eq {s s' : State} {r p k : Nat} {c d : CopyCmd} {q : Nat × Nat × CRun} (h : movePart s r p c q = (s', d))
    (hd : d.dvault = false) : moveNext s r p k c q = partDone s' r p k d q := by
  have e : moveNext s r p k c q = if (movePart s r p c q).2.dvault then
      putHead (movePart s r p c q).1 r p k { (movePart s r p c q).2 with piece := (movePart s r p c q).2.piece + 1 }
    else partDone (movePart s r p c q).1 r p k (movePart s r p c q).2 q := rfl
  rw [e, h, if_neg (by simp [hd])]

/-- The bytes of a part as the copy writes them. -/
def CopyCmd.partBytes (c : CopyCmd) (tick : Nat) (q : Nat × Nat × CRun) : List Byte :=
  (List.range q.2.1).map (fun i => unitByte tick c q.2.2 (q.1 + i))

theorem CopyCmd.partBytes_length (c : CopyCmd) (tick : Nat) (q : Nat × Nat × CRun) : (c.partBytes tick q).length = q.2.1 := by
  simp [CopyCmd.partBytes]

theorem CopyCmd.partBytes_getElem? {c : CopyCmd} {tick : Nat} {q : Nat × Nat × CRun} {i : Nat} (hi : i < q.2.1)
    (hr : q.1 + i < q.2.2.start + q.2.2.rd) (hs : q.2.2.start ≤ q.1) :
    ((c.partBytes tick q)[i]?).getD 0 = ngetD c.unit (q.1 + i) 0 := by
  have hu : q.1 + i - q.2.2.start < q.2.2.rd := by omega
  simp [CopyCmd.partBytes, hi, unitByte, hu]

/-- A copy that has read a run (R121). -/
def CopyCmd.holding (c : CopyCmd) (x : CRun) (b : List Byte) : CopyCmd := { c with unit := x.held b }

section
variable {s : State} {r p : Nat} {c : CopyCmd} (hd : c.dvault = false) (hsp : c.spec = false)
include hd hsp

/-- A later part of a run writes what was read at the first. -/
theorem movePart_later {q : Nat × Nat × CRun} (hm : q.2.2.start < q.1) : movePart s r p c q =
    (tsStore s r pathC c.id (copyPhys (s.plane r p) c (q.2.2.dstOf q.1)) (c.partBytes s.tick q), c) := by
  have hne : c.svault = true ∨ q.1 ≠ q.2.2.start := .inr (by omega)
  simp only [movePart, if_pos hne, hd, hsp, engWrite, Bool.false_and, Bool.false_eq_true, if_false]
  rfl

/-- The first part of a run reads the run. -/
theorem movePart_first (hv : c.svault = false) (hst : (s.tile r).stale = []) {q : Nat × Nat × CRun} (hm : q.1 = q.2.2.start)
    {b : List Byte} (hb : b = tsBytes s r p pathC (copyPhys (s.plane r p) c q.2.2.src) q.2.2.rd) : movePart s r p c q =
    (tsStore s r pathC c.id (copyPhys (s.plane r p) c (q.2.2.dstOf q.1)) ((c.holding q.2.2 b).partBytes s.tick q),
      c.holding q.2.2 b) := by
  have heq : ¬ (c.svault = true ∨ q.1 ≠ q.2.2.start) := by simp [hv, hm]
  have hseen : spansSeen s r p pathC 0 c.spec [(copyPhys (s.plane r p) c q.2.2.src, q.2.2.rd)] = s := by
    simp [spansSeen, hsp, tsSeen_quiet hst]
  rw [movePart, if_neg heq]
  simp only [hseen, ← hb]
  refine (if_neg (by rw [Bool.not_eq_true]; exact hd)).trans (Prod.ext ?_ rfl)
  show engWrite s r p pathC c.id c.spec _ _ = _
  rw [hsp]
  rfl

end

/-- A store where no write races changes the bytes that it names, to those given, and no others; one of no bytes changes none. -/
theorem tsStore_quiet {s : State} {r : Nat} (hst : (s.tile r).stale = []) {path : Nat} (hp : IsPath path) (op a : Nat) (bytes : List Byte) :
    SameMemBut s (tsStore s r path op a bytes) (tsAddr r a) bytes.length ∧
      (s.Safe → ∀ k < bytes.length, memGet (tsStore s r path op a bytes).mem (tsAddr r a + k) = (bytes[k]?).getD 0) := by
  by_cases h : 0 < bytes.length
  · exact (tsStore_mem s r hp op a h).2 (allSeen_of_nil path hst)
  · have hnil : bytes = [] := List.length_eq_zero_iff.1 (by omega)
    subst hnil
    exact ⟨fun _ _ => rfl, fun _ k hk => absurd hk (Nat.not_lt_zero k)⟩

/-- R96 to R98: a part is written where it goes and nowhere else, the watermark stands past it, and the lock is off at the end of a
piece. -/
theorem moved_spec {s t : State} {r p k : Nat} {c d : CopyCmd} {q : Nat × Nat × CRun} (hk : k < 4) (hd : d.dvault = false)
    (hst : (s.tile r).stale = []) {a : Nat}
    (hm : movePart s r p c q = (tsStore s r pathC c.id a (d.partBytes s.tick q), d)) (hq : q.2.2.start ≤ q.1)
    (hn : q.1 + q.2.1 ≤ q.2.2.start + q.2.2.rd) (hsafe : s.Safe) (ht : t = moveNext s r p k c q) :
    (∀ i < q.2.1, memGet t.mem (tsAddr r a + i) = ngetD d.unit (q.1 + i) 0) ∧ SameMemBut s t (tsAddr r a) q.2.1 ∧
      t.Due (.watermarkAdvance r p k) ∧ (t.plane r p).ch k = d.past (q.1 + q.2.1) :: ((s.plane r p).ch k).tail ∧
      (t.plane r p).regs.wmark[k]? = some (d.mark (s.plane r p).regs (q.1 + q.2.1)) ∧
      ((d.piece16 (s.plane r p).regs q.1).2 ≤ q.1 + q.2.1 → (t.plane r p).lock[k]? = some []) := by
  obtain ⟨hout, hin⟩ := tsStore_quiet hst ((isPath_iff pathC).2 (by simp [pathC])) c.id a (d.partBytes s.tick q)
  obtain ⟨hmem, hdue, hch, hwm, hlock⟩ := partDone_spec (tsStore s r pathC c.id a (d.partBytes s.tick q)) r p d q hk
    (ht.trans (moveNext_eq hm hd))
  rw [tsStore_plane] at hch hwm hlock
  rw [CopyCmd.partBytes_length] at hout hin
  refine ⟨fun i hi => ?_, fun b hb => ?_, hdue, hch, hwm, hlock⟩
  · rw [hmem, hin hsafe i hi, CopyCmd.partBytes_getElem? hi (by omega) hq]
  · rw [hmem, hout b hb]

/-- R121: the first part of a run, whose command then holds the rest of it. -/
theorem firstPart_spec {s t : State} {r p k n : Nat} {c : CopyCmd} {x : CRun} (hk : k < 4) (hv : c.svault = false) (hd : c.dvault = false)
    (hsp : c.spec = false) (hn : n ≤ x.len) (hrd : x.rd = x.len) (hst : (s.tile r).stale = []) (hspec : (s.plane r p).spec = none)
    (hsafe : s.Safe) (ht : t = moveNext s r p k c (x.start, n, x)) :
    (∀ i < n, memGet t.mem (tsAddr r (copyPhys (s.plane r p) c x.dst) + i) =
      memGet s.mem (tsAddr r (copyPhys (s.plane r p) c x.src) + i)) ∧
    SameMemBut s t (tsAddr r (copyPhys (s.plane r p) c x.dst)) n ∧ t.Due (.watermarkAdvance r p k) ∧
    ∃ d l, (t.plane r p).ch k = d :: l ∧ d.moved = x.start + n ∧ d.id = c.id ∧
      ∀ i, n ≤ i → i < x.len → ngetD d.unit (x.start + i) 0 = memGet s.mem (tsAddr r (copyPhys (s.plane r p) c x.src) + i) := by
  let src := copyPhys (s.plane r p) c x.src
  let b := tsBytes s r p pathC src x.rd
  have hdst : x.dstOf x.start = x.dst := by simp [CRun.dstOf]
  have hread (i : Nat) (hi : i < x.len) : ngetD (c.holding x b).unit (x.start + i) 0 = memGet s.mem (tsAddr r src + i) := by
    rw [ngetD, CopyCmd.holding, CRun.nget_held (tsBytes_length _ _ _ _ _ _) (by omega), tsBytes_getElem? _ _ _ _ _ (by omega),
      Option.getD_some, tsByte_quiet hst hspec]
    rw [tsAddr, tsAddr, Nat.add_assoc]
  have hm := movePart_first (q := (x.start, n, x)) hd hsp hv hst rfl (b := b) rfl
  rw [hdst] at hm
  obtain ⟨hin, hout, hdue, hch, -, -⟩ := moved_spec (d := c.holding x b) hk hd hst hm le_rfl (by dsimp only; omega) hsafe ht
  refine ⟨fun i hi => (hin i hi).trans (hread i (by omega)), hout, hdue, _, _, hch, rfl, rfl, fun i hi hlt => ?_⟩
  rw [CopyCmd.past, ngetD, nget_filter_keys (fun j => decide (x.start + n ≤ j)) _ (by simpa using hi)]
  exact hread i hlt

/-- A later part of a run writes what the copy holds. -/
theorem laterPart_spec {s t : State} {r p k m n : Nat} {c : CopyCmd} {x : CRun} (hk : k < 4) (hd : c.dvault = false)
    (hsp : c.spec = false) (hm : x.start < m) (hn : m + n ≤ x.start + x.rd) (hst : (s.tile r).stale = []) (hsafe : s.Safe)
    (ht : t = moveNext s r p k c (m, n, x)) :
    (∀ i < n, memGet t.mem (tsAddr r (copyPhys (s.plane r p) c (x.dstOf m)) + i) = ngetD c.unit (m + i) 0) ∧
    SameMemBut s t (tsAddr r (copyPhys (s.plane r p) c (x.dstOf m))) n ∧ t.Due (.watermarkAdvance r p k) ∧
    (t.plane r p).regs.wmark[k]? = some (c.mark (s.plane r p).regs (m + n)) ∧
    ((c.piece16 (s.plane r p).regs m).2 ≤ m + n → (t.plane r p).lock[k]? = some []) ∧
    ((t.plane r p).ch k).head?.map (·.moved) = some (m + n) := by
  obtain ⟨hin, hout, hdue, hch, hwm, hlock⟩ := moved_spec hk hd hst (movePart_later (q := (m, n, x)) hd hsp hm) (Nat.le_of_lt hm) hn
    hsafe ht
  exact ⟨hin, hout, hdue, hwm, hlock, by rw [hch]; rfl⟩

/-! ## The end of a copy (R96, R227, R228) -/

/-- A command but for whether its flag was found set. -/
def CopyCmd.unfired (c : CopyCmd) : CopyCmd := { c with fired := none }

/-- R228: of the channels nothing changes when flags have been set, but that a COPYQ may have found its own. -/
theorem Plane.fire_ch (pl : Plane) (k : Nat) : (pl.fire.ch k).map CopyCmd.unfired = (pl.ch k).map CopyCmd.unfired := by
  simp only [Plane.fire, Plane.ch, Vector.getElem?_mapIdx]
  cases pl.chan[k]? with
  | none => rfl
  | some l =>
    cases l with
    | nil => rfl
    | cons c l =>
      simp only [Option.map_some, Option.getD_some]
      split <;> rfl

/-- The channels go on, but for what flags release, and the windows stay. -/
def Plane.ChansKept (a b : Plane) : Prop :=
  (∀ k, (b.ch k).map CopyCmd.unfired = (a.ch k).map CopyCmd.unfired) ∧ b.window = a.window ∧ b.mx = a.mx

theorem Plane.ChansKept.refl (pl : Plane) : pl.ChansKept pl := ⟨fun _ => rfl, rfl, rfl⟩

theorem Plane.complete_chansKept (pl : Plane) (fn id : Nat) (q : Quad) : pl.ChansKept (pl.complete fn id q) := by
  unfold Plane.complete
  split
  · exact Plane.ChansKept.refl pl
  · dsimp only
    split
    · split <;> exact ⟨Plane.fire_ch _, rfl, rfl⟩
    · exact ⟨Plane.fire_ch _, rfl, rfl⟩

/-- A channel whose copy has ended: the window is closed and the flag is set. -/
def chClosed (s : State) (r p k : Nat) (c : CopyCmd) : State :=
  completeFlag ((setCh s r p k ((s.plane r p).ch k).tail).modPlane r p (fun pl =>
    { pl with window := pl.window.setIfInBounds k none, lock := pl.lock.setIfInBounds k [] })) r p c.flag c.id
    (copyRecord 0 0 c.moved k)

/-- The follow-on of a copy as the matrix queue takes it (R227). -/
def CopyCmd.followMx (c : CopyCmd) (f : MMm) (x : Word) : Mx :=
  { id := c.id, op := .mma f, xv := x, mon := c.mon, spec := c.spec, follow := true }

/-- What becomes of the follow-on when its copy has ended (R227). -/
def followOn (s : State) (r p : Nat) (c : CopyCmd) : State :=
  match c.follow with
  | none => s
  | some (f, x) => if c.followCancel then endFollow s r p c 0x12 else mxPush s r p (c.followMx f x)

theorem exec_copyComplete_eq (s : State) {r p k : Nat} (h : (Instr.copyComplete r p k).wf = true) :
    exec (.copyComplete r p k) s = .next (copyDone s r p k) := by
  have e : exec (.copyComplete r p k) s = execCopyComplete r p k s := rfl
  rw [e, execCopyComplete]
  exact runEvent_ok h

theorem copyDone_eq {s : State} {r p k : Nat} {c : CopyCmd} {l : List CopyCmd} (hch : (s.plane r p).ch k = c :: l)
    (hs : c.started = true) (hm : c.total (s.plane r p).regs ≤ c.moved) (ha : c.arr = false) :
    copyDone s r p k = pumpTile (chKick (followOn (chClosed s r p k c) r p c) r p k) r := by
  have hgo : ¬ ((!c.started) = true ∨ c.moved < c.total (s.plane r p).regs) := by simp [hs, hm]
  simp only [copyDone, hch, List.head?_cons, if_neg hgo, ha, Bool.false_eq_true, if_false]
  rw [followOn, chClosed, hch]
  rfl

theorem mxSettled_plane (s : State) (r q o : Nat) : (mxSettled s r).plane q o = s.plane q o :=
  modTile_plane_eq s r (fun t p => Tile.withStale_pl t (orderUpTo (fun e => decide (e.path = pathC)) pathX t.stale) p) q o

/-- A matrix instruction joins its plane's queue, and nothing else of the plane changes. -/
theorem mxPush_plane (s : State) (r p : Nat) (e : Mx) : (mxPush s r p e).plane r p =
    { s.plane r p with mx := (s.plane r p).mx ++ [e] } := by
  rw [mxPush, (mxKick_onlyDue _ _ _).plane_eq, State.modPlane_plane]
  split
  · rw [mxSettled_plane]
  · rfl

theorem mxPush_mem (s : State) (r p : Nat) (e : Mx) : (mxPush s r p e).mem = s.mem := by
  rw [mxPush, (mxKick_onlyDue _ _ _).mem_eq]
  split <;> rfl

theorem completeFlag_flagSet {s : State} {r p fn id : Nat} (q : Quad) (h : ((s.plane r p).regs.fl fn).bound = some id) (hf : fn < 64) :
    FlagSet (completeFlag s r p fn id q) r p fn q := by
  have hfl : ((completeFlag s r p fn id q).plane r p).regs.fl fn =
      { on := true, status := q, bound := none, last := id, soft := false } := by
    rw [completeFlag, State.modPlane_plane]
    exact Plane.complete_flag q h hf
  exact ⟨by rw [hfl], by rw [hfl], by rw [hfl]⟩

section
variable {s : State} {r p k : Nat} {c : CopyCmd} {l : List CopyCmd}

theorem chClosed_spec (hk : k < 4) (hch : (s.plane r p).ch k = c :: l) : ∃ pl : Plane,
    (chClosed s r p k c).plane r p = pl ∧ (pl.ch k).map CopyCmd.unfired = l.map CopyCmd.unfired ∧ pl.window[k]? = some none ∧
      pl.mx = (s.plane r p).mx := by
  refine ⟨_, rfl, ?_⟩
  rw [chClosed, completeFlag, State.modPlane_plane, State.modPlane_plane, setCh_plane, hch]
  obtain ⟨hchan, hwin, hmx⟩ := Plane.complete_chansKept { s.plane r p with
    chan := (s.plane r p).chan.setIfInBounds k l, window := (s.plane r p).window.setIfInBounds k none
    lock := (s.plane r p).lock.setIfInBounds k [] } c.flag c.id (copyRecord 0 0 c.moved k)
  refine ⟨(hchan k).trans ?_, ?_, hmx⟩
  · rw [Plane.ch, getElem?_setIfInBounds _ _ hk, Option.getD_some]
  · rw [List.tail_cons, hwin]
    exact getElem?_setIfInBounds _ _ hk

theorem chClosed_flagSet (hf : c.flag < 64) (hb : ((s.plane r p).regs.fl c.flag).bound = some c.id) :
    FlagSet (chClosed s r p k c) r p c.flag (copyRecord 0 0 c.moved k) := by
  refine completeFlag_flagSet _ ?_ hf
  rw [State.modPlane_plane, setCh_plane]
  exact hb

/-- What follows the end of a copy leaves its channel as it is. -/
theorem followOn_spec (s : State) (r p : Nat) (c : CopyCmd) : (followOn s r p c).mem = s.mem ∧
    (((followOn s r p c).plane r p).ch k).map CopyCmd.unfired = ((s.plane r p).ch k).map CopyCmd.unfired ∧
    ((followOn s r p c).plane r p).window = (s.plane r p).window := by
  unfold followOn
  split
  · exact ⟨rfl, rfl, rfl⟩
  next f x hf =>
    split
    · rw [endFollow, hf]
      dsimp only
      rw [completeFlag, State.modPlane_plane]
      obtain ⟨hchan, hwin, -⟩ := Plane.complete_chansKept (s.plane r p) f.fn c.id (mxRecord stCANCELLED 0x12 0 f.acc)
      exact ⟨rfl, hchan k, hwin⟩
    · rw [mxPush_plane]
      exact ⟨mxPush_mem _ _ _ _, rfl, rfl⟩

/-- R96, R226, R227: the end of a copy. -/
theorem copyDone_spec (hk : k < 4) (hch : (s.plane r p).ch k = c :: l) (hs : c.started = true)
    (hm : c.total (s.plane r p).regs ≤ c.moved) (ha : c.arr = false) (hf : c.flag < 64)
    (hb : ((s.plane r p).regs.fl c.flag).bound = some c.id) :
    ∃ u, copyDone s r p k = pumpTile (chKick u r p k) r ∧
      ((u.plane r p).ch k).map CopyCmd.unfired = l.map CopyCmd.unfired ∧
      (u.plane r p).window[k]? = some none ∧ SameMem s u ∧
      (c.follow = none → FlagSet u r p c.flag (copyRecord 0 0 c.moved k)) ∧
      (∀ m x, c.follow = some (m, x) → c.followCancel = false → FlagSet u r p c.flag (copyRecord 0 0 c.moved k) ∧
        ∃ e, (u.plane r p).mx = (s.plane r p).mx ++ [e] ∧ e.op = .mma m ∧ e.xv = x ∧ e.id = c.id) := by
  obtain ⟨pl, hpl, hchan, hwin, hmx⟩ := chClosed_spec hk hch
  obtain ⟨fmem, fchan, fwin⟩ := followOn_spec (k := k) (chClosed s r p k c) r p c
  have hflag := chClosed_flagSet (k := k) hf hb
  rw [hpl] at fchan fwin
  refine ⟨_, copyDone_eq hch hs hm ha, fchan.trans hchan, by rw [fwin, hwin], sameMem_of_mem_eq fmem, fun hn => ?_, fun m x hx hc => ?_⟩
  · rw [followOn, hn]
    exact hflag
  · have hgo : followOn (chClosed s r p k c) r p c = mxPush (chClosed s r p k c) r p (c.followMx m x) := by
      rw [followOn, hx]
      exact if_neg (by simp [hc])
    rw [hgo, FlagSet, mxPush_plane, hpl, hmx]
    rw [FlagSet, hpl] at hflag
    exact ⟨hflag, _, rfl, rfl, rfl, rfl⟩

end

/-- A channel of a well-formed step is one of the four. -/
theorem chan_lt {r p k : Nat} (h : (rankWf r && planeWf p && decide (k < 4)) = true) : k < 4 := by
  simp only [Bool.and_eq_true, decide_eq_true_eq] at h
  exact h.2

/-- Settles O46. A start and an end are one step each; a part is written as it was read at the first part of its run (movePart_first,
movePart_later), and what follows its write changes no memory (partDone_spec). -/
theorem copySteps : Obligations.CopySteps := by
  unfold Obligations.CopySteps
  refine ⟨?start, ?advance, ?run, ?first, ?later, ?done⟩
  case start =>
    intro s r p k c l hwf hch hs hfree
    rw [exec_copyStart_eq s hwf]
    refine ⟨fun fk hfk hf ho => ⟨_, rfl, ?_, ?_, ?_⟩, fun h => ?_⟩
    · rw [copyStartAt_waits hch hs hfree (CopyCmd.go_none hfk hf ho)]
      exact emitOnce_due _ _
    · rw [copyStartAt_waits hch hs hfree (CopyCmd.go_none hfk hf ho), emitOnce_tiles]
    · rw [copyStartAt_waits hch hs hfree (CopyCmd.go_none hfk hf ho)]
      exact sameMem_of_mem_eq (emitOnce_mem _ _)
    · obtain ⟨fl, hfl⟩ := CopyCmd.go_some h
      exact ⟨_, rfl, copyStart_spec hch hs hfree (chan_lt hwf) hfl rfl⟩
  case advance =>
    intro s r p k c l q hwf hch hs hw
    rw [exec_watermarkAdvance_eq s hwf]
    refine ⟨fun h => by rw [advanceAt_done hch hs hw h], fun h hv hq => ?_⟩
    obtain ⟨hwait, hfault, hclear⟩ := advanceAt_part hch hs hw h hv hq
    exact ⟨fun hg => by rw [hwait hg], fun fn hg => by rw [hfault fn hg], fun hg hsp => by rw [hclear hg hsp]⟩
  case run =>
    intro c g i ht hi
    have hdst : ((c.dst : Int) + ((i : Nat) : Int)).toNat = c.dst + i := by omega
    refine ⟨_, CopyCmd.runAt_first g ht hi, rfl, rfl, rfl, rfl, rfl, ?_⟩
    simp only [CopyCmd.partEnd, CopyCmd.runAt_first g ht hi, Nat.zero_add, Nat.sub_zero, hdst]
  case first =>
    intro s t r p k n c x hk hc hv hd hsp h0 hn hrd hst hspec hsafe ht
    exact firstPart_spec hk hv hd hsp hn hrd hst hspec hsafe ht
  case later =>
    intro s t r p k m n c x hk hc hd hsp hm hn hst hspec hsafe ht
    exact laterPart_spec hk hd hsp hm hn hst hsafe ht
  case done =>
    intro s r p k c l hwf hch hs hm ha hf hb
    obtain ⟨u, hu, h⟩ := copyDone_spec (chan_lt hwf) hch hs hm ha hf hb
    exact ⟨u, by rw [exec_copyComplete_eq s hwf, hu], h⟩

end Sys2Proof.Machine
end

section
/-! SUPPORT. The bytes behind vaults and hosts (R107, R322, R326): a run of bytes of one page, or of one window, is read and written as a
run of bytes of memory; and the numbers that Table 6.2 makes of them. -/

namespace Sys2Proof.Machine

/-! ## Runs of bytes -/

/-- Bytes read one by one from addresses in a row. -/
theorem map_memGet_row (m : List Host.Cell) {f : Nat → Nat} {a n : Nat} (h : ∀ i < n, f i = a + i) :
    (List.range n).map (fun i => memGet m (f i)) = memRead m a n := by
  refine List.ext_getElem? (fun i => ?_)
  by_cases hi : i < n
  · rw [memRead_getElem? _ _ _ _ hi, List.getElem?_map, List.getElem?_range hi, Option.map_some, h i hi]
  · rw [List.getElem?_eq_none (by simpa using hi), List.getElem?_eq_none (by simpa using hi)]

/-- Bytes written one by one to addresses in a row. -/
theorem foldl_memPut_row (b : List Byte) (m : List Host.Cell) {f : Nat → Nat} {a : Nat} (h : ∀ i < b.length, f i = a + i) :
    (List.range b.length).foldl (fun m i => memPut m (f i) ((b[i]?).getD 0)) m = memWrite m a b := by
  induction b generalizing m f a with
  | nil => rfl
  | cons x b ih =>
    rw [List.length_cons, List.range_succ_eq_map, List.foldl_cons, List.foldl_map, memWrite, h 0 (by simp)]
    exact ih _ (f := fun i => f (i + 1)) (fun i hi => (h (i + 1) (by simpa using hi)).trans (by omega))

/-- A write of bytes leaves every byte but those that it names. -/
theorem memWrite_but {s t : State} {a : Nat} {b : List Byte} (h : t.mem = memWrite s.mem a b) : SameMemBut s t a b.length :=
  fun j hj => by rw [h, memGet_memWrite_out _ _ hj]

/-- What was written reads back as it was. -/
theorem memWrite_reads {s t : State} {a : Nat} {b : List Byte} (h : t.mem = memWrite s.mem a b) (hs : s.Safe) :
    memRead t.mem a b.length = b := by
  rw [h, memRead_memWrite hs]

/-! ## Vault memory -/

/-- The bytes of one page lie in a row. -/
theorem dpaAddr_add (s : State) (pkg dpa i : Nat) (h : dpa % 65536 + i < 65536) : s.dpaAddr pkg (dpa + i) = s.dpaAddr pkg dpa + i := by
  have hpage : dpn64 (dpa + i) = dpn64 dpa := by
    unfold dpn64 bitsHL
    omega
  simp only [State.dpaAddr, hpage, vaultAddr]
  omega

theorem dpaBytes_eq (s : State) {pkg dpa n : Nat} (h : dpa % 65536 + n ≤ 65536) :
    s.dpaBytes pkg dpa n = memRead s.mem (s.dpaAddr pkg dpa) n :=
  map_memGet_row s.mem (fun i hi => dpaAddr_add s pkg dpa i (by omega))

theorem dpaStore_mem (s : State) {pkg dpa : Nat} {b : List Byte} (h : dpa % 65536 + b.length ≤ 65536) :
    (s.dpaStore pkg dpa b).mem = memWrite s.mem (s.dpaAddr pkg dpa) b :=
  foldl_memPut_row b s.mem (fun i hi => dpaAddr_add s pkg dpa i (by omega))

/-- R326: bytes that can be read as they stand are read so, and nothing changes. -/
theorem vaultRead_readable {s : State} {home pkg dpa n : Nat} (h : Readable s pkg dpa home n) :
    vaultRead s home pkg dpa n = (s, .ok (memRead s.mem (s.dpaAddr pkg dpa) n)) := by
  obtain ⟨hpage, hbad, hobj⟩ := h
  have hnone : (s.vault home).objects.filter (fun o => (granDpas dpa n).contains o.1) = [] := by
    rw [List.filter_eq_nil_iff]
    intro o ho
    rw [hobj o ho]
    exact Bool.false_ne_true
  have hprep : readPrep s home pkg dpa n = (s, none) := by rw [readPrep, hnone]; rfl
  rw [vaultRead, hbad]
  simp only [hprep, dpaBytes_eq s hpage]

/-! ## Host memory -/

theorem hostByte_add {q : Req} {i : Nat} (h : q.base ≤ i) (k : Nat) : hostByte q (i + k) = hostByte q i + k := by
  simp only [hostByte, hostOff, hostAddr]
  omega

theorem hostRead_eq (s : State) {q : Req} {i : Nat} (h : q.base ≤ i) (n : Nat) : hostRead s q i n = memRead s.mem (hostByte q i) n :=
  map_memGet_row s.mem (fun k _ => hostByte_add h k)

theorem hostWrite_mem (s : State) {q : Req} {i : Nat} (h : q.base ≤ i) (b : List Byte) :
    (hostWrite s q i b).mem = memWrite s.mem (hostByte q i) b :=
  foldl_memPut_row b s.mem (fun k _ => hostByte_add h k)

/-! ## Atomic operations (Table 6.2) -/

/-- An atomic operation gives a number of the width of its operands. -/
theorem atomOp_lt {op w old a b v : Nat} (ho : old < 2 ^ (8 * w)) (h : atomOp op w old a b = some v) : v < 2 ^ (8 * w) := by
  have hpos : 0 < 2 ^ (8 * w) := Nat.two_pow_pos _
  have ha := Nat.mod_lt a hpos
  have hb := Nat.mod_lt b hpos
  match op with
  | 0 => exact Option.some.inj h ▸ Nat.mod_lt _ hpos
  | 1 => exact Option.some.inj h ▸ Nat.and_lt_two_pow _ ha
  | 2 => exact Option.some.inj h ▸ Nat.or_lt_two_pow ho ha
  | 3 => exact Option.some.inj h ▸ Nat.xor_lt_two_pow ho ha
  | 4 | 5 => rw [← Option.some.inj h]; dsimp only; split <;> assumption
  | 6 => exact Option.some.inj h ▸ min_lt_of_left_lt ho
  | 7 => exact Option.some.inj h ▸ max_lt ho ha
  | 8 => exact Option.some.inj h ▸ ha
  | 9 => rw [← Option.some.inj h]; split <;> assumption
  | n + 10 => exact absurd h (by simp [atomOp])

/-- Of the ten operations each has a result. -/
theorem atomOp_isSome {op : Nat} (w old a b : Nat) (h : op < 10) : ∃ v, atomOp op w old a b = some v := by
  match op, h with
  | 0, _ | 1, _ | 2, _ | 3, _ | 4, _ | 5, _ | 6, _ | 7, _ | 8, _ | 9, _ => exact ⟨_, rfl⟩

/-- A CAS whose compare fails leaves the number as it is. -/
theorem atomOp_of_noWrite {op w old a : Nat} (b : Nat) (h : atomWrites op w old a = false) : atomOp op w old a b = some old := by
  simp only [atomWrites, decide_eq_false_iff_not, not_or, not_not] at h
  obtain ⟨rfl, hne⟩ := h
  simp [atomOp, hne]

/-- The number that n bytes make and the number that an atomic operation makes of it, stored, are read back. -/
theorem leNat_atom {n op a b : Nat} {l : List Byte} (hl : l.length = n) :
    leNat (leBytes n ((atomOp op n (leNat l) a b).getD (leNat l))) = (atomOp op n (leNat l) a b).getD (leNat l) := by
  have hlt : leNat l < 2 ^ (8 * n) := hl ▸ leNat_lt l
  rw [leNat_leBytes, Nat.mod_eq_of_lt]
  cases h : atomOp op n (leNat l) a b with
  | none => exact hlt
  | some v => exact atomOp_lt hlt h

/-- Table 6.2: memory in which an atomic operation was made at an address, if it writes: its operand's bytes alone have changed, to its
result. -/
theorem atomMem_spec {s t : State} {x w op a b old : Nat} (hold : old = leNat (memRead s.mem x w))
    (ht : t.mem = if atomWrites op w old a = true then memWrite s.mem x (leBytes w ((atomOp op w old a b).getD old)) else s.mem) :
    SameMemBut s t x w ∧ (s.Safe → leNat (memRead t.mem x w) = (atomOp op w old a b).getD old) := by
  cases hw : atomWrites op w old a with
  | false =>
    rw [hw] at ht
    have hmem : t.mem = s.mem := ht
    exact ⟨fun _ _ => by rw [hmem], fun _ => by rw [hmem, ← hold, atomOp_of_noWrite b hw, Option.getD_some]⟩
  | true =>
    rw [hw] at ht
    have hmem : t.mem = memWrite s.mem x (leBytes w ((atomOp op w old a b).getD old)) := ht
    have hval := leNat_atom (op := op) (a := a) (b := b) (memRead_length s.mem x w)
    have hbut := memWrite_but hmem
    have hread := memWrite_reads hmem
    rw [leBytes_length] at hbut hread
    rw [← hold] at hval
    exact ⟨hbut, fun hs => by rw [hread hs, hval]⟩

end Sys2Proof.Machine
end

section
/-! SUPPORT. What the message engine keeps while it tries its requests (R101, R315 to R318): all of memory, what was due, and every
plane's deliveries. -/

namespace Sys2Proof.Machine

/-! ## Lookups -/

theorem modTile_landedKept (s : State) (r : Nat) {f : Tile → Tile} (h : ∀ t p, (f t).pl p = t.pl p := by exact fun _ _ => rfl) :
    LandedKept s (s.modTile r f) :=
  ⟨rfl, fun _ hi => hi, fun q o => by rw [modTile_plane_eq s r h]; exact Plane.LandedKept.refl _⟩

theorem modPkg_landedKept (s : State) (k : Nat) (f : Package → Package) : LandedKept s (s.modPkg k f) :=
  ⟨rfl, fun _ hi => hi, fun _ _ => Plane.LandedKept.refl _⟩

theorem putReq_landedKept (s : State) (r : Nat) (q : ReqSt) : LandedKept s (putReq s r q) := modTile_landedKept s r

theorem dropReq_landedKept (s : State) (r id : Nat) : LandedKept s (dropReq s r id) := modTile_landedKept s r

/-- A lookup notes the use of the entry that it finds (R315). -/
theorem lookupTile_landedKept {s u : State} {r part va : Nat} {t : Tr} (h : lookupTile s r part va = some (t, u)) :
    LandedKept s u := by
  unfold lookupTile at h
  dsimp only at h
  split at h
  case h_1 =>
    obtain ⟨-, rfl⟩ := h
    exact modTile_landedKept s r
  case h_2 =>
    split at h
    case h_1 =>
      obtain ⟨-, rfl⟩ := h
      exact modTile_landedKept s r
    case h_2 =>
      split at h
      case h_1 =>
        obtain ⟨-, rfl⟩ := h
        exact (modPkg_landedKept s _ _).trans (modTile_landedKept _ r)
      case h_2 => contradiction

/-! ## A request on its way out -/

theorem refuseReq_landedKept (s : State) (r : Nat) (q : ReqSt) (fc : Nat) : LandedKept s (refuseReq s r q fc) :=
  (putReq_landedKept s r _).trans (emit_onlyDue _ _).landedKept

theorem emitReq_landedKept (s : State) (q : Req) : LandedKept s (emitReq s q) := (emitNet_onlyDue s _ _ _ _).landedKept

theorem markRead_landedKept {s : State} {r : Nat} {q : Req} {under : Bool} {x : Req × State} (h : markRead s r q under = some x) :
    LandedKept s x.2 := by
  unfold markRead at h
  dsimp only at h
  split at h
  case h_2 => exact congrArg Prod.snd (Option.some.inj h) ▸ LandedKept.refl s
  case h_1 =>
    split at h
    · exact congrArg Prod.snd (Option.some.inj h) ▸ LandedKept.refl s
    · split at h
      · exact congrArg Prod.snd (Option.some.inj h) ▸ LandedKept.refl s
      · split at h
        · rw [← Option.some.inj h]
          exact modPlane_landedKept s r q.plane (fun pl => ⟨rfl, fun hn => by rw [hn, Option.map_none]⟩)
        · contradiction

theorem sendReq_landedKept (s : State) (r : Nat) (q : ReqSt) : LandedKept s (sendReq s r q) := by
  unfold sendReq
  split
  · exact LandedKept.refl s
  · split
    · exact LandedKept.refl s
    · exact LandedKept.refl s
    · exact refuseReq_landedKept s r q _
    · split
      · exact (putReq_landedKept s r _).trans (modPlane_landedKept _ r _ (fun _ => ⟨rfl, id⟩))
      next h =>
        have hm := (tsSeen_landedKept s r _ _ _).trans (markRead_landedKept h)
        exact .trans (.trans hm (putReq_landedKept _ r _)) (emitReq_landedKept _ _)

theorem withEntry_landedKept (s : State) (r : Nat) (q : ReqSt) (t : Tr) : LandedKept s (withEntry s r q t) := by
  unfold withEntry
  dsimp only
  split
  · exact refuseReq_landedKept s r q _
  · split
    · exact refuseReq_landedKept s r _ _
    · exact (putReq_landedKept s r _).trans (sendReq_landedKept _ r _)

theorem missWalk_landedKept (s : State) (r : Nat) (q : ReqSt) : LandedKept s (missWalk s r q) := by
  unfold missWalk
  dsimp only
  split_ifs
  · exact LandedKept.refl s
  · exact modPkg_landedKept s _ _
  · exact (modPkg_landedKept s _ _).trans (emit_onlyDue _ _).landedKept
  · exact modPkg_landedKept s _ _

theorem tryKnown_landedKept (s : State) (r : Nat) (q : ReqSt) : LandedKept s (tryKnown s r q) := by
  unfold tryKnown
  split_ifs
  · exact sendReq_landedKept s r q
  · exact LandedKept.refl s
  · split
    next h => exact (lookupTile_landedKept h).trans (withEntry_landedKept _ r q _)
    next => exact missWalk_landedKept s r q

theorem tryQuery_landedKept (s : State) (r : Nat) (q : ReqSt) : LandedKept s (tryQuery s r q) := by
  unfold tryQuery
  split
  · exact tryKnown_landedKept s r q
  · split
    · exact refuseReq_landedKept s r q _
    · exact LandedKept.refl s
    · dsimp only
      split
      · exact (putReq_landedKept s r _).trans (refuseReq_landedKept _ r _ _)
      · exact (putReq_landedKept s r _).trans (tryKnown_landedKept _ r _)

theorem tryReq_landedKept (s : State) (r : Nat) (q : ReqSt) : LandedKept s (tryReq s r q) := by
  unfold tryReq
  split_ifs
  · exact LandedKept.refl s
  · exact tryQuery_landedKept s r q
  · exact tryKnown_landedKept s r q

/-! ## The engine at large -/

theorem pumpReqs_landedKept (s : State) (r : Nat) : LandedKept s (pumpReqs s r) := by
  refine foldl_landedKept (fun s q => ?_) _ s
  split
  · exact tryReq_landedKept s r _
  · exact LandedKept.refl s

theorem pumpTile_landedKept (s : State) (r : Nat) : LandedKept s (pumpTile s r) :=
  (pumpSends_landedKept s r 0).trans ((pumpSends_landedKept _ r 1).trans (pumpReqs_landedKept _ r))

theorem nextWalks_landedKept (s : State) (k : Nat) : LandedKept s (nextWalks s k) := by
  refine (modPkg_landedKept s k _).trans (foldl_landedKept (fun s x => ?_) _ _)
  split
  · exact LandedKept.refl s
  · split
    · exact LandedKept.refl s
    · exact missWalk_landedKept s _ _

end Sys2Proof.Machine
end

section
/-! PROOFS. Answers (R101, R109, R124, R237, R282, R315, R318, R323, R325): what a reply, a retry, a walk's end, a release flit and a
host atomic do. -/

namespace Sys2Proof.Machine

/-! ## Replies (R237, R315) -/

theorem exec_vaultReply_eq (s : State) {p : Reply} (h : (Instr.vaultReply p).wf = true) :
    exec (.vaultReply p) s = .next (replyAt s p) := by
  have e : exec (.vaultReply p) s = execVaultReply p s := rfl
  rw [e, execVaultReply]
  exact runEvent_ok h

/-- A tile that has taken note of a reply: of the vault that answered (R323) and of the vault that its speculation has touched (R124). -/
def replyNoted (s : State) (p : Reply) : State :=
  (learnLoc s p.req.rank p).modPlane p.req.rank p.req.plane (fun pl => noteVault pl p.req p.home)

/-- What waited behind an answered request goes on. -/
def replyOver (s : State) (p : Reply) : State := pumpRelease (pumpTile s p.req.rank) p.req.rank p.req.plane

theorem learnLoc_kept (s : State) (r : Nat) (p : Reply) :
    (learnLoc s r p).mem = s.mem ∧ (learnLoc s r p).agenda = s.agenda := by
  unfold learnLoc
  split
  · exact ⟨rfl, rfl⟩
  · exact ⟨rfl, rfl⟩

section
variable {p : Reply} {s : State} {e : ReqSt} (he : (s.tile p.req.rank).reqOf p.req.id = some e)

theorem replyAt_gone (h : (s.tile p.req.rank).reqOf p.req.id = none) : replyAt s p = s := by simp only [replyAt, h]

include he

theorem replyAt_more (hst : p.status ≠ stFILTERFULL) (hm : morePart e.req p = true) :
    replyAt s p = replyOver (nextPart (replyNoted s p) p.req.rank e p) p := by
  simp only [replyAt, he, if_neg hst, if_pos hm, replyNoted, replyOver]

variable (hst : p.status ≠ stFILTERFULL) (hm : morePart e.req p = false)
include hst hm

theorem replyAt_ok {v : State} (ht : twinReq (replyNoted s p) p.req.rank p.req.plane p.req.id = none)
    (ha : answerOne (replyNoted s p) p.req.rank e (joined e.req p) = .ok v) :
    replyAt s p = replyOver v p := by
  rw [replyNoted] at ht ha
  simp only [replyAt, he, if_neg hst, hm, Bool.false_eq_true, if_false, ha, ht, replyOver]

theorem replyAt_waits {v : State} (ha : answerOne (replyNoted s p) p.req.rank e (joined e.req p) = .error v) :
    replyAt s p = emitOnce v (.vaultReply p) := by
  rw [replyNoted] at ha
  simp only [replyAt, he, if_neg hst, hm, Bool.false_eq_true, if_false, ha]

end

/-- Earlier bytes join those of a reply, and nothing else of it. -/
theorem joined_eq (q : Req) (p : Reply) : joined q p = { p with data := (joined q p).data } := by
  unfold joined
  split <;> rfl

section
variable (s : State) (r : Nat) {e : ReqSt} (p : Reply)

theorem answerOne_dropped (h : e.dropped = true) : answerOne s r e p = .ok (dropReq s r e.req.id) := by
  simp only [answerOne, h, if_true]

variable (hd : e.dropped = false)
include hd

theorem answerOne_copy {k : Nat} (h : e.owner = .copy k) :
    answerOne s r e p = .ok (copyReply (dropReq s r e.req.id) r e.req.plane k e.req p.status p.fcode p.data) := by
  simp only [answerOne, hd, Bool.false_eq_true, if_false, h]

theorem answerOne_flag (h : e.owner = .flag) : answerOne s r e p = endReq s r e.req p := by
  simp only [answerOne, hd, Bool.false_eq_true, if_false, h]

/-- R315: a part that is over leaves its request with the next part to send. -/
theorem nextPart_spec : (nextPart s r e p).mem = s.mem ∧ (nextPart s r e p).agenda = s.agenda ∧
    ((nextPart s r e p).tile r).reqs = (s.tile r).reqs.map (fun x => if x.req.id = e.req.id then
      { e with sent := false, len := 0, req := { e.req with vault := 0, base := p.done, done := p.done,
                                                            data := if e.req.op = .get then e.req.data ++ p.data else e.req.data } }
      else x) := by
  have h : nextPart s r e p = putReq s r { e with
      sent := false, len := 0
      req := { e.req with vault := 0, base := p.done, done := p.done,
                          data := if e.req.op = .get then e.req.data ++ p.data else e.req.data } } := by
    rw [nextPart, hd]
    rfl
  rw [h, putReq]
  exact ⟨rfl, rfl, by rw [State.modTile_tile]⟩

end

section
variable {s v : State} {r : Nat} {q : Req} {p : Reply}

theorem endReq_done (h : landReply s r q (replyBytes p) = .done v) : endReq s r q p =
    .ok (completeFlag (dropReq v r q.id) r q.plane q.flag q.id (reqRecord q p.status p.fcode p.home p.done (replyBytes p).length)) := by
  rw [endReq, h]

theorem endReq_faulted (h : landReply s r q (replyBytes p) = .faulted) : endReq s r q p =
    .ok (completeFlag (dropReq s r q.id) r q.plane q.flag q.id (reqRecord q stFAULT fcENGFAULT p.home 0 0)) := by
  rw [endReq, h]

theorem endReq_wait (h : landReply s r q (replyBytes p) = .wait v) : endReq s r q p = .error v := by rw [endReq, h]

end

/-- R237: where no window holds them back and no speculation is open, a reply's bytes land at the address of its request. -/
theorem landReply_clear {s : State} {r : Nat} {q : Req} {b : List Byte} (hw : winTile (s.tile r) q.plane q.dst b.length 4 = .clear)
    (hs : (s.plane r q.plane).spec = none) :
    ∃ v, landReply s r q b = .done v ∧ (AllSeen s r pathN → SameMemBut s v (tsAddr r q.dst) b.length) ∧
      SameGransBut s v r q.dst b.length ∧
      ((s.tile r).stale = [] → s.Safe → ∀ k (h : k < b.length), memGet v.mem (tsAddr r q.dst + k) = b[k]) := by
  cases b with
  | nil => exact ⟨s, rfl, fun _ _ _ => rfl, fun _ _ => rfl, fun _ _ k hk => absurd hk (Nat.not_lt_zero k)⟩
  | cons x b =>
    obtain ⟨hgran, hseen⟩ := tsStore_mem s r ((isPath_iff pathN).2 (by simp [pathN])) q.id q.dst (bytes := x :: b) (by simp)
    refine ⟨tsStore s r pathN q.id q.dst (x :: b), ?_, fun ha => (hseen ha).1, hgran, fun hst hsafe k hk => ?_⟩
    · simp only [landReply, reduceCtorEq, if_false, hw, hs]
    · rw [(hseen (allSeen_of_nil pathN hst)).2 hsafe k hk, List.getElem?_eq_getElem hk, Option.getD_some]

/-! ## Retries (R325) -/

section
variable {s : State} {q : Req} (h : (Instr.rnrRetry q).wf = true)
include h

theorem exec_rnrRetry_gone (he : (s.tile q.rank).reqOf q.id = none) : exec (.rnrRetry q) s = .next s := by
  have e : exec (.rnrRetry q) s = execRnrRetry q s := rfl
  rw [e, execRnrRetry]
  refine (runEvent_ok h).trans ?_
  rw [he]

theorem exec_rnrRetry_again {e : ReqSt} (he : (s.tile q.rank).reqOf q.id = some e) (hd : e.dropped = false) :
    exec (.rnrRetry q) s = .next (emitReq s { q with tries := q.tries + 1 }) := by
  have e : exec (.rnrRetry q) s = execRnrRetry q s := rfl
  rw [e, execRnrRetry]
  refine (runEvent_ok h).trans ?_
  simp only [he, hd, Bool.false_eq_true, if_false]

end

/-- A request goes on its way to its target. -/
theorem emitReq_due (s : State) (q : Req) :
    (emitReq s q).Due (reqEvent { q with data := if q.op = .get then [] else q.data }) := by
  have h : (if q.op = .get then { q with data := [] } else q) = { q with data := if q.op = .get then [] else q.data } := by
    split <;> rfl
  rw [emitReq, h]
  exact emitNet_due _ _ _ _ _

/-! ## The end of a walk (R315, R318) -/

/-- A tile's entries hold the one just added: an entry that it replaces stands before it. -/
theorem mem_fillTile (l : List Tr) (t : Tr) : t ∈ fillTile l t := by
  have hlast : t ∈ touchTr l t := by simp [touchTr]
  have hroom : 1 ≤ if t.range then 4 else 32 := by split <;> omega
  cases hf : (l.filter (fun u => decide (u ≠ t))).find? (fun u => decide (u.range = t.range)) with
  | none =>
    have hone : ((touchTr l t).filter (fun u => decide (u.range = t.range))) = [t] := by
      rw [touchTr, List.filter_append, List.filter_eq_nil_iff.2 (List.find?_eq_none.1 hf)]
      simp
    have hfits : ((touchTr l t).filter (fun u => decide (u.range = t.range))).length ≤ if t.range then 4 else 32 := by
      rw [hone]
      exact hroom
    have he : fillTile l t = touchTr l t := if_pos hfits
    exact he ▸ hlast
  | some u =>
    have hne : t ≠ u := by
      have h := (List.mem_filter.1 (List.mem_of_find?_eq_some hf)).2
      exact fun e => of_decide_eq_true h e.symm
    have hu : (touchTr l t).find? (fun u => decide (u.range = t.range)) = some u := by
      rw [touchTr, List.find?_append, hf, Option.some_or]
    simp only [fillTile, hu]
    generalize (if t.range = true then 4 else 32) = room
    split
    · exact hlast
    · exact (List.mem_erase_of_ne hne).2 hlast

/-- The die's entries hold the one just added. -/
theorem mem_fillTlb (l : List Tr) (t : Tr) : t ∈ fillTlb l t := by
  unfold fillTlb
  dsimp only
  split
  · simp [touchTr]
  next h =>
    rw [touchTr, List.drop_append_of_le_length]
    · simp
    · rw [touchTr, List.length_append, List.length_singleton] at h
      omega

/-- R315: what a lookup finds, in the order of its steps: a range of the package, a page of the tile, a page of the die. -/
theorem lookupTile_entry (s : State) (r part va : Nat) : (lookupTile s r part va).map (·.1) =
    ((s.pkg (pkgOf r)).rangeFor part va).or (((s.tile r).tr.find? (fun u => !u.range && u.covers part va)).or
      ((ngetD (s.pkg (pkgOf r)).tlb (dieOf (epOf r)) []).find? (fun u => u.covers part va))) := by
  unfold lookupTile
  dsimp only
  split
  next h => rw [h]; rfl
  next h =>
    rw [h, Option.none_or]
    split
    next h => rw [h]; rfl
    next h =>
      rw [h, Option.none_or]
      split
      next h => rw [h]; rfl
      next h => rw [h]; rfl

/-- The walks in progress that a walk's end leaves. -/
def walkOver (s : State) (q : Req) : State :=
  s.modPkg (pkgOf q.rank) (fun p => { p with walks := p.walks.filter (fun w =>
    !decide (w.die = dieOf (epOf q.rank) ∧ w.part = q.part ∧ w.page = nextVa q / 4096)) })

theorem lookupTile_walkOver (s : State) (q : Req) (r part va : Nat) :
    (lookupTile (walkOver s q) r part va).map (·.1) = (lookupTile s r part va).map (·.1) := by
  have hrange : ∀ k, ((walkOver s q).pkg k).rangeFor part va = (s.pkg k).rangeFor part va ∧
      ((walkOver s q).pkg k).tlb = (s.pkg k).tlb := by
    intro k
    by_cases h : k = pkgOf q.rank
    · subst h
      rw [walkOver, State.modPkg_pkg]
      exact ⟨rfl, rfl⟩
    · rw [walkOver, State.modPkg_pkg_ne _ _ h]
      exact ⟨rfl, rfl⟩
  obtain ⟨hr, ht⟩ := hrange (pkgOf r)
  rw [lookupTile_entry, lookupTile_entry, hr, ht]
  rfl

/-- R318: the end of a walk for one request. -/
theorem exec_pageWalkEnd_eq {s : State} {q : Req} (h : (Instr.pageWalkEnd q).wf = true)
    (hone : ∀ w ∈ (s.pkg (pkgOf q.rank)).walks, w.die = dieOf (epOf q.rank) → w.part = q.part → w.page = (q.va + q.base) / 4096 →
      w.reqs = [(q.rank, q.id)])
    (hok : ∀ w, walk s (pkgOf q.rank) q.part (nextVa q) = .error w → w.bad = none) :
    exec (.pageWalkEnd q) s = .next (nextWalks (serveWalk (walkOver s q) q.rank q.id (walk s (pkgOf q.rank) q.part (nextVa q)))
      (pkgOf q.rank)) := by
  have e : exec (.pageWalkEnd q) s = execPageWalkEnd q s := rfl
  rw [e, execPageWalkEnd]
  refine (runEvent_ok h).trans ?_
  have hl : (((s.pkg (pkgOf q.rank)).walks.find? (fun w =>
      decide (w.die = dieOf (epOf q.rank) ∧ w.part = q.part ∧ w.page = nextVa q / 4096))).map (·.reqs)).getD [(q.rank, q.id)] =
      [(q.rank, q.id)] := by
    cases hf : (s.pkg (pkgOf q.rank)).walks.find? (fun w =>
        decide (w.die = dieOf (epOf q.rank) ∧ w.part = q.part ∧ w.page = nextVa q / 4096)) with
    | none => rfl
    | some w =>
      obtain ⟨hdie, hpart, hpage⟩ : _ ∧ _ ∧ _ := of_decide_eq_true (List.find?_some (p := fun w => decide (_ ∧ _ ∧ _)) hf)
      exact hone w (List.mem_of_find?_eq_some hf) hdie hpart hpage
  dsimp only
  rw [hl]
  cases hw : walk s (pkgOf q.rank) q.part (nextVa q) with
  | error w =>
    dsimp only
    rw [noteWalk, hok w hw]
    rfl
  | ok x => rfl

/-- A tile and its die with a leaf that a walk has found. -/
def withLeaf (s : State) (r : Nat) (t : Tr) : State :=
  (s.modPkg (pkgOf r) (fun p => { p with tlb := nset p.tlb (dieOf (epOf r)) (fillTlb (ngetD p.tlb (dieOf (epOf r)) []) t) })).modTile r
    (fun k => { k with tr := fillTile k.tr t })

section
variable {s : State} {r id : Nat} {e : ReqSt} {out : Except WalkErr Tr} (he : (s.tile r).reqOf id = some e) (hs : e.sent = false)
include he hs

/-- R315: an entry that has come to cover the address is used. -/
theorem serveWalk_found {x : Tr} {v : State} (h : lookupTile s r e.req.part (nextVa e.req) = some (x, v)) :
    serveWalk s r id out = pumpReqs (withEntry v r e x) r := by
  simp only [serveWalk, he, hs, Bool.false_eq_true, if_false, h]

variable (hn : lookupTile s r e.req.part (nextVa e.req) = none)
include hn

theorem serveWalk_error {w : WalkErr} (h : out = .error w) : serveWalk s r id out = refuseReq s r e w.code := by
  simp only [serveWalk, he, hs, Bool.false_eq_true, if_false, hn, h]

/-- R318: the leaf that a walk has found joins the entries of the die and of the tile. -/
theorem serveWalk_leaf {x : Tr} (h : out = .ok x) : ∃ u, SameMem s u ∧ x ∈ (u.tile r).tr ∧
    x ∈ ngetD (u.pkg (pkgOf r)).tlb (dieOf (epOf r)) [] ∧ serveWalk s r id out = pumpReqs (withEntry u r e x) r := by
  refine ⟨withLeaf s r x, fun _ => rfl, ?_, ?_, ?_⟩
  · rw [withLeaf, State.modTile_tile]
    exact mem_fillTile _ _
  · rw [withLeaf, State.modTile_pkg, State.modPkg_pkg, ngetD_nset_self]
    exact mem_fillTlb _ _
  · simp only [serveWalk, he, hs, Bool.false_eq_true, if_false, hn, h]
    rfl

end

/-! ## Release flits (R124, R282) -/

/-- What the steps of a fold make due is due after it. -/
theorem foldl_due {α : Type} {f : State → α → State} (hk : ∀ s a, OnlyDue s (f s a)) {i : Instr} {a : α}
    (ha : ∀ s, (f s a).Due i) {l : List α} (h : a ∈ l) (s : State) : (l.foldl f s).Due i := by
  induction l generalizing s with
  | nil => exact absurd h List.not_mem_nil
  | cons b l ih =>
    rw [List.foldl_cons]
    obtain rfl | h := List.mem_cons.1 h
    · exact (foldl_onlyDue hk l _).2 i (ha s)
    · exact ih h _

theorem exec_releaseFlit_eq (s : State) {f : Flit} (h : (Instr.releaseFlit f).wf = true) :
    exec (.releaseFlit f) s = .next (emitNet (releaseAt s f) f.vault f.rank 0 (.releaseFlitAck f)) := by
  have e : exec (.releaseFlit f) s = execReleaseFlit f s := rfl
  rw [e, execReleaseFlit]
  exact runEvent_ok h

theorem OnlyDue.vault_eq {s t : State} (h : OnlyDue s t) (v : Nat) : t.vault v = s.vault v := by rw [h.1]; rfl

theorem OnlyDue.tiles_eq {s t : State} (h : OnlyDue s t) : t.tiles = s.tiles := by rw [h.1]

/-- A flit changes its vault's filter and its withheld answers, and sends those that it has freed. -/
theorem releaseAt_onlyDue (s : State) (f : Flit) : ∃ g : Vault → Vault, OnlyDue (s.modVault f.vault g) (releaseAt s f) ∧
    ∀ v e, e ∈ (g v).filter ↔ e ∈ v.filter ∧ ¬ (e.rank = f.rank ∧ e.plane = f.plane ∧ e.number = f.number) := by
  refine ⟨_, foldl_onlyDue (fun s x => emitNet_onlyDue s _ _ _ _) _ _, fun v e => ?_⟩
  simp only [List.mem_filter, Bool.not_eq_true', decide_eq_false_iff_not]

theorem releaseAt_due {s : State} {f : Flit} {x : Reply × List FEntry} (hx : x ∈ (s.vault f.vault).withheld)
    (h : ∀ e ∈ x.2, e.rank = f.rank ∧ e.plane = f.plane ∧ e.number = f.number) : (releaseAt s f).Due (.vaultReply x.1) := by
  have hfree : x.2.filter (fun e => !decide (e.rank = f.rank ∧ e.plane = f.plane ∧ e.number = f.number)) = [] :=
    List.filter_eq_nil_iff.2 (fun e he => by simpa using h e he)
  refine foldl_due (f := fun s (y : Reply × List FEntry) => emitNet s f.vault y.1.req.rank y.1.data.length (.vaultReply y.1))
    (a := (x.1, [])) (fun s y => emitNet_onlyDue s _ _ _ _) (fun s => emitNet_due _ _ _ _ _) ?_ _
  refine List.mem_filter.2 ⟨List.mem_map.2 ⟨x, hx, ?_⟩, by simp⟩
  rw [hfree]

theorem exec_releaseFlitAck_eq (s : State) {f : Flit} (h : (Instr.releaseFlitAck f).wf = true) :
    exec (.releaseFlitAck f) s =
      .next (s.modPlane f.rank f.plane (fun pl => { pl with releasing := flitAcked pl.releasing f })) := by
  have e : exec (.releaseFlitAck f) s = execReleaseFlitAck f s := rfl
  rw [e, execReleaseFlitAck]
  exact runEvent_ok h

/-! ## Host atomics (R109) -/

theorem exec_hostAtomic_eq (s : State) {h : HostAtom} (hwf : (Instr.hostAtomic h).wf = true) :
    exec (.hostAtomic h) s = .next (hostAtomAt s h) := by
  have e : exec (.hostAtomic h) s = execHostAtomic h s := rfl
  rw [e, execHostAtomic]
  exact runEvent_ok hwf

/-- The translation of a device access leaves memory as it is. -/
theorem lookupDie_mem {s u : State} {pkg die part va : Nat} {t : Tr} (h : lookupDie s pkg die part va = .ok (t, u)) :
    u.mem = s.mem := by
  unfold lookupDie at h
  dsimp only at h
  split at h
  next => exact congrArg (fun x => x.2.mem) (Except.ok.inj h) ▸ rfl
  next =>
    split at h
    next => exact congrArg (fun x => x.2.mem) (Except.ok.inj h) ▸ rfl
    next =>
      split at h
      next => contradiction
      next => exact congrArg (fun x => x.2.mem) (Except.ok.inj h) ▸ rfl

theorem placeDie_mem {s u : State} {pkg die part rank va : Nat} {rd wr : Bool} {p : Place}
    (h : placeDie s pkg die part rank rd wr va = .ok (p, u)) : u.mem = s.mem := by
  unfold placeDie at h
  split at h
  next => contradiction
  next =>
    split at h
    next => contradiction
    next hl =>
      split at h
      next => contradiction
      next =>
        have hu : _ = u := congrArg Prod.snd (Except.ok.inj h)
        rw [← hu, lookupDie_mem hl]

/-- One atomic operation on bytes that can be read as they stand. -/
def atomStore (s : State) (pkg dpa op w a b : Nat) : State :=
  let old := leNat (memRead s.mem (s.dpaAddr pkg dpa) w)
  if atomWrites op w old a then s.dpaStore pkg dpa (leBytes w ((atomOp op w old a b).getD old)) else s

theorem atomStore_mem (s : State) {pkg dpa op w a b x old : Nat} (hpage : dpa % 65536 + w ≤ 65536) (hx : x = s.dpaAddr pkg dpa)
    (hold : old = leNat (memRead s.mem x w)) : (atomStore s pkg dpa op w a b).mem =
      if atomWrites op w old a = true then memWrite s.mem x (leBytes w ((atomOp op w old a b).getD old)) else s.mem := by
  subst hx
  simp only [atomStore, ← hold]
  split
  · exact dpaStore_mem s (by rw [leBytes_length]; exact hpage)
  · rfl

section
variable {s u : State} {h : HostAtom} {p : Place}
  (hp : placeDie s h.pkg ((s.pkg h.pkg).homeDie h.part) h.part (hostRank h.pkg) true true h.va = .ok (p, u)) (hh : p.host = false)
  (hf : (u.vault (u.holdingVault p.pkg p.dpa)).fenced = false) (hi : (u.partOf (u.holdingVault p.pkg p.dpa)).isSome = true)
include hp hh hf hi

theorem hostAtomAt_moving (hm : (u.pkg p.pkg).isMoving (dpn64 p.dpa) = true) : hostAtomAt s h = emitOnce u (.hostAtomic h) := by
  simp [hostAtomAt, hp, hh, hf, Option.isSome_iff_ne_none.1 hi, hm]

theorem hostAtomAt_readable (hm : (u.pkg p.pkg).isMoving (dpn64 p.dpa) = false)
    (hr : Readable u p.pkg p.dpa (u.holdingVault p.pkg p.dpa) h.w) : hostAtomAt s h = atomStore u p.pkg p.dpa h.op h.w h.a h.b := by
  simp [hostAtomAt, hp, hh, hf, Option.isSome_iff_ne_none.1 hi, hm, vaultRead_readable hr, atomStore]

end

/-- Settles O51. A reply is answerOne's work at the tile that has noted it (replyAt_more, replyAt_ok, replyAt_waits); what the engine
tries afterwards keeps memory and what is due (pumpTile_landedKept, nextWalks_landedKept). -/
theorem answerSteps : Obligations.AnswerSteps := by
  unfold Obligations.AnswerSteps
  refine ⟨?gone, ?reply, ?parts, ?land, ?flag, ?retry, ?walk, ?flit, ?ack, ?host⟩
  case gone =>
    intro p s hwf h
    rw [exec_vaultReply_eq s hwf, replyAt_gone h]
  case reply =>
    intro p pj s u r e hwf hr he hj hu htw hst
    subst hr hj
    rw [exec_vaultReply_eq s hwf]
    change u = replyNoted s p at hu
    subst hu
    refine ⟨fun hm hd => ?_, fun hm hd => ?_, fun k hm hd ho => ?_, fun hm hd ho => ⟨fun v hl => ?_, fun hl => ?_, fun v hl => ?_⟩⟩
    · obtain ⟨hmem, hag, hreqs⟩ := nextPart_spec (replyNoted s p) p.req.rank p hd
      obtain ⟨lmem, lag⟩ := learnLoc_kept s p.req.rank p
      exact ⟨_, by rw [replyAt_more he hst hm]; rfl, sameMem_of_mem_eq (hmem.trans lmem), hag.trans lag, hreqs⟩
    · rw [replyAt_ok he hst hm htw (answerOne_dropped _ _ _ hd)]
      rfl
    · rw [replyAt_ok he hst hm htw (answerOne_copy _ _ _ hd ho), joined_eq]
      rfl
    · rw [replyAt_ok he hst hm htw ((answerOne_flag _ _ _ hd ho).trans (endReq_done hl)), joined_eq]
      rfl
    · rw [replyAt_ok he hst hm htw ((answerOne_flag _ _ _ hd ho).trans (endReq_faulted hl)), joined_eq]
      rfl
    · rw [replyAt_waits he hst hm ((answerOne_flag _ _ _ hd ho).trans (endReq_wait hl))]
  case parts =>
    intro q p
    refine ⟨decide_eq_true_iff, fun ho hs => if_pos ⟨ho, hs⟩, fun ho => if_neg (fun h => ho h.1), rfl⟩
  case land =>
    intro s r q b hw hs
    exact landReply_clear hw hs
  case flag =>
    intro s r p fn id q hp hf hb
    exact completeFlag_flagSet q hb hf
  case retry =>
    intro q s e hwf
    exact ⟨fun h => exec_rnrRetry_gone hwf h,
      fun h hd => ⟨_, exec_rnrRetry_again hwf h hd, emitReq_due s { q with tries := q.tries + 1 }, rfl, fun _ => rfl⟩⟩
  case walk =>
    intro q s e k hwf hk he hs hone
    subst hk
    have hentry := lookupTile_walkOver s q q.rank e.req.part (nextVa e.req)
    have he' : ((walkOver s q).tile q.rank).reqOf q.id = some e := he
    have hexec := exec_pageWalkEnd_eq hwf hone
    refine ⟨fun x v y hx hy => ?_, fun hn => ?_⟩
    · have hx' : (lookupTile (walkOver s q) q.rank e.req.part (nextVa e.req)).map (·.1) = some x := by
        rw [hentry]
        exact congrArg (Option.map (·.1)) hx
      obtain ⟨⟨x', v'⟩, hv, rfl⟩ := Option.map_eq_some_iff.1 hx'
      refine ⟨v', sameMem_of_mem_eq (lookupTile_landedKept hv).1, ?_⟩
      rw [hexec (fun w hw => absurd (hw.symm.trans hy) (by simp)), serveWalk_found he' hs hv]
    have hn' : lookupTile (walkOver s q) q.rank e.req.part (nextVa e.req) = none := by
      rw [← Option.map_eq_none_iff, hentry, Option.map_eq_none_iff]
      exact hn
    refine ⟨fun w hw hb hh => ?_, fun x hx => ?_⟩
    · have hbad : ∀ y, walk s (pkgOf q.rank) q.part (nextVa q) = .error y → y.bad = none := fun y hy => by
        obtain rfl : w = y := Except.error.inj (hw.symm.trans hy)
        exact hb
      rw [hexec hbad, serveWalk_error (out := walk s (pkgOf q.rank) q.part (nextVa q)) he' hs hn' hw]
      obtain ⟨hmem, hdue, -⟩ := nextWalks_landedKept (refuseReq (walkOver s q) q.rank e w.code) (pkgOf q.rank)
      refine ⟨_, rfl, sameMem_of_mem_eq hmem, hdue _ ?_⟩
      rw [refuseReq, hh]
      exact emit_due _ _
    · obtain ⟨u, hmem, htile, htlb, hserve⟩ := serveWalk_leaf (out := walk s (pkgOf q.rank) q.part (nextVa q)) he' hs hn' hx
      exact ⟨u, hmem, htile, htlb, by rw [hexec (fun w hw => absurd (hw.symm.trans hx) (by simp)), hserve]⟩
  case flit =>
    intro f s hwf
    obtain ⟨g, hg, hfilter⟩ := releaseAt_onlyDue s f
    have ht := hg.trans (emitNet_onlyDue (releaseAt s f) f.vault f.rank 0 (.releaseFlitAck f))
    refine ⟨_, exec_releaseFlit_eq s hwf, emitNet_due _ _ _ _ _, ht.tiles_eq, sameMem_of_mem_eq ht.mem_eq, fun e => ?_,
      fun x hx h => ?_⟩
    · rw [ht.vault_eq, State.modVault_vault]
      exact hfilter _ e
    · exact emitNet_keeps _ _ _ _ _ (releaseAt_due hx h)
  case ack =>
    intro f s hwf
    refine ⟨_, exec_releaseFlitAck_eq s hwf, fun _ => rfl, rfl, ?_, ?_⟩
    · rw [State.modPlane_plane]
    · rw [State.modPlane_plane]
  case host =>
    intro h s hwf
    rw [exec_hostAtomic_eq s hwf]
    refine ⟨fun fc u hp => by rw [hostAtomAt, hp], fun p u home a hp hh hhome ha hf hi => ?_⟩
    subst hhome
    have hmem := placeDie_mem hp
    refine ⟨fun hm => ⟨_, rfl, ?_, ?_⟩, fun hm hr => ⟨_, rfl, ?_⟩⟩
    · rw [hostAtomAt_moving hp hh hf hi hm]
      exact emitOnce_due _ _
    · rw [hostAtomAt_moving hp hh hf hi hm]
      exact sameMem_of_mem_eq ((emitOnce_mem _ _).trans hmem)
    · have ht := atomStore_mem (op := h.op) (a := h.a) (b := h.b) u hr.1 ha rfl
      rw [← hostAtomAt_readable hp hh hf hi hm hr, hmem] at ht
      exact atomMem_spec rfl ht

end Sys2Proof.Machine
end

section
/-! PROOFS. Searches (R127 to R131, R242, R285): a query at its vault, the pull of its vector, its hop and distance requests, and the
order of its results. -/

namespace Sys2Proof.Machine

/-! ## A query at its vault (R130) -/

/-- A request that is served reaches the vault that holds its page. -/
theorem atVault_served {s : State} {q : Req} {home : Nat} (h : Served s q home) (f : State → Nat → State) :
    atVault s q f = f s home := by
  obtain ⟨hv, hm, rfl⟩ := h
  have hfenced : (visits s q).find? (fun v => (s.vault v).fenced) = none :=
    List.find?_eq_none.2 (fun v hmem => by rw [(hv v hmem).1]; exact Bool.false_ne_true)
  have hpart : (visits s q).find? (fun v => (s.partOf v).isNone) = none := by
    refine List.find?_eq_none.2 (fun v hmem => ?_)
    rw [Option.isNone_eq_false_iff.2 (hv v hmem).2]
    exact Bool.false_ne_true
  have hmove : ((s.pkg q.pkg).isMoving (dpn64 q.dpa) && decide (q.done ≤ q.base)) = false := by
    obtain hm | hm := hm
    · rw [hm, Bool.false_and]
    · rw [decide_eq_false (by omega), Bool.and_false]
  simp only [atVault, hfenced, hpart, hmove, Bool.false_eq_true, if_false]

theorem exec_vaultQuery_fresh {s : State} {q : Req} {home : Nat} (h : (Instr.vaultQuery q).wf = true) (hp : pullsAt s q = none)
    (hs : Served s q home) : exec (.vaultQuery q) s = .next (queryAt s q home) := by
  have e : exec (.vaultQuery q) s = execVaultQuery q s := rfl
  rw [e, execVaultQuery]
  refine (runEvent_ok h).trans ?_
  rw [hp]
  exact congrArg Host.Outcome.next (atVault_served hs _)

theorem exec_vaultQuery_pull {s : State} {q : Req} {home : Nat} {run : QRun} (h : (Instr.vaultQuery q).wf = true)
    (hp : pullsAt s q = some (home, run)) : exec (.vaultQuery q) s = .next (beginRuns 33 (pullVector s home run) home) := by
  have e : exec (.vaultQuery q) s = execVaultQuery q s := rfl
  rw [e, execVaultQuery]
  refine (runEvent_ok h).trans ?_
  rw [hp]

/-- Where 32 queries run no waiting one begins. -/
theorem beginRuns_full {n : Nat} {s : State} {home : Nat} (h : 32 ≤ (s.vault home).running.length) : beginRuns n s home = s := by
  cases n with
  | zero => rfl
  | succ n =>
    rw [beginRuns]
    split
    · rfl
    · exact if_pos h

section
variable {s : State} {q : Req} {home : Nat}

theorem queryAt_bad (h : blockOk q.data = false) : queryAt s q home = replyTo s q home stFAULT fcQBAD [] 0 := by
  simp only [queryAt, h, Bool.not_false, if_true]

theorem queryAt_crowded (h : blockOk q.data = true) (hw : 32 ≤ (s.vault home).waiting.length)
    (hr : 32 ≤ (s.vault home).running.length) : queryAt s q home = emitNet s home q.rank 0 (.rnrRetry q) := by
  simp only [queryAt, h, Bool.not_true, Bool.false_eq_true, if_false, hw, hr, and_self, if_true]

theorem queryAt_waits (h : blockOk q.data = true)
    (hn : ¬ (32 ≤ (s.vault home).waiting.length ∧ 32 ≤ (s.vault home).running.length)) :
    queryAt s q home =
      beginRuns 33 (s.modVault home (fun v => { v with waiting := v.waiting ++ [{ qid := q.id, req := q }] })) home := by
  simp only [queryAt, h, Bool.not_true, Bool.false_eq_true, if_false, if_neg hn]

end

/-! ## The pull of the vector (R242) -/

theorem replyTo_answered (s : State) (q : Req) (home st fc : Nat) (data : List Byte) (done : Nat) :
    Answered (replyTo s q home st fc data done) q home st fc data done := emitNet_due _ _ _ _ _

theorem dropRun_run (s : State) (home qid : Nat) : ((dropRun s home qid).vault home).run qid = none := by
  rw [dropRun, State.modVault_vault]
  exact List.find?_eq_none.2 (fun e he => by simpa using (List.mem_filter.1 he).2)

theorem freeVector_mem (s : State) (q : Req) : (freeVector s q).mem = s.mem := by
  unfold freeVector
  dsimp only
  split <;> rfl

section
variable {s : State} {home n a : Nat} {run : QRun} (hn : n = run.dim * tyW run.fmt)
  (ha : a = (vectorAt (s.plane run.req.rank run.req.plane).regs run.req n).1)
include hn

theorem pullVector_outside (hv : (vectorAt (s.plane run.req.rank run.req.plane).regs run.req n).2 = false) :
    pullVector s home run = replyTo (dropRun s home run.qid) run.req home stFAULT fcQBAD [] 0 := by
  subst hn
  simp only [pullVector, hv, if_true]

variable (hv : (vectorAt (s.plane run.req.rank run.req.plane).regs run.req n).2 = true)
include ha hv

theorem pullVector_wait (hr : engineRead s run.req.rank run.req.plane pathN 4 a n = .error .wait) :
    pullVector s home run = emitOnce s (.vaultQuery run.req) := by
  subst hn ha
  simp only [pullVector, hv, Bool.true_eq_false, if_false, hr]

theorem pullVector_faulted {fn : Nat} (hr : engineRead s run.req.rank run.req.plane pathN 4 a n = .error (.faulted fn)) :
    pullVector s home run = replyTo (dropRun s home run.qid) run.req home stFAULT fcENGFAULT [] 0 := by
  subst hn ha
  simp only [pullVector, hv, Bool.true_eq_false, if_false, hr]

/-- R242: a vector that no partner has to compare is the query's, and its protection is over. -/
theorem pullVector_ok (hp : partnerOf s run.req.rank run.req.plane = none) {b : List Byte}
    (hr : engineRead s run.req.rank run.req.plane pathN 4 a n = .ok b) : ∃ u, SameMem s u ∧
      pullVector s home run = searchOn u home { run with vec := b, pulling := false } := by
  have htwin : twinVector s run.req n = none := by rw [twinVector, hp]; rfl
  have hpump := (pumpTile_landedKept (freeVector (tsSeen s run.req.rank pathN a n) run.req) run.req.rank).1
  refine ⟨putRun (pumpTile (freeVector (tsSeen s run.req.rank pathN a n) run.req) run.req.rank) home
    { run with vec := b, pulling := false }, sameMem_of_mem_eq ?_, ?_⟩
  · rw [putRun, State.modVault_mem, hpump, freeVector_mem, (tsSeen_landedKept s _ _ _ _).1]
  · subst hn ha
    simp only [pullVector, hv, Bool.true_eq_false, if_false, hr, htwin, cmpVector]

end

/-! ## Hop and distance requests (R128, R131, R285) -/

section
variable {s : State} {q : QStep} {run : QRun} {sh : Shard} (hr : (s.vault q.home).run q.qid = some run)
include hr

theorem exec_hopRequest_eq (h : (Instr.hopRequest q).wf = true)
    (hs : run.shards.find? (fun e => decide (e.hop = some q.node)) = some sh) :
    exec (.hopRequest q) s = .next (if q.vault = q.home then landHop s q run sh else serveHop s q run sh) := by
  have e : exec (.hopRequest q) s = execHopRequest q s := rfl
  rw [e, execHopRequest]
  refine (runEvent_ok h).trans ?_
  simp only [hr, hs]

theorem exec_distanceRequest_eq (h : (Instr.distanceRequest q).wf = true)
    (hs : run.shards.find? (fun e => decide (e.idx = q.node) && q.ids.all (fun v => e.asked.contains v)) = some sh) :
    exec (.distanceRequest q) s = .next (if q.vault = q.home then landDist s q run sh else serveDist s q run sh) := by
  have e : exec (.distanceRequest q) s = execDistanceRequest q s := rfl
  rw [e, execDistanceRequest]
  refine (runEvent_ok h).trans ?_
  simp only [hr, hs]

end

section
variable {s : State} {q : QStep} {run : QRun} {sh : Shard}

theorem serveHop_moves (h : nodeMoves s q.home run sh q.node = true) : serveHop s q run sh = emitOnce s (.hopRequest q) := if_pos h

theorem serveHop_still {u : State} {x : Except Nat (List Nat)} (h : nodeMoves s q.home run sh q.node = false)
    (hx : hopNode s q.home run sh q.node = (u, x)) : serveHop s q run sh =
      emitNet u q.vault q.home (4 * (hopAnswer q x).ids.length) (.hopRequest (hopAnswer q x)) := by
  simp only [serveHop, h, Bool.false_eq_true, if_false, hx]

theorem landHop_ids {v : State} {sh2 : Shard} (h : ∀ n ∈ q.ids, n < 2 ^ 32) (ho : openIds s q.home run sh q.ids = (v, sh2)) :
    landHop s q run sh = resumeShard v q.home run sh2 := by
  have hnone : q.ids.find? (fun v => decide (2 ^ 32 ≤ v)) = none :=
    List.find?_eq_none.2 (fun n hn => by simpa using h n hn)
  simp only [landHop, hnone, ho]

theorem landHop_fault {fc : Nat} (h : q.ids = [2 ^ 32 + fc]) :
    landHop s q run sh = resumeShard s q.home run { sh with done := true, qstat := 3, fcode := fc, hop := none } := by
  have hsome : q.ids.find? (fun v => decide (2 ^ 32 ≤ v)) = some (2 ^ 32 + fc) := by
    rw [h]
    exact List.find?_cons_of_pos (by simp)
  simp only [landHop, hsome, Nat.add_sub_cancel_left, Shard.fail]

theorem serveDist_moves (h : q.ids.any (fun v => nodeMoves s q.home run sh v) = true) :
    serveDist s q run sh = emitOnce s (.distanceRequest q) := if_pos h

theorem serveDist_still {u : State} {l : List (Nat × Nat)} (h : q.ids.any (fun v => nodeMoves s q.home run sh v) = false)
    (hx : distNodes q.home run sh q.ids s = (u, l)) : serveDist s q run sh =
      emitNet (putShard u q.home run { sh with dists := sh.dists ++ l }) q.vault q.home (4 * q.ids.length)
        (.distanceRequest { q with vault := q.home, src := q.vault }) := by
  simp only [serveDist, h, Bool.false_eq_true, if_false, hx]

theorem landDist_last (h : ∀ v ∈ sh.asked, v ∈ q.ids) :
    landDist s q run sh = resumeShard s q.home run { sh with asked := [] } := by
  have hnil : sh.asked.filter (fun v => !q.ids.contains v) = [] :=
    List.filter_eq_nil_iff.2 (fun v hv => by simpa using h v hv)
  simp only [landDist, hnil, if_true]

theorem landDist_more (h : ∃ v ∈ sh.asked, v ∉ q.ids) : ∃ l, landDist s q run sh = putShard s q.home run { sh with asked := l } ∧
    ∀ v, v ∈ l ↔ v ∈ sh.asked ∧ v ∉ q.ids := by
  have hmem : ∀ v, v ∈ sh.asked.filter (fun v => !q.ids.contains v) ↔ v ∈ sh.asked ∧ v ∉ q.ids :=
    fun v => by simp [List.mem_filter]
  obtain ⟨v, hv, hn⟩ := h
  exact ⟨_, if_neg (List.ne_nil_of_mem ((hmem v).2 ⟨hv, hn⟩)), hmem⟩

end

/-! ## The end of a search (R129) -/

theorem exec_querySearchEnd_eq {s : State} {home qid : Nat} {run : QRun} (h : (Instr.querySearchEnd home qid).wf = true)
    (hr : (s.vault home).run qid = some run) : exec (.querySearchEnd home qid) s = .next (if run.sent then s else
      sendResult (putRun s home { run with payload := resultBytes run, sent := true }) home
        { run with payload := resultBytes run, sent := true }) := by
  have e : exec (.querySearchEnd home qid) s = execQuerySearchEnd home qid s := rfl
  rw [e, execQuerySearchEnd]
  refine (runEvent_ok h).trans ?_
  simp only [hr]

/-! ## The order of (distance, id) pairs (R127) -/

/-- What pairs are compared by: the distance as a number, then the id. -/
def pairKey (a : Nat × Nat) : Int ×ₗ Nat := toLex (distKey a.1, a.2)

theorem pairLt_iff (a b : Nat × Nat) : pairLt a b = true ↔ pairKey a < pairKey b := by
  rw [pairLt, decide_eq_true_iff, pairKey, pairKey, Prod.Lex.toLex_lt_toLex]

theorem pairLt_false_iff (a b : Nat × Nat) : pairLt b a = false ↔ pairKey a ≤ pairKey b := by
  rw [← Bool.not_eq_true, pairLt_iff, not_lt]

theorem leastPair_spec {l : List (Nat × Nat)} {a : Nat × Nat} (h : leastPair l = some a) :
    a ∈ l ∧ ∀ b ∈ l, pairKey a ≤ pairKey b := by
  induction l generalizing a with
  | nil => exact absurd h (by simp [leastPair])
  | cons x l ih =>
    rw [leastPair] at h
    split at h
    next hl =>
      obtain rfl := Option.some.inj h
      have hnil : l = [] := by
        cases l with
        | nil => rfl
        | cons y l =>
          rw [leastPair] at hl
          split at hl
          · contradiction
          · split at hl <;> contradiction
      simp [hnil]
    next b hl =>
      obtain ⟨hb, hle⟩ := ih hl
      split at h
      next hlt =>
        obtain rfl := Option.some.inj h
        exact ⟨List.mem_cons_of_mem x hb, List.forall_mem_cons.2 ⟨((pairLt_iff _ _).1 hlt).le, hle⟩⟩
      next hge =>
        obtain rfl := Option.some.inj h
        have hxb := (pairLt_false_iff x b).1 (Bool.not_eq_true _ ▸ hge)
        exact ⟨List.mem_cons_self, List.forall_mem_cons.2 ⟨le_rfl, fun y hy => hxb.trans (hle y hy)⟩⟩

/-- A list that is not empty has a greatest pair, which is one of its own. -/
theorem greatestPair_mem (a : Nat × Nat) (l : List (Nat × Nat)) : ∃ g, greatestPair (a :: l) = some g ∧ g ∈ a :: l := by
  induction l generalizing a with
  | nil => exact ⟨a, rfl, List.mem_cons_self⟩
  | cons b l ih =>
    obtain ⟨g, hg, hmem⟩ := ih b
    rw [greatestPair, hg]
    dsimp only
    split
    · exact ⟨g, rfl, List.mem_cons_of_mem a hmem⟩
    · exact ⟨a, rfl, List.mem_cons_self⟩

/-- R128: the ids of an expansion are fresh, each once. -/
theorem freshIds_spec (n : Nat) (vs l : List Nat) :
    (freshIds n vs l).Nodup ∧ ∀ v ∈ freshIds n vs l, v ∈ l ∧ v < n ∧ v ∉ vs := by
  induction l generalizing vs with
  | nil => exact ⟨List.nodup_nil, fun v hv => absurd hv List.not_mem_nil⟩
  | cons x l ih =>
    rw [freshIds]
    split
    · obtain ⟨hnd, hmem⟩ := ih vs
      exact ⟨hnd, fun v hv => (hmem v hv).imp_left (List.mem_cons_of_mem x)⟩
    next hx =>
      rw [not_or] at hx
      split
      · exact ⟨List.nodup_nil, fun v hv => absurd hv List.not_mem_nil⟩
      · obtain ⟨hnd, hmem⟩ := ih (x :: vs)
        have hnew : x ∉ freshIds n (x :: vs) l := fun h => by
          obtain ⟨-, -, hvs⟩ := hmem x h
          exact hvs List.mem_cons_self
        refine ⟨List.nodup_cons.2 ⟨hnew, hnd⟩, List.forall_mem_cons.2 ⟨?_, fun v hv => ?_⟩⟩
        · exact ⟨List.mem_cons_self, by omega, hx.2⟩
        · obtain ⟨hl, hn, hvs⟩ := hmem v hv
          exact ⟨List.mem_cons_of_mem x hl, hn, fun h => hvs (List.mem_cons_of_mem x h)⟩

/-- A beam that would grow past its bound without its greatest pair. -/
def trimmed (ef : Nat) (w : List (Nat × Nat)) : List (Nat × Nat) :=
  if ef < w.length then
    (match greatestPair w with
     | some g => w.erase g
     | none => w)
  else w

theorem trimmed_length {ef : Nat} {a : Nat × Nat} {l : List (Nat × Nat)} (h : l.length ≤ ef) : (trimmed ef (a :: l)).length ≤ ef := by
  unfold trimmed
  split
  · obtain ⟨g, hg, hmem⟩ := greatestPair_mem a l
    rw [hg]
    dsimp only
    rw [List.length_erase_of_mem hmem]
    exact h
  · omega

/-- R128: a node that is visited leaves the beam within its bound. -/
theorem Shard.join_spec (sh : Shard) {ef : Nat} (v d : Nat) (h : sh.beam.length ≤ ef) :
    (sh.join ef v d).beam.length ≤ ef ∧ (sh.join ef v d).visited = v :: sh.visited := by
  unfold Shard.join
  dsimp only
  split
  · exact ⟨trimmed_length h, rfl⟩
  · exact ⟨h, rfl⟩

/-! ## Sorted results (R129) -/

/-- Entries in the order of (distance, id). -/
def EntriesSorted (l : List (Nat × Nat × Nat)) : Prop := l.Pairwise (fun a b => pairKey (a.1, a.2.1) ≤ pairKey (b.1, b.2.1))

theorem mem_insEntry (e x : Nat × Nat × Nat) (l : List (Nat × Nat × Nat)) : x ∈ insEntry e l → x = e ∨ x ∈ l := by
  induction l with
  | nil => exact fun h => .inl (List.mem_singleton.1 h)
  | cons a l ih =>
    rw [insEntry]
    split
    · exact fun h => List.mem_cons.1 h
    · intro h
      obtain rfl | h := List.mem_cons.1 h
      · exact .inr List.mem_cons_self
      · exact (ih h).imp_right (List.mem_cons_of_mem a)

theorem insEntry_sorted (e : Nat × Nat × Nat) {l : List (Nat × Nat × Nat)} (h : EntriesSorted l) : EntriesSorted (insEntry e l) := by
  induction l with
  | nil => exact List.pairwise_singleton _ _
  | cons a l ih =>
    obtain ⟨ha, hl⟩ := List.pairwise_cons.1 h
    rw [insEntry]
    split
    next hlt =>
      have hea := ((pairLt_iff _ _).1 hlt).le
      exact List.pairwise_cons.2 ⟨List.forall_mem_cons.2 ⟨hea, fun x hx => hea.trans (ha x hx)⟩, h⟩
    next hge =>
      have hae := (pairLt_false_iff _ _).1 (Bool.not_eq_true _ ▸ hge)
      refine List.pairwise_cons.2 ⟨fun x hx => ?_, ih hl⟩
      obtain rfl | hx := mem_insEntry e x l hx
      · exact hae
      · exact ha x hx

theorem sortEntries_sorted (l : List (Nat × Nat × Nat)) : EntriesSorted (sortEntries l) := by
  have fold : ∀ (l acc : List (Nat × Nat × Nat)), EntriesSorted acc → EntriesSorted (l.foldl (fun a e => insEntry e a) acc) := by
    intro l
    induction l with
    | nil => exact fun acc h => h
    | cons e l ih => exact fun acc h => ih _ (insEntry_sorted e h)
  exact fold l [] List.Pairwise.nil

theorem merged_sorted (run : QRun) : EntriesSorted (merged run) :=
  (sortEntries_sorted _).sublist (List.take_sublist _ _)

end Sys2Proof.Machine
end

section
/-! PROOFS. Requests to host memory (R107, R108, R321), and the searches and host requests together. -/

namespace Sys2Proof.Machine

/-! ## The host window (R108, R321) -/

section
variable {s : State} {q : Req} (h : (Instr.hostWindowRequest q).wf = true)
include h

theorem exec_hostWindowRequest_refused {fc : Nat} (hr : hostRefuses q q.sysatom = some fc) :
    exec (.hostWindowRequest q) s = .next (replyTo s q q.vault stFAULT fc [] 0) := by
  have e : exec (.hostWindowRequest q) s = execHostWindowRequest q s := rfl
  rw [e, execHostWindowRequest]
  refine (runEvent_ok h).trans ?_
  rw [hr]

theorem exec_hostWindowRequest_issued (hr : hostRefuses q q.sysatom = none) : exec (.hostWindowRequest q) s =
    .next (emit s (if Config.pcieFails s.tick then .hostCompletionTimeout q else .pcieCompletion q)) := by
  have e : exec (.hostWindowRequest q) s = execHostWindowRequest q s := rfl
  rw [e, execHostWindowRequest]
  refine (runEvent_ok h).trans ?_
  rw [hr]

end

/-- What a request to the host is due to meet. -/
theorem pcie_due (s : State) (q : Req) :
    (emit s (if Config.pcieFails s.tick then .hostCompletionTimeout q else .pcieCompletion q)).Due (.pcieCompletion q) ∨
    (emit s (if Config.pcieFails s.tick then .hostCompletionTimeout q else .pcieCompletion q)).Due (.hostCompletionTimeout q) := by
  cases Config.pcieFails s.tick with
  | false => exact .inl (emit_due _ _)
  | true => exact .inr (emit_due _ _)

theorem exec_pcieCompletion_eq (s : State) {q : Req} (h : (Instr.pcieCompletion q).wf = true) :
    exec (.pcieCompletion q) s = .next (hostAt s q) := by
  have e : exec (.pcieCompletion q) s = execPcieCompletion q s := rfl
  rw [e, execPcieCompletion]
  exact runEvent_ok h

/-! ## Completions (R97, R107, R109) -/

section
variable {s : State} {q : Req} {n : Nat} (hn : n = min (16 - hostOff q q.done % 16) (q.upto - q.done))
include hn

/-- R107: a read returns the host's bytes of the granule. -/
theorem hostAt_get (hb : q.base ≤ q.done) {b : List Byte} (ho : q.op = .get) (hr : b = memRead s.mem (hostByte q q.done) n) : hostAt s q =
    if q.done + n < q.upto then emit s (.pcieCompletion { q with done := q.done + n, data := q.data ++ b })
    else replyTo s { q with data := [] } q.vault stOK 0 (q.data ++ b) (q.done + n) := by
  subst hr
  have hg : hostGran q = n := hn.symm
  simp only [hostAt, ho, hg, hostRead_eq s hb, memRead_length]

theorem hostAt_put {b : List Byte} (ho : q.op = .put) (hr : b = (q.data.drop q.done).take n) (hl : b.length = n) : hostAt s q =
    if q.done + n < q.upto then emit (hostWrite s q q.done b) (.pcieCompletion { q with done := q.done + n })
    else replyTo (hostWrite s q q.done b) q q.vault stOK 0 [] (q.done + n) := by
  have hg : hostGran q = n := hn.symm
  simp only [hostAt, ho, hg, ← hr, hl]

end

/-- R97, R107: a write changes the granule's bytes alone. -/
theorem hostAt_put_spec {s t : State} {q : Req} {n : Nat} (hb : q.base ≤ q.done)
    (hn : n = min (16 - hostOff q q.done % 16) (q.upto - q.done)) (ho : q.op = .put) (hu : q.upto ≤ q.data.length)
    (ht : t = hostAt s q) : t.tiles = s.tiles ∧ SameMemBut s t (hostByte q q.done) n ∧
      (s.Safe → ∀ k < n, some (memGet t.mem (hostByte q (q.done + k))) = q.data[q.done + k]?) ∧
      (q.done + n < q.upto → t.Due (.pcieCompletion { q with done := q.done + n })) ∧
      (q.upto ≤ q.done + n → Answered t q q.vault 0 0 [] (q.done + n)) := by
  obtain ⟨b, hbytes⟩ : ∃ b, b = (q.data.drop q.done).take n := ⟨_, rfl⟩
  have hlen : b.length = n := by
    rw [hbytes, List.length_take, List.length_drop]
    omega
  rw [hostAt_put hn ho hbytes hlen] at ht
  have hmem : t.mem = memWrite s.mem (hostByte q q.done) b := by
    rw [ht, ← hostWrite_mem s hb b]
    split <;> rfl
  have hbut := memWrite_but hmem
  rw [hlen] at hbut
  refine ⟨by rw [ht]; split <;> rfl, hbut, fun hs k hk => ?_, fun hlt => ?_, fun hle => ?_⟩
  · have hin : k < b.length := by omega
    rw [hmem, hostByte_add hb k, memGet_memWrite_in hs (by omega) (by omega), Nat.add_sub_cancel_left, hbytes,
      List.getElem?_take_of_lt hk, List.getElem?_drop, List.getElem?_eq_getElem (by omega), Option.getD_some]
  · rw [ht, if_pos hlt]
    exact emit_due _ _
  · rw [ht, if_neg (by omega)]
    exact replyTo_answered _ _ _ _ _ _ _

/-- R109: an AtomicOp changes its operand's bytes alone, to the operation's result, and answers with the old ones. -/
theorem hostAt_atom_spec {s t : State} {q : Req} {op n : Nat} {w : Bool} (ho : q.op = .atom op w) (hop : op < 10) (hb : q.base = 0)
    (hn : n = if w then 16 else 8) (ht : t = hostAt s q) : t.tiles = s.tiles ∧ SameMemBut s t (hostByte q 0) n ∧
      Answered t q q.vault 0 0 (memRead s.mem (hostByte q 0) n) n ∧
      (s.Safe → leNat (memRead t.mem (hostByte q 0) n) = (atomOp op n (leNat (memRead s.mem (hostByte q 0) n)) q.a q.b).getD 0) := by
  have hbase : q.base ≤ 0 := by omega
  have hread : hostRead s q 0 n = memRead s.mem (hostByte q 0) n := hostRead_eq s hbase n
  have hlen : (memRead s.mem (hostByte q 0) n).length = n := memRead_length _ _ _
  obtain ⟨old, hold⟩ : ∃ old, old = leNat (memRead s.mem (hostByte q 0) n) := ⟨_, rfl⟩
  obtain ⟨v, hv⟩ := atomOp_isSome n old q.a q.b hop
  have hatom : hostAtomic s q op w =
      (memRead s.mem (hostByte q 0) n, if atomWrites op n old q.a then some (leBytes n v) else none) := by
    simp only [hostAtomic, ← hn, hread, ← hold, hv, Option.map_some]
  have heq : t = replyTo (hostWrite s q 0 ((if atomWrites op n old q.a then some (leBytes n v) else none).getD [])) q q.vault stOK 0
      (memRead s.mem (hostByte q 0) n) n := by
    simp only [ht, hostAt, ho, hatom, hlen]
  have hmem : t.mem = if atomWrites op n old q.a = true then memWrite s.mem (hostByte q 0) (leBytes n ((atomOp op n old q.a q.b).getD old))
      else s.mem := by
    rw [heq, hv, Option.getD_some]
    split
    · exact hostWrite_mem s hbase _
    · rfl
  obtain ⟨hbut, hval⟩ := atomMem_spec hold hmem
  rw [← hold]
  rw [hv] at hval ⊢
  exact ⟨by rw [heq]; rfl, hbut, by rw [heq]; exact replyTo_answered _ _ _ _ _ _ _, hval⟩

/-! ## Failures (R321) -/

/-- The bytes that a request which fails has written all the same, if any. -/
def failedWrites (s : State) (q : Req) : Option (List Byte) := if Config.pcieWrote s.tick then hostWrites s q else none

section
variable {s : State} {q : Req} (h : (Instr.hostCompletionTimeout q).wf = true)
include h

theorem exec_hostCompletionTimeout_none (hw : failedWrites s q = none) :
    exec (.hostCompletionTimeout q) s = .next (replyTo s q q.vault stFAULT fcHOSTERR [] (keptOf q)) := by
  have e : exec (.hostCompletionTimeout q) s = execHostCompletionTimeout q s := rfl
  rw [failedWrites] at hw
  rw [e, execHostCompletionTimeout]
  refine (runEvent_ok h).trans ?_
  rw [hw]

theorem exec_hostCompletionTimeout_wrote {b : List Byte} (hw : failedWrites s q = some b) : exec (.hostCompletionTimeout q) s =
    .next (replyTo (hostWrite s q q.base b) q q.vault stFAULT fcHOSTERR [] (q.base + b.length)) := by
  have e : exec (.hostCompletionTimeout q) s = execHostCompletionTimeout q s := rfl
  rw [failedWrites] at hw
  rw [e, execHostCompletionTimeout]
  refine (runEvent_ok h).trans ?_
  rw [hw]

end

/-- A read writes nothing. -/
theorem failedWrites_get (s : State) {q : Req} (h : q.op = .get) : failedWrites s q = none := by simp [failedWrites, hostWrites, h]

/-- Settles O52. Each step is an equation of its function of the model; the order of results is that of pairKey (pairLt_iff), and a
completion reads or writes a run of bytes of memory (hostRead_eq, hostWrite_mem). -/
theorem searchAndHostSteps : Obligations.SearchAndHostSteps := by
  unfold Obligations.SearchAndHostSteps
  refine ⟨?query, ?pulls, ?pull, ?hop, ?dist, ?finish, ?least, ?fresh, ?join, ?merge, ?window, ?completion, ?timeout⟩
  case query =>
    intro q s home hwf hp hs
    rw [exec_vaultQuery_fresh hwf hp hs]
    refine ⟨fun hb => ⟨_, rfl, ?_, ?_⟩, fun hb hw hr => ⟨_, rfl, ?_, ?_, ?_⟩, fun hb hr hw => ⟨_, rfl, ?_⟩, fun hb hr => ?_⟩
    · rw [queryAt_bad hb]
      exact replyTo_answered _ _ _ _ _ _ _
    · rw [queryAt_bad hb]
      exact fun _ => rfl
    · rw [queryAt_crowded hb hw hr]
      exact emitNet_due _ _ _ _ _
    · rw [queryAt_crowded hb hw hr]
      rfl
    · rw [queryAt_crowded hb hw hr]
      exact fun _ => rfl
    · rw [queryAt_waits hb (by omega), beginRuns_full (by rw [State.modVault_vault]; exact hr), State.modVault_vault]
      exact ⟨rfl, fun _ => rfl, rfl, rfl⟩
    · rw [queryAt_waits hb (by omega)]
  case pulls =>
    intro q s home run hwf hp
    exact exec_vaultQuery_pull hwf hp
  case pull =>
    intro s home n a run hp hn ha
    refine ⟨fun hv => ?_, fun hv => ⟨fun hr => ?_, fun fn hr => ?_, fun b hr => pullVector_ok hn ha hv hp hr⟩⟩
    · rw [pullVector_outside hn hv]
      exact ⟨_, rfl, replyTo_answered _ _ _ _ _ _ _, fun _ => rfl, dropRun_run s home run.qid⟩
    · rw [pullVector_wait hn ha hv hr]
      exact ⟨emitOnce_due _ _, emitOnce_vaults _ _, sameMem_of_mem_eq (emitOnce_mem _ _)⟩
    · rw [pullVector_faulted hn ha hv hr]
      exact ⟨replyTo_answered _ _ _ _ _ _ _, fun _ => rfl⟩
  case hop =>
    intro q s run sh hwf hr hs
    rw [exec_hopRequest_eq hr hwf hs]
    refine ⟨fun hv => ?_, fun hv => ?_⟩
    · rw [if_neg hv]
      refine ⟨fun hm => ⟨_, rfl, ?_⟩, fun u ids hm hx => by rw [serveHop_still hm hx]; rfl,
        fun u fc hm hx => by rw [serveHop_still hm hx]; rfl⟩
      rw [serveHop_moves hm]
      exact ⟨emitOnce_due _ _, emitOnce_tiles _ _, sameMem_of_mem_eq (emitOnce_mem _ _)⟩
    · rw [if_pos hv]
      exact ⟨fun v sh2 hids ho => by rw [landHop_ids hids ho], fun fc hids => by rw [landHop_fault hids]⟩
  case dist =>
    intro q s run sh hwf hr hs
    rw [exec_distanceRequest_eq hr hwf hs]
    refine ⟨fun hv => ?_, fun hv => ?_⟩
    · rw [if_neg hv]
      refine ⟨fun hm => ⟨_, rfl, ?_⟩, fun u l hm hx => by rw [serveDist_still hm hx]⟩
      rw [serveDist_moves hm]
      exact ⟨emitOnce_due _ _, emitOnce_tiles _ _, sameMem_of_mem_eq (emitOnce_mem _ _)⟩
    · rw [if_pos hv]
      refine ⟨fun h => by rw [landDist_last h], fun h => ?_⟩
      obtain ⟨l, hl, hmem⟩ := landDist_more (s := s) (run := run) h
      exact ⟨l, by rw [hl], hmem⟩
  case finish =>
    intro home qid s run hwf hr
    rw [exec_querySearchEnd_eq hwf hr]
    refine ⟨fun h => by rw [h]; rfl, fun h => ⟨_, rfl, ?_⟩⟩
    rw [h]
    exact ⟨rfl, fun _ => rfl, emitNet_due _ _ _ _ _⟩
  case least =>
    intro l a h
    obtain ⟨hmem, hle⟩ := leastPair_spec h
    exact ⟨hmem, fun b hb => (pairLt_false_iff a b).2 (hle b hb)⟩
  case fresh => exact freshIds_spec
  case join =>
    intro sh ef v d _ h
    exact sh.join_spec v d h
  case merge =>
    intro run
    exact ⟨List.length_take_le _ _, (merged_sorted run).imp (fun h => (pairLt_false_iff _ _).2 h)⟩
  case window =>
    intro q s hwf
    exact ⟨fun fc h => ⟨_, exec_hostWindowRequest_refused hwf h, replyTo_answered _ _ _ _ _ _ _, rfl, fun _ => rfl⟩,
      fun h => ⟨_, exec_hostWindowRequest_issued hwf h, rfl, fun _ => rfl, pcie_due s q⟩⟩
  case completion =>
    intro q s hwf
    rw [exec_pcieCompletion_eq s hwf]
    refine ⟨fun n b ho hb hn hr => ⟨_, rfl, ?_⟩, fun n ho hb hu hn => ⟨_, rfl, hostAt_put_spec hb hn ho hu rfl⟩,
      fun op w n ho hop hb hn => ⟨_, rfl, hostAt_atom_spec ho hop hb hn rfl⟩⟩
    rw [hostAt_get hn hb ho hr]
    refine ⟨by split <;> rfl, by split <;> exact fun _ => rfl, fun hlt => ?_, fun hle => ?_⟩
    · rw [if_pos hlt]
      exact emit_due _ _
    · rw [if_neg (by omega)]
      exact replyTo_answered _ _ _ _ _ _ _
  case timeout =>
    intro q s hwf
    cases hw : failedWrites s q with
    | none =>
      exact ⟨_, _, exec_hostCompletionTimeout_none hwf hw, rfl, replyTo_answered _ _ _ _ _ _ _,
        fun ho => ⟨by rw [keptOf, ho]; rfl, fun _ => rfl⟩⟩
    | some b =>
      exact ⟨_, _, exec_hostCompletionTimeout_wrote hwf hw, rfl, replyTo_answered _ _ _ _ _ _ _,
        fun ho => absurd (hw.symm.trans (failedWrites_get s ho)) (by simp)⟩

end Sys2Proof.Machine
end
